-- ==== Sys2Proof/Config.lean ====
section
/-! DEFINITION. What an implementation fixes or the spec leaves open: constants with no body, so that
nothing can be proved of their values. -/

namespace Sys2Proof

/-- The `n`-th free value that the module draws (log row 6): BOOT_NONCE and other values that spec/ leaves to
the part. -/
opaque Config.freeWord : Nat → BitVec 64

/-- FLOW_EST in Q16.16 L/min, from mean input power, inlet and outlet temperature (all Q16.16) and the glycol share
in percent (R296; spec/10 gives no formula). -/
opaque Config.flowEstimate : BitVec 32 → BitVec 32 → BitVec 32 → BitVec 8 → BitVec 32

/-- The Falcon-1024 check of R252, R413, R520: key, signed message, signature (log row 19). -/
opaque Config.falconVerify : List (BitVec 8) → List (BitVec 8) → List (BitVec 8) → Bool

/-- Bytes of the device certificate that are written at Gwemond's test: root identifier, identity public key and
signature (R523, Table 19.4), by their offset. -/
opaque Config.certByte : Nat → BitVec 8

/-- Length of the certificate's signature, modulo 1,281. -/
opaque Config.certSigLen : BitVec 16

/-- Gwemond's firmware public key, which the boot ROM holds (R520). -/
opaque Config.firmwareKey : List (BitVec 8)

/-- The fused identity seed, by byte (R524). -/
opaque Config.seedByte : Nat → BitVec 8

/-- Falcon-1024 key generation from a random source, of which the argument gives the first `n` bytes: the public key
after its first byte, and the private key, by byte (R524). -/
opaque Config.falconPublic : (Nat → List (BitVec 8)) → Nat → BitVec 8
opaque Config.falconPrivate : (Nat → List (BitVec 8)) → Nat → BitVec 8

/-- A Falcon-1024 signature, by byte: private key, signed message, and the signer's own random draw (R527). -/
opaque Config.falconSign : List (BitVec 8) → List (BitVec 8) → BitVec 64 → Nat → BitVec 8

/-- How many beats a beat region trails the module's stretch count: at most 3 (R281). -/
opaque Config.mirrorLag : Nat → BitVec 2

end Sys2Proof
end

