-- ==== Sys2Proof/Syntax.lean ====
section
/-! DEFINITION. The commands of the module: one constructor per row of spec/opcode_table.json, with the
operands that the row's rule gives it. -/

namespace Sys2Proof

/-- A matrix core: 2 × module hall + 0 for M0, + 1 for M1 (R12). -/
abbrev MCoreId := Fin 384
/-- A module hall number, which names the hall's vector core too (R12). -/
abbrev HallId := Fin 192
/-- A tower, T0 to T3. -/
abbrev TowerId := Fin 4

/-- LOOP, Table 3.4. -/
structure LoopArgs where
  count : BitVec 24
  body : BitVec 12
deriving DecidableEq, Repr

/-- Matrix-core WAIT, Table 3.4. -/
structure MWaitArgs where
  bell : BitVec 13
  wreg : BitVec 4
  step : BitVec 16
deriving DecidableEq, Repr

/-- Matrix-core SIGNAL, Table 3.4. -/
structure MSignalArgs where
  bell : BitVec 13
  inc : BitVec 16
deriving DecidableEq, Repr

/-- SETA, Table 3.4. -/
structure SetaArgs where
  areg : BitVec 3
  step : BitVec 16
  base : BitVec 24
deriving DecidableEq, Repr

/-- SETW, Table 3.4. -/
structure SetwArgs where
  wreg : BitVec 4
  value : BitVec 48
deriving DecidableEq, Repr

/-- SETR, Table 3.4. -/
structure SetrArgs where
  sel : BitVec 8
  value : BitVec 32
deriving DecidableEq, Repr

/-- SETKEYS, Table 3.4. -/
structure SetkeysArgs where
  areg : BitVec 3
  ainc : Bool
deriving DecidableEq, Repr

/-- LOADW, Table 3.5. -/
structure LoadwArgs where
  slot : Bool
  src : Bool
  wfmt : BitVec 4
  areg : BitVec 3
  ainc : Bool
  sreg : BitVec 3
  sinc : Bool
  handle : BitVec 12
  xpose : Bool
  rstride : BitVec 8
deriving DecidableEq, Repr

/-- ACC, Table 3.6. -/
structure AccArgs where
  slot : Bool
  orient : Bool
  afmt : BitVec 4
  areg : BitVec 3
  ainc : Bool
  sreg : BitVec 3
  sinc : Bool
  bank : BitVec 2
  col0 : BitVec 7
  ncol : BitVec 7
  clear : Bool
  auto : Bool
  anchor : BitVec 10
deriving DecidableEq, Repr

/-- DRAIN, Table 3.7. -/
structure DrainArgs where
  bank : BitVec 2
  ofmt : BitVec 4
  rnd : BitVec 2
  row0q : BitVec 2
  nrowq : BitVec 2
  col0 : BitVec 7
  ncol : BitVec 7
  outShift : BitVec 8
  clr : Bool
  stclr : Bool
  last : Bool
  tag : BitVec 16
deriving DecidableEq, Repr

/-- Format R of Table 4.2. -/
structure RArgs where
  pred : BitVec 3
  zero : Bool
  form : BitVec 2
  vd : BitVec 6
  va : BitVec 6
  vb : BitVec 6
  vc : BitVec 6
  md : BitVec 10
deriving DecidableEq, Repr

/-- Format I of Table 4.2. -/
structure IArgs where
  pred : BitVec 3
  zero : Bool
  form : BitVec 2
  vd : BitVec 6
  va : BitVec 6
  imm : BitVec 32
deriving DecidableEq, Repr

/-- Format M of Table 4.2; `q` is bit [27] as TLD reads it. -/
structure MArgs where
  pred : BitVec 3
  zero : Bool
  vd : BitVec 6
  sa : BitVec 5
  handle : BitVec 12
  offset : BitVec 24
deriving DecidableEq, Repr

/-- Format S of Table 4.2. -/
structure SArgs where
  sd : BitVec 5
  sa : BitVec 5
  sb : BitVec 5
  uimm : Bool
  imm : BitVec 32
deriving DecidableEq, Repr

/-- Format B of Table 4.2. -/
structure BArgs where
  cond : BitVec 4
  sa : BitVec 5
  sb : BitVec 5
  offset : BitVec 24
deriving DecidableEq, Repr

/-- Format C of Table 4.2. -/
structure CArgs where
  sd : BitVec 5
  sa : BitVec 5
  bell : BitVec 13
  post : BitVec 5
  q : Bool
  imm : BitVec 24
deriving DecidableEq, Repr

/-- Format X of Table 4.2. -/
structure XArgs where
  pred : BitVec 3
  zero : Bool
  esd : BitVec 3
  esa : BitVec 3
  va : BitVec 6
  vb : BitVec 6
  anchor : BitVec 10
  auto : Bool
  pair : Bool
  outShift : BitVec 8
  rnd : BitVec 2
  group : BitVec 4
  ofmt : Bool
  sk : BitVec 5
deriving DecidableEq, Repr

/-- What the controller's code finds in a Cellar block that it reads (R186). -/
inductive Ecc where
  | clean
  | corrected
  | uncorrectable
deriving DecidableEq, Repr

/-- What the controller's code finds as the Steward reads the staged image at a load (R186): how many blocks it corrects,
and the first block that it cannot, counted from the image's start. -/
structure StagingReads where
  corrected : BitVec 24
  bad : Option (BitVec 24)
deriving DecidableEq, Repr

/-! ### What the governor measures (spec/10) -/

/-- The inputs of one control window, Q16.16 where spec/10 says so: mean input power, input voltage, inlet and
outlet temperature, the hottest sensor of each tower's upper and lower die, and each region's hottest sensor. -/
structure GovInputs where
  power : BitVec 32
  inputV : BitVec 32
  coolantIn : BitVec 32
  coolantOut : BitVec 32
  upper : List (BitVec 32)
  lower : List (BitVec 32)
  regions : List (BitVec 8)
deriving DecidableEq, Repr


/-! ### Eothar links (spec/11 to spec/13) -/

/-- An Eothar port, E0 to E31. -/
abbrev PortId := Fin 32

/-- A flit (R305): the header of Table 11.2, the 128 B payload and the stored CRC. -/
structure Flit where
  hdr : BitVec 64
  payload : BitVec 1024
  crc : BitVec 32
deriving DecidableEq, Repr

/-- How the FEC delivered a flit's codewords (R315). -/
inductive Fec where
  | clean | corrected | uncorrectable
deriving DecidableEq, Repr

/-- What moves bytes on the mesh: a porter (tower porter i of tower t is 16 t + i, the hall porter of module
hall h is 64 + h), or the transfers that arrive on an Eothar port. -/
inductive Mover where
  | porter (p : Fin 256)
  | fabric (port : PortId)
deriving DecidableEq, Repr

/-- The link parameters that a received INIT flit carries (R325, R346): whether its flit format version agrees,
the sender's role and CHANNEL_NS, its replay depth and its ten buffer depths; and the NONCE that the group's spare
lane, trained with its ports, carries (R322, Table 13.1; 0 = none). -/
structure InitInfo where
  sameVersion : Bool
  role : BitVec 8
  channelNs : BitVec 8
  replayDepth : BitVec 16
  depths : List (BitVec 16)
  sparePeer : BitVec 64
deriving DecidableEq, Repr

/-- What a check of a memory or of a complement pair found (Tables 16.3 and 16.4). -/
inductive FoundKind where
  | corrected | uncorrectable | parity | pair
deriving DecidableEq, Repr

/-- Where: the code of Table 16.10, tower, index and agent of the access. `again`: the word still fails when the
local rewind reads it again (R448), or the master copy of the pair fails too (R446). -/
structure Found where
  kind : FoundKind
  place : BitVec 5
  tower : Fin 4
  index : BitVec 24
  agent : BitVec 8
  again : Bool
deriving DecidableEq, Repr


/-! ### The object dictionary (spec/17) -/

/-- How a dictionary request came (Table 17.10). -/
inductive DictPath where
  | kloder | i3c
  /-- Eothar, from a rank. -/
  | eothar (srank : BitVec 16)
deriving DecidableEq, Repr

/-- A WRITE request (Table 17.4) to the object that the command names. -/
structure DictWrite where
  path : DictPath
  inst : BitVec 16
  tag : BitVec 16
  type : BitVec 8
  length : BitVec 16
  offset : BitVec 24
  value : List Byte
deriving DecidableEq, Repr

/-- A READ or INFO request, or one with another opcode. -/
structure DictAsk where
  path : DictPath
  inst : BitVec 16
  index : BitVec 16
  sub : BitVec 8
  tag : BitVec 16
  type : BitVec 8
  length : BitVec 16
  offset : BitVec 24
deriving DecidableEq, Repr

/-! ### Members of a resident job (R257, R368, R383) -/

/-- What a member reports to the desk rank: its rank, image digest, whether it is LOCKED, and TRANSIT_ONLY. -/
structure MemberReport where
  rank : BitVec 16
  digest : BitVec 256
  locked : Bool
  transit : Bool
deriving DecidableEq, Repr


/-! ### The Kloder link (spec/18) -/

/-- A Kloder frame as it arrives (R497): header words, payload, and the CRC in its trailer. -/
structure KloderFrame where
  h0 : BitVec 64
  h1 : BitVec 64
  payload : List (BitVec 8)
  crc : BitVec 32
deriving DecidableEq, Repr

/-- Channels DICT, SUBMIT, TOKEN, BULK and EVENT (Table 18.2). -/
abbrev KloderChannel := Fin 5

/-- What a peer's own flash holds for a shard request: the first 8 B of its manifest's digest, and the shard's bytes. -/
structure PeerImage where
  digest : BitVec 64
  bytes : List (BitVec 8)
deriving DecidableEq, Repr


/-! ### The flash port, bring-up and the test port (spec/15, spec/18 to spec/20) -/

/-- What the training of a flash port's link and the identification of its namespaces give: up, in FLIT mode, PCIe
generation and width (8101), each namespace that Identify names with log2 of its logical block size (0 where the blocks
carry metadata or protection information), and MDTS in bytes (0 = no limit). -/
structure F0Init where
  up : Bool
  flit : Bool
  gen : BitVec 4
  width : BitVec 8
  spaces : List (BitVec 32 × BitVec 8)
  mdts : BitVec 32
deriving DecidableEq, Repr

/-- An inbound memory request of a flash endpoint (Table 15.3). -/
structure PcieRequest where
  ctrl : Bool
  write : Bool
  addr : BitVec 64
  len : BitVec 13
  data : List (BitVec 8)
deriving DecidableEq, Repr

/-- What R514 asks of the board and the package: the input has stood at 40 V for 100 ms, the regulators regulate, RST_N is
high, the generators are locked; and the strap KMODE. -/
structure PowerGood where
  supply : Bool
  regulated : Bool
  rstN : Bool
  locked : Bool
  kmode : Bool
deriving DecidableEq, Repr

/-- A scan of the boundary register: what its cells capture, and what is shifted in and updated. -/
structure BoundaryScan where
  captured : BitVec 355
  shifted : BitVec 355
deriving DecidableEq, Repr

/-- The commands. Each constructor's docstring gives the row's rule. -/
inductive Instr where
  /-- R86. A matrix-core NOP command occupies the sequencer for one beat and does nothing. -/
  | mcNop (c : MCoreId)
  /-- R86. A matrix-core END command stops the sequencer and keeps slots, banks and queue entries until the next program start. -/
  | mcEnd (c : MCoreId)
  /-- R90. A LOOP command pushes a counted loop over its body, skips the body when COUNT is 0, and runs a fifth nested loop once. -/
  | mcLoop (c : MCoreId) (a : LoopArgs)
  /-- R91. A matrix-core WAIT adds STEP to its wait register and holds the sequencer until the bell reaches that register's value. -/
  | mcWait (c : MCoreId) (a : MWaitArgs)
  /-- R91. A held matrix-core WAIT starts 3 beats after its bell first meets the condition. -/
  | mcWaitResume (c : MCoreId)
  /-- R260. A core WAIT on STEP_BELL that a launch satisfies resumes at the ENTRY address of the latched shape, and a matrix core empties its loop stack. -/
  | shapeEntryResume (vector : Bool) (c : MCoreId)
  /-- R92. A matrix-core SIGNAL queues an addition of INC to a bell of its tower. -/
  | mcSignal (c : MCoreId) (a : MSignalArgs)
  /-- R92. The bell named by a matrix-core SIGNAL changes 4 beats after earlier commands have read their operands and earlier drains are visible. -/
  | mcSignalBellChange (c : MCoreId)
  /-- R87. SETA loads the BASE and STEP of an address register. -/
  | mcSeta (c : MCoreId) (a : SetaArgs)
  /-- R91. SETW loads a 48-bit target into a wait register. -/
  | mcSetw (c : MCoreId) (a : SetwArgs)
  /-- R102. SETR sets STREAM_TAG, OUT_BASE or TILE_INDEX, and a reserved selector changes nothing and sets CMD_RESERVED. -/
  | mcSetr (c : MCoreId) (a : SetrArgs)
  /-- R102. SETKEYS loads the 128-entry column-key map from the Pantry. -/
  | mcSetkeys (c : MCoreId) (a : SetkeysArgs)
  /-- R93. LOADW reads a weight tile from the Pantry or from a Larder handle into a weight slot. -/
  | mcLoadw (c : MCoreId) (a : LoadwArgs)
  /-- R98. ACC streams activation vectors against a slot in orientation N or T and accumulates the exact products into a bank. -/
  | mcAcc (c : MCoreId) (a : AccArgs)
  /-- R100. DRAIN converts bank elements into an output format and writes them as finished-tile queue entries. -/
  | mcDrain (c : MCoreId) (a : DrainArgs)
  /-- R106. A drain waiting for a free queue entry writes its entry once the vector core releases one. -/
  | drainQueueResume (c : MCoreId)
  /-- R105. A finished-tile entry becomes visible to the vector core 2 beats after its last byte is written. -/
  | ftqEntryVisible (c : MCoreId)
  /-- R85. CLEAR resets every element of one bank to X, A, SAT and NAN of 0. -/
  | mcClear (c : MCoreId) (bank : BitVec 2)
  /-- R73. The matrix STATUS command clears the sticky status bits selected by CLRMASK. -/
  | mcStatus (c : MCoreId) (clrmask : BitVec 8)
  /-- R89. A reserved matrix opcode executes as NOP and sets CMD_RESERVED. -/
  | mcReservedOpcode (c : MCoreId) (op : BitVec 6)
  /-- R123. A vector-core NOP does nothing. -/
  | vcNop (h : HallId)
  /-- R123. A vector-core END stops the core and keeps its state until the next program start. -/
  | vcEnd (h : HallId)
  /-- R116. BR branches on a scalar comparison, the target issuing 3 beats later when taken. -/
  | br (h : HallId) (a : BArgs)
  /-- R116. BRP branches on whether any, no or all lanes of a predicate are set. -/
  | brp (h : HallId) (a : BArgs)
  /-- R117. MARK records its issue beat in the mark register. -/
  | mark (h : HallId) (a : CArgs)
  /-- R117. PACE holds issue until the mark plus IMM. -/
  | pace (h : HallId) (a : CArgs)
  /-- R117. A held PACE issues on the beat equal to the mark plus IMM. -/
  | paceRelease (h : HallId)
  /-- R137. A vector-core WAIT holds issue until a bell reaches the target in a scalar register. -/
  | vcWait (h : HallId) (a : CArgs)
  /-- R137. A held vector-core WAIT starts 3 beats after its bell first meets the condition. -/
  | vcWaitResume (h : HallId)
  /-- R137. A vector-core SIGNAL queues an addition of IMM[15:0] to a bell of its tower. -/
  | vcSignal (h : HallId) (a : CArgs)
  /-- R137. The bell named by a vector-core SIGNAL changes 4 beats after earlier reads and stores are complete. -/
  | vcSignalBellChange (h : HallId)
  /-- R138. DESC hands a 64 B porter descriptor from the Pantry to the hall porter or a tower porter. -/
  | desc (h : HallId) (a : CArgs)
  /-- R235. PSEND places a post descriptor in the core's send stage and writes a status word. -/
  | psend (h : HallId) (a : CArgs)
  /-- R139. PRECV holds while its post is empty, then moves the head descriptor to the Pantry and writes the post status. -/
  | precv (h : HallId) (a : CArgs)
  /-- R139. A held PRECV issues when its post has a visible head, freeing the slot. -/
  | precvResume (h : HallId)
  /-- R140. The vector STATUS instruction copies the sticky status word to a scalar and clears the bits in IMM. -/
  | vcStatus (h : HallId) (a : CArgs)
  /-- R132. TWAIT holds until a finished-tile queue has a visible head and writes its header to a scalar. -/
  | twait (h : HallId) (a : CArgs)
  /-- R132. A held TWAIT, TLD or TREL issues once its queue's head entry becomes visible. -/
  | twaitResume (h : HallId)
  /-- R134. TREL releases the head entry of a finished-tile queue. -/
  | trel (h : HallId) (a : CArgs)
  /-- R123. Scalar 64-bit wrapping add. -/
  | sadd (h : HallId) (a : SArgs)
  /-- R123. Scalar 64-bit wrapping subtract. -/
  | ssub (h : HallId) (a : SArgs)
  /-- R123. Scalar bitwise AND. -/
  | sand (h : HallId) (a : SArgs)
  /-- R123. Scalar bitwise OR. -/
  | sor (h : HallId) (a : SArgs)
  /-- R123. Scalar bitwise XOR. -/
  | sxor (h : HallId) (a : SArgs)
  /-- R123. Scalar shift left by an amount modulo 64. -/
  | sshl (h : HallId) (a : SArgs)
  /-- R123. Scalar logical shift right by an amount modulo 64. -/
  | sshr (h : HallId) (a : SArgs)
  /-- R123. Scalar arithmetic shift right by an amount modulo 64. -/
  | ssra (h : HallId) (a : SArgs)
  /-- R123. Scalar multiply keeping the low 64 bits. -/
  | smul (h : HallId) (a : SArgs)
  /-- R123. Loads a sign-extended immediate into a scalar register. -/
  | sli (h : HallId) (a : SArgs)
  /-- R123. Loads an immediate into the high 32 bits of a scalar register. -/
  | slih (h : HallId) (a : SArgs)
  /-- R123. Loads 8 B from a Pantry byte address into a scalar register. -/
  | sld (h : HallId) (a : MArgs)
  /-- R144. Stores 8 B of a scalar register into the Pantry. -/
  | sst (h : HallId) (a : MArgs)
  /-- R119. Vector integer add wrapping modulo 2^w. -/
  | iadd (h : HallId) (a : RArgs)
  /-- R119. Vector integer add saturating to the signed range. -/
  | iadds (h : HallId) (a : RArgs)
  /-- R119. Vector integer add saturating to the unsigned range. -/
  | iaddu (h : HallId) (a : RArgs)
  /-- R119. Vector integer subtract wrapping modulo 2^w. -/
  | isub (h : HallId) (a : RArgs)
  /-- R119. Vector integer subtract saturating to the signed range. -/
  | isubs (h : HallId) (a : RArgs)
  /-- R119. Vector integer subtract saturating to the unsigned range. -/
  | isubu (h : HallId) (a : RArgs)
  /-- R119. Vector integer multiply wrapping modulo 2^w. -/
  | imul (h : HallId) (a : RArgs)
  /-- R119. Vector integer multiply returning the high w bits. -/
  | imulh (h : HallId) (a : RArgs)
  /-- R123. Vector integer minimum, signed or unsigned. -/
  | imin (h : HallId) (a : RArgs)
  /-- R123. Vector integer maximum, signed or unsigned. -/
  | imax (h : HallId) (a : RArgs)
  /-- R119. Vector integer absolute value saturating at the most negative value. -/
  | iabs (h : HallId) (a : RArgs)
  /-- R119. Vector shift left by the element of VB. -/
  | ishl (h : HallId) (a : RArgs)
  /-- R119. Vector logical shift right by the element of VB. -/
  | ishr (h : HallId) (a : RArgs)
  /-- R119. Vector arithmetic shift right by the element of VB. -/
  | isra (h : HallId) (a : RArgs)
  /-- R123. Vector bitwise AND. -/
  | vand (h : HallId) (a : RArgs)
  /-- R123. Vector bitwise OR. -/
  | vor (h : HallId) (a : RArgs)
  /-- R123. Vector bitwise XOR. -/
  | vxor (h : HallId) (a : RArgs)
  /-- R123. Vector bitwise NOT. -/
  | vnot (h : HallId) (a : RArgs)
  /-- R123. Selects VA in active lanes and VB in the others. -/
  | vsel (h : HallId) (a : RArgs)
  /-- R123. Copies a vector register. -/
  | vmov (h : HallId) (a : RArgs)
  /-- R123. Broadcasts the low 32 bits of a scalar to every lane. -/
  | vbcs (h : HallId) (a : RArgs)
  /-- R123. Broadcasts an immediate to every lane. -/
  | vli (h : HallId) (a : IArgs)
  /-- R123. Writes each lane's index into that lane. -/
  | viota (h : HallId) (a : RArgs)
  /-- R123. Permutes the lanes of VA by the indices in VB. -/
  | vperm (h : HallId) (a : RArgs)
  /-- R123. Copies one lane, sign-extended, into a scalar register. -/
  | vtos (h : HallId) (a : RArgs)
  /-- R123. Writes a scalar into one lane and keeps the others. -/
  | vsetl (h : HallId) (a : RArgs)
  /-- R123. Integer comparison writing a predicate. -/
  | icmp (h : HallId) (a : RArgs)
  /-- R121. FP32 comparison writing a predicate with the NaN rules of R121. -/
  | fcmp (h : HallId) (a : RArgs)
  /-- R123. Predicate AND. -/
  | pand (h : HallId) (a : RArgs)
  /-- R123. Predicate OR. -/
  | por (h : HallId) (a : RArgs)
  /-- R123. Predicate XOR. -/
  | pxor (h : HallId) (a : RArgs)
  /-- R123. Predicate NOT. -/
  | pnot (h : HallId) (a : RArgs)
  /-- R123. Sets predicate bits below a scalar count. -/
  | pfirst (h : HallId) (a : RArgs)
  /-- R123. Counts the set bits of a predicate into a scalar. -/
  | pcnt (h : HallId) (a : RArgs)
  /-- R120. FP32 add. -/
  | fadd (h : HallId) (a : RArgs)
  /-- R120. FP32 subtract. -/
  | fsub (h : HallId) (a : RArgs)
  /-- R120. FP32 multiply. -/
  | fmul (h : HallId) (a : RArgs)
  /-- R120. FP32 fused multiply-add with one rounding. -/
  | fma (h : HallId) (a : RArgs)
  /-- R120. FP32 fused negative multiply-subtract with one rounding. -/
  | fnms (h : HallId) (a : RArgs)
  /-- R121. FP32 minimum with canonical NaN and -0 below +0. -/
  | fmin (h : HallId) (a : RArgs)
  /-- R121. FP32 maximum with canonical NaN and -0 below +0. -/
  | fmax (h : HallId) (a : RArgs)
  /-- R123. Clears the FP32 sign bit. -/
  | fabs (h : HallId) (a : RArgs)
  /-- R123. Flips the FP32 sign bit. -/
  | fneg (h : HallId) (a : RArgs)
  /-- R123. Multiplies by a power of two with one rounding. -/
  | fscale (h : HallId) (a : RArgs)
  /-- R123. Rounds FP32 to an integral value under a rounding mode. -/
  | frint (h : HallId) (a : RArgs)
  /-- R123. Maximum over the active lanes of each lane group, written to the group. -/
  | fredmax (h : HallId) (a : RArgs)
  /-- R123. Minimum over the active lanes of each lane group, written to the group. -/
  | fredmin (h : HallId) (a : RArgs)
  /-- R122. Converts INT32 lanes to FP32. -/
  | cvtif (h : HallId) (a : RArgs)
  /-- R122. Converts FP32 lanes to INT32 with saturation. -/
  | cvtfi (h : HallId) (a : RArgs)
  /-- R122. Converts FP32 lanes of two registers to BF16. -/
  | cvtfb (h : HallId) (a : RArgs)
  /-- R122. Converts FP32 lanes of two registers to FP16. -/
  | cvtfh (h : HallId) (a : RArgs)
  /-- R123. Widens BF16 elements of one half to FP32 lanes. -/
  | cvtbf (h : HallId) (a : RArgs)
  /-- R123. Widens FP16 elements of one half to FP32 lanes. -/
  | cvthf (h : HallId) (a : RArgs)
  /-- R122. Converts FP32 lanes to E4M3 or E5M2 bytes in one quarter. -/
  | cvtf8 (h : HallId) (a : RArgs)
  /-- R123. Widens FP8 bytes of one quarter to FP32 lanes. -/
  | cvt8f (h : HallId) (a : RArgs)
  /-- R70. Packs blocks of 32 FP32 lanes into MX elements and scales. -/
  | mxpack (h : HallId) (a : RArgs)
  /-- R123. Unpacks MX blocks into FP32 lanes. -/
  | mxunpk (h : HallId) (a : RArgs)
  /-- R123. Narrows signed elements with saturation into one half of VD. -/
  | inarrow (h : HallId) (a : RArgs)
  /-- R123. Widens elements of one half of VA by sign or zero extension. -/
  | iwiden (h : HallId) (a : RArgs)
  /-- R125. Computes 2^x per lane by the defining pseudocode. -/
  | exp2 (h : HallId) (a : RArgs)
  /-- R125. Computes log2 x per lane by the defining pseudocode. -/
  | log2 (h : HallId) (a : RArgs)
  /-- R125. Computes tanh x per lane by the defining pseudocode. -/
  | tanh (h : HallId) (a : RArgs)
  /-- R125. Computes the logistic sigmoid per lane by the defining pseudocode. -/
  | sigm (h : HallId) (a : RArgs)
  /-- R125. Computes a correctly rounded reciprocal per lane. -/
  | rcp (h : HallId) (a : RArgs)
  /-- R125. Computes a correctly rounded reciprocal square root per lane. -/
  | rsqrt (h : HallId) (a : RArgs)
  /-- R135. Loads 1,024 B from 32 Pantry granules into a vector register. -/
  | vld (h : HallId) (a : MArgs)
  /-- R135. Stores a vector register to 32 Pantry granules. -/
  | vst (h : HallId) (a : MArgs)
  /-- R136. Loads two Larder rows through a handle into a vector register. -/
  | lld (h : HallId) (a : MArgs)
  /-- R136. Stores a vector register to two Larder rows through a handle. -/
  | lst (h : HallId) (a : MArgs)
  /-- R133. Loads 32 granules of the head finished-tile entry into a vector register. -/
  | tld (h : HallId) (a : MArgs)
  /-- R126. Clears an exact-sum register and sets its explicit or automatic anchor. -/
  | xclr (h : HallId) (a : XArgs)
  /-- R127. Adds FP32 lanes exactly into an exact-sum register. -/
  | xadd (h : HallId) (a : XArgs)
  /-- R127. Adds exact lane products into an exact-sum register. -/
  | xmac (h : HallId) (a : XArgs)
  /-- R128. Adds 32 ACC records into a segment of an exact-sum register. -/
  | xrec (h : HallId) (a : XArgs)
  /-- R129. Sums the active elements of each group and writes the sum to the group. -/
  | xfold (h : HallId) (a : XArgs)
  /-- R130. Converts exact-sum elements to FP32 or INT32 lanes. -/
  | xdrain (h : HallId) (a : XArgs)
  /-- R131. Writes a segment of exact-sum elements as ACC records. -/
  | xout (h : HallId) (a : XArgs)
  /-- R113. A reserved vector opcode executes as NOP and sets INS_RESERVED. -/
  | vcReservedOpcode (h : HallId) (op : BitVec 8)
  /-- R182. A Cellar stream arrives at its controller and its blocks are assigned slots. -/
  | cellarStreamArrive (stack : Fin 24)
  /-- R177. A unit starts a read or write of one 512 B block at its slot beat. -/
  | cellarBlockStart (stack : Fin 24)
  /-- R183. A read block's last byte reaches the porter port 80 or 108 beats after its slot. -/
  | cellarReadDone (stack : Fin 24) (ecc : Ecc)
  /-- R183. A written block becomes visible 10 beats after its slot. -/
  | cellarWriteVisible (stack : Fin 24)
  /-- R179. A stack's six-frame refresh window begins, in which no block starts. -/
  | refreshWindow (stack : Fin 24) (corrected bad : BitVec 16)
  /-- R188. A stack reaching 100 C sets HOT and asks the governor to lower the point. -/
  | stackHot (stack : Fin 24) (temp : BitVec 32)
  /-- R188. A stack reaching 105 C ends the job with a job-fatal error and invalidates all stack contents. -/
  | stackLimit (stack : Fin 24) (temp : BitVec 32)
  /-- R192. A porter receives a descriptor into its queue when an entry is free. -/
  | descReceive (p : Fin 256)
  /-- R193. A porter starts its next descriptor once the previous has injected its last packet. -/
  | descriptorStart (p : Fin 256)
  /-- R193. A descriptor held by WT starts 3 beats after its bell meets the target. -/
  | descriptorWaitMet (p : Fin 256)
  /-- R194. A chained descriptor read from a Pantry joins the porter queue at S + 6. -/
  | chainFetch (p : Fin 256)
  /-- R201. A porter reads a source unit from a Pantry, Larder region or staging. -/
  | porterSourceAccess (m : Mover)
  /-- R201. A porter injects a 128 B packet onto its mesh plane. -/
  | packetInject (m : Mover)
  /-- R544. The landing buffer delivers a loader packet to its porter. -/
  | landingDeliver
  /-- R201. A packet is written at its destination 5 beats after reaching the destination router. -/
  | packetWrite (m : Mover)
  /-- R206. A descriptor completes when its last packet is written at every destination. -/
  | descriptorComplete (m : Mover)
  /-- R206. A write acknowledgement in class RPL returns to the porter of a remote-destination descriptor. -/
  | writeAckReceive
  /-- R207. With SIG = 1 the named bell rises by SINC 6 beats after completion plus bridges. -/
  | porterSignal (m : Mover)
  /-- R236. A send stage injects its next entry as a single packet. -/
  | stageInject (stage : Fin 193)
  /-- R237. A send arrives at a post and is accepted, waits at the input, or completes CLOSED. -/
  | postArrival (post : Fin 18432)
  /-- R237. A waiting arrival is accepted on the first beat a slot is free. -/
  | postInputAccept (post : Fin 18432)
  /-- R240. OUTCOME is written in the sender's copy and ABELL rises when a send is accepted or closed. -/
  | postOutcome (stage : Fin 193)
  /-- R238. The stage injects a refused entry again 64 beats after the refusal reaches it. -/
  | refusalReinject (stage : Fin 193)
  /-- R243. A post reader reset inside a running job is a contained transient fault. -/
  | readerReset (h : HallId)
  /-- R245. A hold count reaching WATCHDOG_BEATS is job-fatal and writes WATCHDOG_RECORD. -/
  | watchdogFire
  /-- R230. A write adds AMOUNT to a bell, raises HAND_ACTION and ends determinism. -/
  | bellHandAdd (w : DictWrite)
  /-- R246. A write removes the head entry of a post and raises HAND_ACTION. -/
  | postDiscardHead (w : DictWrite)
  /-- R257. A write of the image length to A010.01 starts checking, binding and filling a program. -/
  | load (fewest : BitVec 8) (reads : StagingReads) (w : DictWrite)
  /-- R258. At START_BEAT every core resets and begins fetching at START. -/
  | programStart (start : BitVec 64) (reports : List MemberReport)
  /-- R259. A write of TRUE to A010.04 stops the job and clears handles, bells, posts and lodgers. -/
  | unload (w : DictWrite)
  /-- R259. Clearing ends, LOAD_STATE returns to 0 and COMPLETE follows. -/
  | unloadDone
  /-- R260. A launch adds 1 to STEP_BELL in every used tower and latches the shape. -/
  | launch
  /-- R265. At a commit beat the member checks quiescence and takes a snapshot. -/
  | commitPoint
  /-- R460. A commit is confirmed CONFIRM beats later and the boundary's records may be sent. -/
  | commitConfirm
  /-- R276. No reference edge for 1 us makes the generators hold and is module-fatal. -/
  | referenceLost
  /-- R280. A region whose margin falls below 3 stretches its beats to 9/8. `codes`: the eight monitors' codes (R279). -/
  | stretchStart (region : Fin 144) (codes : BitVec 32)
  /-- R280. Stretching ends once the margin has been 5 or more for 16 beats. -/
  | stretchEnd (region : Fin 144) (codes : BitVec 32)
  /-- R282. A crossing whose edges lie 4 beats apart records a contained transient clock slip. -/
  | clockSlip (a : Fin 144) (b : Fin 144)
  /-- R286. At the end of each 250 us window the governor sets its operating-point request. -/
  | governorWindow (m : GovInputs)
  /-- R285. A change of operating point ramps rails and frequency in a fixed order. -/
  | opChange (lowest : BitVec 4) (later : BitVec 32)
  /-- R292. Die heat or excess power lowers the point by four within 20 us. -/
  | emergencyStep (temp : BitVec 32) (power : BitVec 32)
  /-- R293. A die sensor at 110 C causes a module-fatal error. -/
  | dieTrip (temp : BitVec 32)
  /-- R299. Input below 38 V for 10 us quiets the outputs and turns off the regulators. -/
  | powerLoss
  /-- R26. A write selects performance or steady-draw mode at the next control window. -/
  | powerMode (w : DictWrite)
  /-- R291. A write sets the steady-draw setpoint from the next control window. -/
  | setpointW (w : DictWrite)
  /-- R291. A write sets the power limit from the next control window. -/
  | powerLimitW (w : DictWrite)
  /-- R291. A write sets the highest operating point from the next control window. -/
  | opCeiling (w : DictWrite)
  /-- R291. A write declares coolant flow for derating from the next control window. -/
  | flowDeclared (w : DictWrite)
  /-- R35. A write forces guarded mode for the next job and is LOCKED while a job is loaded. -/
  | forceGuarded (w : DictWrite)
  /-- R325. A port trains, aligns FEC and exchanges INIT flits to become UP. -/
  | portTrain (port : PortId) (init : Option InitInfo)
  /-- R315. A receiving end accepts, discards or NAKs a sequenced flit. -/
  | flitReceive (port : PortId) (flit : Flit) (fec : Fec) (frac : BitVec 4)
  /-- R316. A sender receiving a NAK replays from the named SEQ. -/
  | nak (port : PortId) (seq : BitVec 10)
  /-- R316. An unacknowledged flit waiting 2 us causes a replay from it. -/
  | replayTimeout (port : PortId)
  /-- R315. A further NAK is sent after 1 us without acceptance. -/
  | nakRepeat (port : PortId)
  /-- R317. A SEQ sent 8 times unacknowledged raises a fault and reinitialises the port. -/
  | retryDefeated (port : PortId) (realigned : Bool)
  /-- R319. A flit of a circuit's class passes to its output port without lookup. -/
  | circuitForward (port : PortId) (flit : Flit) (fec : Fec)
  /-- R310. A port inserts at least one IDLE flit per 4,096 flits. -/
  | idleInsert (port : PortId)
  /-- R347. A CREDIT frame reports freed credits after 16 credits or 256 ns. -/
  | credit (port : PortId)
  /-- R347. A CREDIT frame updates the sender's available credit. -/
  | creditReceive (port : PortId)
  /-- R351. A refused REQ HEAD is injected again 64 beats after the refusal. -/
  | reqReinject (p : Fin 256)
  /-- R323. A lane losing lock or 16 uncorrectable codewords starts a spare swap. -/
  | laneLost (port : PortId) (lane : Option (BitVec 2))
  /-- R323. A SWAP message on the spare frames asks the far end to steer in the spare. -/
  | swap (port : PortId) (lane : BitVec 2)
  /-- R323. A SWAP_ACK answers a SWAP and both ends steer the spare in. -/
  | swapAck (port : PortId) (lane : BitVec 2)
  /-- R323. FEC relocks on the spare and replay resumes. -/
  | spareRelock (port : PortId) (locked : Bool)
  /-- R324. A write swaps a lane onto the spare by hand. -/
  | swapRequest (w : DictWrite)
  /-- R355. A signpost write is checked and refused while a job is loaded unless gated. -/
  | signpost (entry : Fin 4096) (w : DictWrite)
  /-- R356. A non-zero mask holds new injections of the gated classes; 0 releases them. -/
  | gateClasses (w : DictWrite)
  /-- R356. No gated flit remains and GATE_STATE becomes 2. -/
  | gateDrained
  /-- R352. The Steward takes an MGT frame from its port buffer within 50 us. -/
  | stewardMgtTake (port : PortId)
  /-- R359. A port sends a HELLO when UP, on change and every HELLO_PERIOD_MS. -/
  | hello (port : PortId)
  /-- R361. A received HELLO is stored in NEIGHBOUR and may raise NEIGHBOUR_CHANGED. -/
  | helloReceive
  /-- R366. A non-root member sends a TIME request to its parent every 16 us. -/
  | timeRequest (frac : BitVec 4)
  /-- R366. The parent answers a TIME request within 2 us with T2 and T3. -/
  | timeResponse (frac : BitVec 4)
  /-- R367. The child computes offset and delay, trims and may become LOCKED. -/
  | timeResponseReceive
  /-- R369. After a catch-up the member steps its Milestone count by the offset. -/
  | timeStep
  /-- R368. A write of TRUE starts locking the Milestone counter to the time tree. -/
  | timeLock (w : DictWrite)
  /-- R372. A resync TIME frame sets the child's count and is passed to its children. -/
  | timeResync (frac : BitVec 4)
  /-- R373. An ANNOUNCE frame schedules an operating-point change at beat AT. -/
  | announce
  /-- R374. A write at the desk rank gates every member and runs rounds until drained. -/
  | jobGate (w : DictWrite)
  /-- R374. A GATE close frame applies the mask to the member's GATE_CLASSES. -/
  | gateClose
  /-- R374. A GATE report carries the count of gated flits up the tree. -/
  | gateReport
  /-- R374. A GATE open frame releases every member's gate. -/
  | gateOpen
  /-- R375. A port going down during a job excludes it and rewinds or stops the job. -/
  | portDown (port : PortId)
  /-- R400. At the decision beat the desk chooses a shape and launch beat. -/
  | launchDecision
  /-- R384. A follower reads its launch record when LAUNCH_BELL rises and launches at AT. -/
  | followerLaunch
  /-- R393. A submit, cancel or mask record arrives in the desk's inbox. -/
  | inboxRecord
  /-- R397. At a boundary the desk folds in the last step, applies records and commits tokens. -/
  | stepBoundary
  /-- R405. A Reckoner starts 3 beats after its LOGIT_BELL reaches STEP. -/
  | reckonerStart (tower : Fin 4)
  /-- R406. A Reckoner samples a column and writes PENDING 8 beats after it ends. -/
  | reckonerColumnDone (tower : Fin 4)
  /-- R428. A write of 1 starts a set-form load of the next generation. -/
  | weightLoadSet (w : DictWrite)
  /-- R434. A write of 2 starts an in-place load behind a closed barrier. -/
  | weightLoadInPlace (w : DictWrite)
  /-- R429. A write of TRUE arranges the switch to the loaded generation. -/
  | switch (w : DictWrite)
  /-- R433. A write of TRUE stops the desk from deciding launches. -/
  | barrierClose (w : DictWrite)
  /-- R433. A write of FALSE reopens the barrier. -/
  | barrierOpen (w : DictWrite)
  /-- R437. A write loads an adapter into the handle's idle slot or queues it. -/
  | adapterLoad (w : DictWrite)
  /-- R417. The loader starts the next queued request. -/
  | loaderRequestStart
  /-- R415. An NVMe Read completes into the landing buffer. -/
  | flashReadComplete (read : Fin 16) (ok : Bool) (data : List (BitVec 8))
  /-- R423. A pass-along frame is stored and forwarded down the chain. -/
  | passAlong
  /-- R425. A peer answers a shard request with data frames or not held. -/
  | shardRequest (image : Option PeerImage)
  /-- R416. A complete shard's digest is checked in the landing buffer. -/
  | shardLanded
  /-- R425. A shard not complete within SHARD_TIMEOUT_MS fails an attempt. -/
  | shardTimeout
  /-- R419. The loader writes a checked shard to its target in a permitted time. -/
  | loaderTargetWrite
  /-- R450. A contained transient fault records, sends HALT and halts the member. -/
  | faultRaise (found : Found)
  /-- R451. A received HALT of a rewind halts the member and is forwarded. -/
  | halt (again : Bool)
  /-- R452. At RESUME every member resumes from the restored state. -/
  | rewindResume
  /-- R442. A job-fatal error floods a job-stop HALT and sets LOAD_STATE 8. -/
  | jobFatalStop
  /-- R442. A received job-stop HALT stops the member. -/
  | jobStopReceive
  /-- R443. A module-fatal error stops the module; a second one quiets it. -/
  | moduleFatal (index : BitVec 24)
  /-- R477. A READ returns an object's value taken at one beat. -/
  | dictRead (a : DictAsk)
  /-- R476. An INFO request returns an object's description. -/
  | dictInfo (a : DictAsk)
  /-- R484. A WRITE to an object with no row of its own is checked and applied. -/
  | dictWrite (index : BitVec 16) (sub : BitVec 8) (w : DictWrite)
  /-- R475. A request with a reserved opcode is answered ACCESS_DENIED. -/
  | dictReservedOpcode (opcode : BitVec 8) (a : DictAsk) (value : List (BitVec 8))
  /-- R486. A pending write's COMPLETE is sent when its operation ends. -/
  | complete
  /-- R490. The desk rank repeats an unanswered Eothar request after 10 ms. -/
  | eotharDictRepeat
  /-- R458. A write marks halls disabled for later loads, with BIST bits ORed in. -/
  | hallsOff (w : DictWrite)
  /-- R503. An INIT exchange resumes or freshly starts the Kloder link. -/
  | kloderInit (groups : BitVec 2) (body : List (BitVec 8))
  /-- R500. A Kloder frame is accepted or discarded with NAK or ASEQ report. -/
  | kloderFrameReceive (frame : KloderFrame) (fec : Fec)
  /-- R501. A NAK replays the channel from the named SEQ. -/
  | kloderNak (channel : KloderChannel) (seq : BitVec 32)
  /-- R501. A frame unacknowledged for 10 us replays its channel. -/
  | kloderReplayTimeout (channel : KloderChannel)
  /-- R500. A further Kloder NAK is sent after 2 us. -/
  | kloderNakRepeat (channel : KloderChannel)
  /-- R501. A SEQ sent 16 times takes the link down to retrain. -/
  | kloderRetrain
  /-- R495. A lost FEC group leaves the link at half rate and retrains. -/
  | kloderGroupLoss (group : Bool)
  /-- R504. A KIND 1 segment writes the staging area. -/
  | bulkStaging
  /-- R504. A KIND 2 segment feeds the loader. -/
  | bulkWeightStream
  /-- R504. A KIND 3 segment is gathered into NVMe Writes. -/
  | bulkFlashWrite
  /-- R504. A KIND 4 segment issues a Flush. -/
  | bulkFlashFlush
  /-- R519. A KIND 5 segment places firmware in Steward SRAM. -/
  | bulkFirmware
  /-- R505. A reserved KIND segment completes with RANGE. -/
  | bulkReserved
  /-- R508. The Steward numbers an event, logs it and sends it on EVENT. -/
  | event
  /-- R506. Queued acknowledgement and token records leave in order. -/
  | outboundSend
  /-- R514. Power-on reset is released when supply, regulators, RST_N and clocks allow. -/
  | powerOnResetRelease (good : PowerGood)
  /-- R535. RST_N held low for 10 us begins a cold boot. -/
  | rstN (ns : BitVec 32)
  /-- R513. A write of TRUE quiets the outputs and begins a cold boot. -/
  | moduleReset (w : DictWrite)
  /-- R524. The firmware derives the identity key and sets IDENTITY_STATE. -/
  | identityDerive
  /-- R481. The dictionary opens after the phase 4 tests. -/
  | dictionaryOpen (failed : BitVec 192)
  /-- R516. Bring-up ends, the Milestone counter reads 0 and BOOT_STATE sets READY. -/
  | bringupEnd (us : BitVec 32) (f0 : F0Init) (f1 : F0Init)
  /-- R518. A Steward SRAM or stack failure stops the module. -/
  | bringupFailure (stack : Bool)
  /-- R522. A write installs the program key. -/
  | programKey (w : DictWrite)
  /-- R522. A write installs the weight key. -/
  | weightKey (w : DictWrite)
  /-- R526. A write captures and signs an attestation report. -/
  | attestNonce (w : DictWrite)
  /-- R527. The signed report is written and its COMPLETE sent. -/
  | attestReportDone
  /-- R528. A write blows the debug-close fuse. -/
  | fuseBlowDebugClose (w : DictWrite)
  /-- R528. A write blows the test-close fuse. -/
  | fuseBlowTestClose (w : DictWrite)
  /-- R529. Fuse programming ends and the close effects begin. -/
  | fuseProgrammed
  /-- R540. EXTEST takes the lands and stops the module's links. -/
  | extest (scan : BoundaryScan)
  /-- R539. IDCODE selects the device identification register. -/
  | idcode
  /-- R540. SAMPLE/PRELOAD selects the boundary-scan register without disturbing the module. -/
  | samplePreload (scan : BoundaryScan)
  /-- R540. HIGHZ places drivers in high impedance and takes the lands. -/
  | highz
  /-- R540. CLAMP holds the outputs and selects bypass. -/
  | clamp
  /-- R541. EXTEST_PULSE drives AC test pulses on the high-speed lanes. -/
  | extestPulse (scan : BoundaryScan)
  /-- R541. EXTEST_TRAIN drives AC pulse trains on the high-speed lanes. -/
  | extestTrain (scan : BoundaryScan)
  /-- R538. BYPASS selects the bypass register. -/
  | bypass
  /-- R538. A private or unlisted opcode acts as test-only or selects bypass. -/
  | tapPrivate (opcode : BitVec 8)
  /-- R540. Leaving a land-taking instruction begins a cold boot. -/
  | tapLeaveExtest
  /-- R488. The I3C target answers an MCTP control command such as Set Endpoint ID, which sets 8200.02 MCTP_EID. -/
  | mctpControlCommand (type : BitVec 8) (data : List (BitVec 8))
  /-- R488. The I3C controller assigns the target a dynamic address, which 8200.03 I3C_ADDRESS reports. -/
  | i3cDynamicAddress (address : BitVec 7)
  /-- R415. The F0 PCIe link goes down, or trains in non-FLIT mode and is held down with PERST low, which ends the fetch of the shard concerned. -/
  | f0LinkDown (ctrl : Bool) (next : Option F0Init)
  /-- R504. An NVMe Write or Flush issued for KIND 3 and KIND 4 segments completes, and the Flush's completion record is sent. -/
  | flashWriteComplete (command : Fin 256) (ok : Bool)
  /-- R414. An inbound memory request from the flash endpoint is served in the landing or queue window, or else completes as Unsupported Request. -/
  | pcieInboundRequest (req : PcieRequest)
deriving DecidableEq, Repr

end Sys2Proof
end

