-- ==== Sys2Proof/Decode.lean ====
section
/-! DEFINITION. The 64-bit command and instruction words of the cores (Tables 3.3 to 3.7, 4.2, 4.3), as
fields to words and words to fields, and `decodeTableWord`: spec/opcode_table.json gives no row any bits, so
no table word spells a command. -/

namespace Sys2Proof

/-- The command that a word of the opcode table spells. No row of spec/opcode_table.json has bits. -/
def decodeTableWord (_nbits _w : Nat) : Option Instr := none

/-- One bit as a Bool. -/
def bitAt (w : BitVec 64) (k : Nat) : Bool := w.getLsbD k

/-! ### Matrix-core command words -/

/-- The defined opcodes of Table 3.3. -/
def matrixOpDefined (op : BitVec 6) : Bool :=
  decide (op.toNat ≤ 8) || decide (16 ≤ op.toNat ∧ op.toNat ≤ 20)

/-- The word of a matrix-core command, reserved fields written 0. -/
def matrixWord : Instr → Option W64
  | .mcNop _ => some (0x00#6 ++ 0#58)
  | .mcEnd _ => some (0x01#6 ++ 0#58)
  | .mcLoop _ a => some (0x02#6 ++ a.count ++ a.body ++ 0#22)
  | .mcWait _ a => some (0x03#6 ++ a.bell ++ a.wreg ++ a.step ++ 0#25)
  | .mcSignal _ a => some (0x04#6 ++ a.bell ++ a.inc ++ 0#29)
  | .mcSeta _ a => some (0x05#6 ++ a.areg ++ a.step ++ a.base ++ 0#15)
  | .mcSetw _ a => some (0x06#6 ++ a.wreg ++ a.value ++ 0#6)
  | .mcSetr _ a => some (0x07#6 ++ a.sel ++ a.value ++ 0#18)
  | .mcSetkeys _ a => some (0x08#6 ++ a.areg ++ BitVec.ofBool a.ainc ++ 0#54)
  | .mcLoadw _ a => some (0x10#6 ++ BitVec.ofBool a.slot ++ BitVec.ofBool a.src ++ a.wfmt ++ a.areg
      ++ BitVec.ofBool a.ainc ++ a.sreg ++ BitVec.ofBool a.sinc ++ a.handle ++ BitVec.ofBool a.xpose
      ++ a.rstride ++ 0#23)
  | .mcAcc _ a => some (0x11#6 ++ BitVec.ofBool a.slot ++ BitVec.ofBool a.orient ++ a.afmt ++ a.areg
      ++ BitVec.ofBool a.ainc ++ a.sreg ++ BitVec.ofBool a.sinc ++ a.bank ++ a.col0 ++ a.ncol
      ++ BitVec.ofBool a.clear ++ BitVec.ofBool a.auto ++ a.anchor ++ 0#16)
  | .mcDrain _ a => some (0x12#6 ++ a.bank ++ a.ofmt ++ a.rnd ++ a.row0q ++ a.nrowq ++ a.col0 ++ a.ncol
      ++ a.outShift ++ BitVec.ofBool a.clr ++ BitVec.ofBool a.stclr ++ BitVec.ofBool a.last ++ a.tag ++ 0#5)
  | .mcClear _ bank => some (0x13#6 ++ bank ++ 0#56)
  | .mcStatus _ m => some (0x14#6 ++ m ++ 0#50)
  | .mcReservedOpcode _ op => some (op ++ 0#58)
  | _ => none

/-- The command that core `c` reads from a word (Tables 3.3 to 3.7); total, a reserved opcode included. -/
def decodeMatrix (c : MCoreId) (w : W64) : Instr :=
  match (w.extractLsb' 58 6).toNat with
  | 0x00 => .mcNop c
  | 0x01 => .mcEnd c
  | 0x02 => .mcLoop c ⟨w.extractLsb' 34 24, w.extractLsb' 22 12⟩
  | 0x03 => .mcWait c ⟨w.extractLsb' 45 13, w.extractLsb' 41 4, w.extractLsb' 25 16⟩
  | 0x04 => .mcSignal c ⟨w.extractLsb' 45 13, w.extractLsb' 29 16⟩
  | 0x05 => .mcSeta c ⟨w.extractLsb' 55 3, w.extractLsb' 39 16, w.extractLsb' 15 24⟩
  | 0x06 => .mcSetw c ⟨w.extractLsb' 54 4, w.extractLsb' 6 48⟩
  | 0x07 => .mcSetr c ⟨w.extractLsb' 50 8, w.extractLsb' 18 32⟩
  | 0x08 => .mcSetkeys c ⟨w.extractLsb' 55 3, bitAt w 54⟩
  | 0x10 => .mcLoadw c ⟨bitAt w 57, bitAt w 56, w.extractLsb' 52 4, w.extractLsb' 49 3, bitAt w 48,
      w.extractLsb' 45 3, bitAt w 44, w.extractLsb' 32 12, bitAt w 31, w.extractLsb' 23 8⟩
  | 0x11 => .mcAcc c ⟨bitAt w 57, bitAt w 56, w.extractLsb' 52 4, w.extractLsb' 49 3, bitAt w 48,
      w.extractLsb' 45 3, bitAt w 44, w.extractLsb' 42 2, w.extractLsb' 35 7, w.extractLsb' 28 7,
      bitAt w 27, bitAt w 26, w.extractLsb' 16 10⟩
  | 0x12 => .mcDrain c ⟨w.extractLsb' 56 2, w.extractLsb' 52 4, w.extractLsb' 50 2, w.extractLsb' 48 2,
      w.extractLsb' 46 2, w.extractLsb' 39 7, w.extractLsb' 32 7, w.extractLsb' 24 8, bitAt w 23,
      bitAt w 22, bitAt w 21, w.extractLsb' 5 16⟩
  | 0x13 => .mcClear c (w.extractLsb' 56 2)
  | 0x14 => .mcStatus c (w.extractLsb' 50 8)
  | _ => .mcReservedOpcode c (w.extractLsb' 58 6)

/-! ### Vector-core instruction words -/

/-- Format R of Table 4.2. -/
def packR (op : BitVec 8) (a : RArgs) : W64 :=
  op ++ a.pred ++ BitVec.ofBool a.zero ++ a.form ++ a.vd ++ a.va ++ a.vb ++ a.vc ++ a.md ++ 0#16

def unpackR (w : W64) : RArgs :=
  ⟨w.extractLsb' 53 3, bitAt w 52, w.extractLsb' 50 2, w.extractLsb' 44 6, w.extractLsb' 38 6,
    w.extractLsb' 32 6, w.extractLsb' 26 6, w.extractLsb' 16 10⟩

/-- Format I. -/
def packI (op : BitVec 8) (a : IArgs) : W64 :=
  op ++ a.pred ++ BitVec.ofBool a.zero ++ a.form ++ a.vd ++ a.va ++ 0#6 ++ a.imm

def unpackI (w : W64) : IArgs :=
  ⟨w.extractLsb' 53 3, bitAt w 52, w.extractLsb' 50 2, w.extractLsb' 44 6, w.extractLsb' 38 6,
    w.extractLsb' 0 32⟩

/-- Format M; bits [51:50] and [26:24] are reserved. -/
def packM (op : BitVec 8) (a : MArgs) : W64 :=
  op ++ a.pred ++ BitVec.ofBool a.zero ++ 0#2 ++ a.vd ++ a.sa ++ a.handle ++ 0#3 ++ a.offset

def unpackM (w : W64) : MArgs :=
  ⟨w.extractLsb' 53 3, bitAt w 52, w.extractLsb' 44 6, w.extractLsb' 39 5, w.extractLsb' 27 12,
    w.extractLsb' 0 24⟩

/-- Format S. -/
def packS (op : BitVec 8) (a : SArgs) : W64 :=
  op ++ a.sd ++ a.sa ++ a.sb ++ BitVec.ofBool a.uimm ++ 0#8 ++ a.imm

def unpackS (w : W64) : SArgs :=
  ⟨w.extractLsb' 51 5, w.extractLsb' 46 5, w.extractLsb' 41 5, bitAt w 40, w.extractLsb' 0 32⟩

/-- Format B. -/
def packB (op : BitVec 8) (a : BArgs) : W64 :=
  op ++ a.cond ++ a.sa ++ a.sb ++ 0#18 ++ a.offset

def unpackB (w : W64) : BArgs :=
  ⟨w.extractLsb' 52 4, w.extractLsb' 47 5, w.extractLsb' 42 5, w.extractLsb' 0 24⟩

/-- Format C. -/
def packC (op : BitVec 8) (a : CArgs) : W64 :=
  op ++ a.sd ++ a.sa ++ a.bell ++ a.post ++ BitVec.ofBool a.q ++ 0#3 ++ a.imm

def unpackC (w : W64) : CArgs :=
  ⟨w.extractLsb' 51 5, w.extractLsb' 46 5, w.extractLsb' 33 13, w.extractLsb' 28 5, bitAt w 27,
    w.extractLsb' 0 24⟩

/-- Format X. -/
def packX (op : BitVec 8) (a : XArgs) : W64 :=
  op ++ a.pred ++ BitVec.ofBool a.zero ++ a.esd ++ a.esa ++ a.va ++ a.vb ++ a.anchor
    ++ BitVec.ofBool a.auto ++ BitVec.ofBool a.pair ++ a.outShift ++ a.rnd ++ a.group
    ++ BitVec.ofBool a.ofmt ++ a.sk ++ 0#2

def unpackX (w : W64) : XArgs :=
  ⟨w.extractLsb' 53 3, bitAt w 52, w.extractLsb' 49 3, w.extractLsb' 46 3, w.extractLsb' 40 6,
    w.extractLsb' 34 6, w.extractLsb' 24 10, bitAt w 23, bitAt w 22, w.extractLsb' 14 8,
    w.extractLsb' 12 2, w.extractLsb' 8 4, bitAt w 7, w.extractLsb' 2 5⟩

/-- The word of a vector-core instruction (Table 4.3), reserved fields written 0. -/
def vectorWord : Instr → Option W64
  | .vcNop _ => some (0x00#8 ++ 0#56)
  | .vcEnd _ => some (0x01#8 ++ 0#56)
  | .br _ a => some (packB 0x02#8 a)
  | .brp _ a => some (packB 0x03#8 a)
  | .mark _ a => some (packC 0x04#8 a)
  | .pace _ a => some (packC 0x05#8 a)
  | .vcWait _ a => some (packC 0x06#8 a)
  | .vcSignal _ a => some (packC 0x07#8 a)
  | .desc _ a => some (packC 0x08#8 a)
  | .psend _ a => some (packC 0x09#8 a)
  | .precv _ a => some (packC 0x0A#8 a)
  | .vcStatus _ a => some (packC 0x0B#8 a)
  | .twait _ a => some (packC 0x0C#8 a)
  | .trel _ a => some (packC 0x0D#8 a)
  | .sadd _ a => some (packS 0x10#8 a)
  | .ssub _ a => some (packS 0x11#8 a)
  | .sand _ a => some (packS 0x12#8 a)
  | .sor _ a => some (packS 0x13#8 a)
  | .sxor _ a => some (packS 0x14#8 a)
  | .sshl _ a => some (packS 0x15#8 a)
  | .sshr _ a => some (packS 0x16#8 a)
  | .ssra _ a => some (packS 0x17#8 a)
  | .smul _ a => some (packS 0x18#8 a)
  | .sli _ a => some (packS 0x19#8 a)
  | .slih _ a => some (packS 0x1A#8 a)
  | .sld _ a => some (packM 0x1B#8 a)
  | .sst _ a => some (packM 0x1C#8 a)
  | .iadd _ a => some (packR 0x20#8 a)
  | .iadds _ a => some (packR 0x21#8 a)
  | .iaddu _ a => some (packR 0x22#8 a)
  | .isub _ a => some (packR 0x23#8 a)
  | .isubs _ a => some (packR 0x24#8 a)
  | .isubu _ a => some (packR 0x25#8 a)
  | .imul _ a => some (packR 0x26#8 a)
  | .imulh _ a => some (packR 0x27#8 a)
  | .imin _ a => some (packR 0x28#8 a)
  | .imax _ a => some (packR 0x29#8 a)
  | .iabs _ a => some (packR 0x2A#8 a)
  | .ishl _ a => some (packR 0x2B#8 a)
  | .ishr _ a => some (packR 0x2C#8 a)
  | .isra _ a => some (packR 0x2D#8 a)
  | .vand _ a => some (packR 0x30#8 a)
  | .vor _ a => some (packR 0x31#8 a)
  | .vxor _ a => some (packR 0x32#8 a)
  | .vnot _ a => some (packR 0x33#8 a)
  | .vsel _ a => some (packR 0x34#8 a)
  | .vmov _ a => some (packR 0x35#8 a)
  | .vbcs _ a => some (packR 0x36#8 a)
  | .vli _ a => some (packI 0x37#8 a)
  | .viota _ a => some (packR 0x38#8 a)
  | .vperm _ a => some (packR 0x39#8 a)
  | .vtos _ a => some (packR 0x3A#8 a)
  | .vsetl _ a => some (packR 0x3B#8 a)
  | .icmp _ a => some (packR 0x40#8 a)
  | .fcmp _ a => some (packR 0x41#8 a)
  | .pand _ a => some (packR 0x42#8 a)
  | .por _ a => some (packR 0x43#8 a)
  | .pxor _ a => some (packR 0x44#8 a)
  | .pnot _ a => some (packR 0x45#8 a)
  | .pfirst _ a => some (packR 0x46#8 a)
  | .pcnt _ a => some (packR 0x47#8 a)
  | .fadd _ a => some (packR 0x50#8 a)
  | .fsub _ a => some (packR 0x51#8 a)
  | .fmul _ a => some (packR 0x52#8 a)
  | .fma _ a => some (packR 0x53#8 a)
  | .fnms _ a => some (packR 0x54#8 a)
  | .fmin _ a => some (packR 0x55#8 a)
  | .fmax _ a => some (packR 0x56#8 a)
  | .fabs _ a => some (packR 0x57#8 a)
  | .fneg _ a => some (packR 0x58#8 a)
  | .fscale _ a => some (packR 0x59#8 a)
  | .frint _ a => some (packR 0x5A#8 a)
  | .fredmax _ a => some (packR 0x5B#8 a)
  | .fredmin _ a => some (packR 0x5C#8 a)
  | .cvtif _ a => some (packR 0x60#8 a)
  | .cvtfi _ a => some (packR 0x61#8 a)
  | .cvtfb _ a => some (packR 0x62#8 a)
  | .cvtfh _ a => some (packR 0x63#8 a)
  | .cvtbf _ a => some (packR 0x64#8 a)
  | .cvthf _ a => some (packR 0x65#8 a)
  | .cvtf8 _ a => some (packR 0x66#8 a)
  | .cvt8f _ a => some (packR 0x67#8 a)
  | .mxpack _ a => some (packR 0x68#8 a)
  | .mxunpk _ a => some (packR 0x69#8 a)
  | .inarrow _ a => some (packR 0x6A#8 a)
  | .iwiden _ a => some (packR 0x6B#8 a)
  | .exp2 _ a => some (packR 0x70#8 a)
  | .log2 _ a => some (packR 0x71#8 a)
  | .tanh _ a => some (packR 0x72#8 a)
  | .sigm _ a => some (packR 0x73#8 a)
  | .rcp _ a => some (packR 0x74#8 a)
  | .rsqrt _ a => some (packR 0x75#8 a)
  | .vld _ a => some (packM 0x80#8 a)
  | .vst _ a => some (packM 0x81#8 a)
  | .lld _ a => some (packM 0x82#8 a)
  | .lst _ a => some (packM 0x83#8 a)
  | .tld _ a => some (packM 0x84#8 a)
  | .xclr _ a => some (packX 0x90#8 a)
  | .xadd _ a => some (packX 0x91#8 a)
  | .xmac _ a => some (packX 0x92#8 a)
  | .xrec _ a => some (packX 0x93#8 a)
  | .xfold _ a => some (packX 0x94#8 a)
  | .xdrain _ a => some (packX 0x95#8 a)
  | .xout _ a => some (packX 0x96#8 a)
  | .vcReservedOpcode _ op => some (op ++ 0#56)
  | _ => none

/-- The instruction that the vector core of hall `h` reads from a word; total, a reserved opcode included.
Bits [38:28] of TLD are reserved, so only bit [27] of its HANDLE field is read. -/
def decodeVector (h : HallId) (w : W64) : Instr :=
  match (w.extractLsb' 56 8).toNat with
  | 0x00 => .vcNop h
  | 0x01 => .vcEnd h
  | 0x02 => .br h (unpackB w)
  | 0x03 => .brp h (unpackB w)
  | 0x04 => .mark h (unpackC w)
  | 0x05 => .pace h (unpackC w)
  | 0x06 => .vcWait h (unpackC w)
  | 0x07 => .vcSignal h (unpackC w)
  | 0x08 => .desc h (unpackC w)
  | 0x09 => .psend h (unpackC w)
  | 0x0A => .precv h (unpackC w)
  | 0x0B => .vcStatus h (unpackC w)
  | 0x0C => .twait h (unpackC w)
  | 0x0D => .trel h (unpackC w)
  | 0x10 => .sadd h (unpackS w)
  | 0x11 => .ssub h (unpackS w)
  | 0x12 => .sand h (unpackS w)
  | 0x13 => .sor h (unpackS w)
  | 0x14 => .sxor h (unpackS w)
  | 0x15 => .sshl h (unpackS w)
  | 0x16 => .sshr h (unpackS w)
  | 0x17 => .ssra h (unpackS w)
  | 0x18 => .smul h (unpackS w)
  | 0x19 => .sli h (unpackS w)
  | 0x1A => .slih h (unpackS w)
  | 0x1B => .sld h (unpackM w)
  | 0x1C => .sst h (unpackM w)
  | 0x20 => .iadd h (unpackR w)
  | 0x21 => .iadds h (unpackR w)
  | 0x22 => .iaddu h (unpackR w)
  | 0x23 => .isub h (unpackR w)
  | 0x24 => .isubs h (unpackR w)
  | 0x25 => .isubu h (unpackR w)
  | 0x26 => .imul h (unpackR w)
  | 0x27 => .imulh h (unpackR w)
  | 0x28 => .imin h (unpackR w)
  | 0x29 => .imax h (unpackR w)
  | 0x2A => .iabs h (unpackR w)
  | 0x2B => .ishl h (unpackR w)
  | 0x2C => .ishr h (unpackR w)
  | 0x2D => .isra h (unpackR w)
  | 0x30 => .vand h (unpackR w)
  | 0x31 => .vor h (unpackR w)
  | 0x32 => .vxor h (unpackR w)
  | 0x33 => .vnot h (unpackR w)
  | 0x34 => .vsel h (unpackR w)
  | 0x35 => .vmov h (unpackR w)
  | 0x36 => .vbcs h (unpackR w)
  | 0x37 => .vli h (unpackI w)
  | 0x38 => .viota h (unpackR w)
  | 0x39 => .vperm h (unpackR w)
  | 0x3A => .vtos h (unpackR w)
  | 0x3B => .vsetl h (unpackR w)
  | 0x40 => .icmp h (unpackR w)
  | 0x41 => .fcmp h (unpackR w)
  | 0x42 => .pand h (unpackR w)
  | 0x43 => .por h (unpackR w)
  | 0x44 => .pxor h (unpackR w)
  | 0x45 => .pnot h (unpackR w)
  | 0x46 => .pfirst h (unpackR w)
  | 0x47 => .pcnt h (unpackR w)
  | 0x50 => .fadd h (unpackR w)
  | 0x51 => .fsub h (unpackR w)
  | 0x52 => .fmul h (unpackR w)
  | 0x53 => .fma h (unpackR w)
  | 0x54 => .fnms h (unpackR w)
  | 0x55 => .fmin h (unpackR w)
  | 0x56 => .fmax h (unpackR w)
  | 0x57 => .fabs h (unpackR w)
  | 0x58 => .fneg h (unpackR w)
  | 0x59 => .fscale h (unpackR w)
  | 0x5A => .frint h (unpackR w)
  | 0x5B => .fredmax h (unpackR w)
  | 0x5C => .fredmin h (unpackR w)
  | 0x60 => .cvtif h (unpackR w)
  | 0x61 => .cvtfi h (unpackR w)
  | 0x62 => .cvtfb h (unpackR w)
  | 0x63 => .cvtfh h (unpackR w)
  | 0x64 => .cvtbf h (unpackR w)
  | 0x65 => .cvthf h (unpackR w)
  | 0x66 => .cvtf8 h (unpackR w)
  | 0x67 => .cvt8f h (unpackR w)
  | 0x68 => .mxpack h (unpackR w)
  | 0x69 => .mxunpk h (unpackR w)
  | 0x6A => .inarrow h (unpackR w)
  | 0x6B => .iwiden h (unpackR w)
  | 0x70 => .exp2 h (unpackR w)
  | 0x71 => .log2 h (unpackR w)
  | 0x72 => .tanh h (unpackR w)
  | 0x73 => .sigm h (unpackR w)
  | 0x74 => .rcp h (unpackR w)
  | 0x75 => .rsqrt h (unpackR w)
  | 0x80 => .vld h (unpackM w)
  | 0x81 => .vst h (unpackM w)
  | 0x82 => .lld h (unpackM w)
  | 0x83 => .lst h (unpackM w)
  | 0x84 => .tld h { unpackM w with handle := (unpackM w).handle &&& 1#12 }
  | 0x90 => .xclr h (unpackX w)
  | 0x91 => .xadd h (unpackX w)
  | 0x92 => .xmac h (unpackX w)
  | 0x93 => .xrec h (unpackX w)
  | 0x94 => .xfold h (unpackX w)
  | 0x95 => .xdrain h (unpackX w)
  | 0x96 => .xout h (unpackX w)
  | _ => .vcReservedOpcode h (w.extractLsb' 56 8)

/-- The defined opcodes of Table 4.3. -/
def vectorOpDefined (op : BitVec 8) : Bool :=
  decide (0 ≤ op.toNat ∧ op.toNat ≤ 13)
    || decide (16 ≤ op.toNat ∧ op.toNat ≤ 28)
    || decide (32 ≤ op.toNat ∧ op.toNat ≤ 45)
    || decide (48 ≤ op.toNat ∧ op.toNat ≤ 59)
    || decide (64 ≤ op.toNat ∧ op.toNat ≤ 71)
    || decide (80 ≤ op.toNat ∧ op.toNat ≤ 92)
    || decide (96 ≤ op.toNat ∧ op.toNat ≤ 107)
    || decide (112 ≤ op.toNat ∧ op.toNat ≤ 117)
    || decide (128 ≤ op.toNat ∧ op.toNat ≤ 132)
    || decide (144 ≤ op.toNat ∧ op.toNat ≤ 150)

end Sys2Proof
end

