-- ==== Sys2Proof/Machine/Maps.lean ====
section
/-! DEFINITION. Sparse maps in one canonical form (keys strictly rising, no entry that equals what an
unlisted key reads as), and byte memories as the case in which an unlisted byte reads 0. -/

namespace Sys2Proof.Machine

/-- A map from Nat keys, listed in rising key order. -/
abbrev SMap (V : Type) := List (Nat × V)

/-- What the key reads as; an unlisted key reads as the default `d`. -/
def SMap.get {V : Type} (d : V) : SMap V → Nat → V
  | [], _ => d
  | (k', v) :: m, k => if k = k' then v else SMap.get d m k

/-- Remove a key. -/
def SMap.erase {V : Type} (m : SMap V) (k : Nat) : SMap V := m.filter fun e => decide (e.1 ≠ k)

/-- List a key with a value, in key order. -/
def SMap.put {V : Type} : SMap V → Nat → V → SMap V
  | [], k, v => [(k, v)]
  | (k', v') :: m, k, v =>
    if k < k' then (k, v) :: (k', v') :: m
    else if k = k' then (k, v) :: m
    else (k', v') :: SMap.put m k v

/-- Write a key: writing the default removes the entry, so that equal maps are equal data. -/
def SMap.set {V : Type} [DecidableEq V] (d : V) (m : SMap V) (k : Nat) (v : V) : SMap V :=
  if v = d then SMap.erase m k else SMap.put m k v

/-- Update one key. -/
def SMap.modify {V : Type} [DecidableEq V] (d : V) (m : SMap V) (k : Nat) (f : V → V) : SMap V :=
  SMap.set d m k (f (SMap.get d m k))

/-- Change every listed value, in canonical form; only for an `f` that keeps the default. -/
def SMap.mapV {V : Type} [DecidableEq V] (d : V) (m : SMap V) (f : V → V) : SMap V :=
  (m.map fun e => (e.1, f e.2)).filter fun e => decide (e.2 ≠ d)

/-- Every key of `m` is above `k`. -/
def SMap.above {V : Type} (k : Nat) (m : SMap V) : Bool := m.all fun e => decide (k < e.1)

/-- The canonical form. -/
def SMap.wf {V : Type} [DecidableEq V] (d : V) : SMap V → Bool
  | [] => true
  | (k, v) :: m => decide (v ≠ d) && SMap.above k m && SMap.wf d m

/-- A byte memory: address and byte, strictly rising, no 0 byte listed. -/
abbrev Memory := List Host.Cell

/-- The byte at an address. An unlisted address reads 0 (spec/05 R145, spec/06 R189; elsewhere the
assumption log, row 2). -/
def Memory.read (m : Memory) (a : Nat) : Byte := SMap.get 0#8 m a

def Memory.write (m : Memory) (a : Nat) (b : Byte) : Memory := SMap.set 0#8 m a b

/-- The canonical form of a byte memory. -/
def Memory.wf (m : Memory) : Bool := SMap.wf 0#8 m

/-- `n` bytes from `a`, as a little-endian number (R5). -/
def Memory.readLE (m : Memory) (a : Nat) : Nat → Nat
  | 0 => 0
  | n + 1 => (m.read a).toNat + 256 * Memory.readLE m (a + 1) n

/-- `n` bytes from `a`, in address order. -/
def Memory.readBytes (m : Memory) (a : Nat) : Nat → List Byte
  | 0 => []
  | n + 1 => m.read a :: Memory.readBytes m (a + 1) n

/-- The low `n` bytes of `v`, little-endian. -/
def bytesLE (v : Nat) : Nat → List Byte
  | 0 => []
  | n + 1 => BitVec.ofNat 8 v :: bytesLE (v / 256) n

/-- The number that a byte list spells, little-endian. -/
def numLE : List Byte → Nat
  | [] => 0
  | b :: bs => b.toNat + 256 * numLE bs

/-- Store bytes at `a` onwards. -/
def Memory.writeBytes (m : Memory) (a : Nat) : List Byte → Memory
  | [] => m
  | b :: bs => Memory.writeBytes (m.write a b) (a + 1) bs

/-- Store the low `n` bytes of `v`, little-endian. -/
def Memory.writeLE (m : Memory) (a n v : Nat) : Memory := m.writeBytes a (bytesLE v n)

/-- The `n` bytes from `a`, as a memory of their own that begins at address 0. -/
def Memory.window : Memory → Nat → Nat → Memory
  | [], _, _ => []
  | (k, b) :: m, a, n =>
    if a ≤ k ∧ k < a + n then (k - a, b) :: Memory.window m a n else Memory.window m a n

/-- The canonical form of a list of bytes: at each address the first one listed, in rising order, without the 0 bytes. -/
def Memory.canon (m : Memory) : Memory := m.foldr (fun e w => w.write e.1 e.2) []

/-- Store a whole window of `n` bytes at `a`. -/
def Memory.place (m : Memory) (a n : Nat) (w : Memory) : Memory :=
  (m.filter fun e => decide (e.1 < a))
    ++ (w.filter fun e => decide (e.1 < n)).map (fun e => (a + e.1, e.2))
    ++ (m.filter fun e => decide (a + n ≤ e.1))

end Sys2Proof.Machine
end

