-- ==== Sys2Proof/Machine/Numeric.lean ====
section
/-! DEFINITION. Number formats, the anchored accumulator and the drain (spec/02). -/

namespace Sys2Proof.Machine

/-- An exact decoded element: NaN, an infinity, or the real value `m * 2^e`. -/
inductive Val where
  | nan
  | inf (neg : Bool)
  | fin (m e : Int)
deriving DecidableEq, Repr

/-- The exact real value `m * 2^e`. -/
structure Dy where
  m : Int
  e : Int
deriving DecidableEq, Repr

/-- How a float format spells its exceptions (Table 2.2, Inf and NaN columns). -/
inductive Special where
  | ieee | nanOnly | none
deriving DecidableEq, Repr

/-- One row of Table 2.2: exponent bits, fraction bits, bias, exceptions, and the encoding of the
largest finite value. -/
structure FloatFmt where
  eBits : Nat
  m : Nat
  bias : Nat
  special : Special
  maxCode : Nat
deriving DecidableEq, Repr

def fmtFP32 : FloatFmt := ⟨8, 23, 127, .ieee, 0x7F7FFFFF⟩
def fmtBF16 : FloatFmt := ⟨8, 7, 127, .ieee, 0x7F7F⟩
def fmtFP16 : FloatFmt := ⟨5, 10, 15, .ieee, 0x7BFF⟩
def fmtE5M2 : FloatFmt := ⟨5, 2, 15, .ieee, 0x7B⟩
def fmtE4M3 : FloatFmt := ⟨4, 3, 7, .nanOnly, 0x7E⟩
def fmtE3M2 : FloatFmt := ⟨3, 2, 3, .none, 0x1F⟩
def fmtE2M3 : FloatFmt := ⟨2, 3, 1, .none, 0x1F⟩
def fmtE2M1 : FloatFmt := ⟨2, 1, 1, .none, 0x7⟩

/-- R40, with the exceptions of Table 2.2. -/
def decodeFloat (f : FloatFmt) (w : Nat) : Val :=
  let frac := w % 2 ^ f.m
  let ex := w / 2 ^ f.m % 2 ^ f.eBits
  let neg := w / 2 ^ (f.m + f.eBits) % 2 = 1
  let sgn : Int := if neg then -1 else 1
  let top := ex = 2 ^ f.eBits - 1
  if f.special = .ieee ∧ top then (if frac = 0 then .inf neg else .nan)
  else if f.special = .nanOnly ∧ top ∧ frac = 2 ^ f.m - 1 then .nan
  else if ex = 0 then .fin (sgn * frac) (1 - f.bias - f.m)
  else .fin (sgn * (2 ^ f.m + frac)) ((ex : Int) - f.bias - f.m)

/-- The two's-complement value of the low `n` bits. -/
def signedOf (n w : Nat) : Int :=
  let v := w % 2 ^ n
  if v < 2 ^ (n - 1) then v else (v : Int) - 2 ^ n

/-- The format codes of Table 2.1, as 4-bit numbers. -/
abbrev Fmt := BitVec 4

def Fmt.isMx (f : Fmt) : Bool := 5 ≤ f.toNat && f.toNat ≤ 10

/-- The array accepts the code as a source (Table 2.1). -/
def Fmt.arraySource (f : Fmt) : Bool := f == 0#4 || f == 1#4 || f == 3#4 || f.isMx

/-- Reserved codes 0xC to 0xF (Table 2.1). -/
def Fmt.reserved (f : Fmt) : Bool := decide (12 ≤ f.toNat)

/-- Element bits of a format (Table 2.1); a reserved code has none and reads as 8 (R543). -/
def Fmt.bits (f : Fmt) : Nat :=
  match f.toNat with
  | 0 => 16 | 1 => 16 | 2 => 32 | 3 => 8 | 4 => 32 | 5 => 8 | 6 => 8 | 7 => 6 | 8 => 6 | 9 => 4
  | 10 => 8 | 11 => 256 | _ => 8

/-- Element bits as the array reads an operand: one it does not accept is read as 8-bit (R543). -/
def Fmt.arrayBits (f : Fmt) : Nat := if f.arraySource then f.bits else 8

/-- Pair layout (R75). -/
def Fmt.pair (f : Fmt) : Bool := 7 ≤ f.toNat && f.toNat ≤ 9

/-- The float parameters of a code, where it names a float format. -/
def Fmt.float (f : Fmt) : Option FloatFmt :=
  match f.toNat with
  | 0 => some fmtBF16 | 1 => some fmtFP16 | 2 => some fmtFP32 | 5 => some fmtE4M3
  | 6 => some fmtE5M2 | 7 => some fmtE3M2 | 8 => some fmtE2M3 | 9 => some fmtE2M1 | _ => none

/-- R40, R41: the value of one element, without its block scale. -/
def decodeElem (f : Fmt) (w : Nat) : Val :=
  match f.float with
  | some ff => decodeFloat ff w
  | none =>
    match f.toNat with
    | 3 => .fin (signedOf 8 w) 0
    | 4 => .fin (signedOf 32 w) 0
    | 10 => .fin (signedOf 8 w) (-6)
    | _ => .nan

/-- R42: the exponent of an E8M0 scale byte; 0xFF is NaN. -/
def decodeScale (b : Byte) : Option Int := if b = 0xFF#8 then none else some ((b.toNat : Int) - 127)

/-- R43, R46, R38: an array operand element with its block scale, NaN as `none`. -/
def arrayElem (f : Fmt) (w : Nat) (scale : Byte) : Option Dy :=
  if f.arraySource then
    match decodeElem f w with
    | .fin m e =>
      if f.isMx then (decodeScale scale).map fun k => ⟨m, e + k⟩ else some ⟨m, e⟩
    | _ => none
  else none

/-- R45: element `i` of a plane of `b`-bit elements that begins at byte `base`. -/
def planeElem (p : Memory) (base b i : Nat) : Nat :=
  p.readLE (base + b * i / 8) 5 / 2 ^ (b * i % 8) % 2 ^ b

/-- One accumulator element (R47): {EXT, VALUE} as one 136-bit integer X, the anchor, SAT and NAN. -/
structure Acc where
  x : BitVec 136
  a : BitVec 10
  sat : Bool
  nan : Bool
deriving DecidableEq, Repr

/-- A cleared element (R85). -/
def Acc.zero : Acc := ⟨0, 0, false, false⟩

/-- R84 with an anchor in place: cleared and anchored (R83). -/
def Acc.anchored (a : Int) : Acc := ⟨0, BitVec.ofInt 10 a, false, false⟩

/-- Status conditions (Table 2.6), at the bit places of Table 3.9 and Table 4.4. -/
def condAccSat : BitVec 8 := 1#8
def condOutSat : BitVec 8 := 2#8
def condNanSeen : BitVec 8 := 4#8
def condFmtReserved : BitVec 8 := 8#8

/-- `floor (d / 2^w)`. -/
def Dy.floorAt (d : Dy) (w : Int) : Int :=
  let sh := d.e - w
  if 0 ≤ sh then d.m * 2 ^ sh.toNat else d.m / 2 ^ (-sh).toNat

/-- R48, exact product. -/
def Dy.mul (p q : Dy) : Dy := ⟨p.m * q.m, p.e + q.e⟩

def clampInt (lo hi v : Int) : Int := if v < lo then lo else if hi < v then hi else v

/-- R49 to R51: one product goes into one element; the second component is the conditions it sets. -/
def Acc.addProduct (c : Acc) (p : Option Dy) : Acc × BitVec 8 :=
  match p with
  | none => ({ c with nan := true }, condNanSeen)
  | some d =>
    let q := d.floorAt (c.a.toInt - 80)
    let q' := clampInt (-2 ^ 127) (2 ^ 127 - 1) q
    ({ c with x := c.x + BitVec.ofInt 136 q', sat := c.sat || decide (q' ≠ q) },
     if q' ≠ q then condAccSat else 0#8)

/-- The product of two array elements; a NaN operand makes a NaN product (R51). -/
def mulElem (p q : Option Dy) : Option Dy :=
  match p, q with
  | some d, some d' => some (d.mul d')
  | _, _ => none

/-- All the products of one element, in order (R52: any order gives the same element). -/
def Acc.addAll (c : Acc) (ps : List (Option Dy)) : Acc × BitVec 8 :=
  ps.foldl (fun r p => let r' := r.1.addProduct p; (r'.1, r.2 ||| r'.2)) (c, 0#8)

/-- The unbiased exponent of a finite non-zero float element; a subnormal counts at the smallest
normal exponent (R55). -/
def floatExp (f : FloatFmt) (w : Nat) : Option Int :=
  match decodeFloat f w with
  | .fin m _ =>
    if m = 0 then none
    else
      let ex := w / 2 ^ f.m % 2 ^ f.eBits
      some (if ex = 0 then 1 - f.bias else (ex : Int) - f.bias)
  | _ => none

/-- The larger of two exponents, where `none` is no exponent. -/
def maxExp (a b : Option Int) : Option Int :=
  match a, b with
  | none, b => b
  | a, none => a
  | some x, some y => some (max x y)

/-- R55: the block exponent of a block of element codes with its scale byte. -/
def blockExp (f : Fmt) (ws : List Nat) (scale : Byte) : Option Int :=
  if f.isMx then decodeScale scale
  else
    match f.toNat with
    | 0 | 1 | 2 =>
      match f.float with
      | some ff => ws.foldl (fun b w => maxExp b (floatExp ff w)) none
      | none => none
    | 3 => if ws.any fun w => decide (w % 256 ≠ 0) then some 0 else none
    | _ => none

/-- R56: the automatic anchor of a set of pairs of block exponents. -/
def autoAnchor (ps : List (Option Int × Option Int)) : Int :=
  let best := ps.foldl (fun b p =>
    match p.1, p.2 with
    | some x, some y => maxExp b (some (x + y))
    | _, _ => b) none
  match best with
  | none => 0
  | some b => clampInt (-512) 511 (b + 8)

/-- R59, Table 2.3: an element as a 32-byte record. -/
def Acc.toRecord (c : Acc) : BitVec 256 :=
  0#102 ++ BitVec.ofBool c.nan ++ BitVec.ofBool c.sat ++ c.a.signExtend 16 ++ c.x

/-- R59: a record as an element; the anchor is taken from bits [145:136] only. -/
def Acc.ofRecord (r : BitVec 256) : Acc :=
  ⟨r.extractLsb' 0 136, r.extractLsb' 136 10, r.getLsbD 152, r.getLsbD 153⟩

/-- R60, R61: the sum of two records. -/
def Acc.add (p q : Acc) : Acc :=
  let hi := max p.a.toInt q.a.toInt
  let px := p.x.toInt / 2 ^ (hi - p.a.toInt).toNat
  let qx := q.x.toInt / 2 ^ (hi - q.a.toInt).toNat
  ⟨BitVec.ofInt 136 px + BitVec.ofInt 136 qx, BitVec.ofInt 10 hi, p.sat || q.sat, p.nan || q.nan⟩

/-- R65: the kept magnitude after dropping `shift` low bits under a rounding code. -/
def roundKept (mag : Nat) (shift : Int) (code : BitVec 2) (r : Nat) : Nat :=
  if shift ≤ 0 then mag * 2 ^ (-shift).toNat
  else
    let sh := shift.toNat
    let kept := mag / 2 ^ sh
    let rest := mag % 2 ^ sh
    let half := 2 ^ (sh - 1)
    let up :=
      if code = 0#2 then decide (half < rest) || (decide (rest = half) && decide (kept % 2 = 1))
      else if code = 1#2 then false
      else
        let t := if 24 ≤ sh then rest / 2 ^ (sh - 24) else rest * 2 ^ (24 - sh)
        decide (2 ^ 24 ≤ t + r)
    if up then kept + 1 else kept

/-- The place of the leading bit. -/
def leadBit (n : Nat) : Nat := n.log2

/-- R66: the encoding of `d` in a float format, and whether it was saturated (R62 step 5). -/
def roundFloat (f : FloatFmt) (d : Dy) (code : BitVec 2) (r : Nat) : Nat × Bool :=
  if d.m = 0 then (0, false)
  else
    let mag := d.m.natAbs
    let lead : Int := (leadBit mag : Int) + d.e
    let emin : Int := 1 - f.bias
    let q := max lead emin - f.m
    let kept := roundKept mag (q - d.e) code r
    let raw := (q + f.m + f.bias - 1).toNat * 2 ^ f.m + kept
    let enc := if f.maxCode < raw then f.maxCode else raw
    let sign := if d.m < 0 ∧ enc ≠ 0 then 2 ^ (f.m + f.eBits) else 0
    (sign + enc, decide (f.maxCode < raw))

/-- R68: rounding to a multiple of `2^w` and saturation to a signed integer of `n` bits. -/
def roundInt (n : Nat) (w : Int) (d : Dy) (code : BitVec 2) (r : Nat) : Int × Bool :=
  let kept : Int := roundKept d.m.natAbs (w - d.e) code r
  let v := if d.m < 0 then -kept else kept
  let v' := clampInt (-2 ^ (n - 1)) (2 ^ (n - 1) - 1) v
  (v', decide (v' ≠ v))

/-- Steps 1 and 2 of R62: the exact value a drain converts, `none` for NaN (step 3), with the
conditions step 1 sets. -/
def Acc.drainValue (c : Acc) (k : Int) : Option Dy × BitVec 8 :=
  let x := c.x.toInt
  let x' := clampInt (-2 ^ 127) (2 ^ 127 - 1) x
  (if c.nan then none else some ⟨x', c.a.toInt - 80 + k⟩, if x' ≠ x then condAccSat else 0#8)

/-- Table 2.5: the canonical NaN of a format without block scales. -/
def canonNaN (f : Fmt) : Nat :=
  match f.toNat with
  | 0 => 0x7FC0 | 1 => 0x7E00 | 2 => 0x7FC00000 | _ => 0

/-- R62 to R68: one element drained to a target that is no MX format and no ACC record. -/
def drainElem (f : Fmt) (c : Acc) (k : Int) (code : BitVec 2) (r : Nat) : Nat × BitVec 8 :=
  match c.drainValue k with
  | (none, st) => (canonNaN f, st)
  | (some d, st) =>
    let (v, sat) :=
      match f.float with
      | some ff => roundFloat ff d code r
      | none =>
        let (i, b) := roundInt f.bits 0 d code r
        ((BitVec.ofInt f.bits i).toNat, b)
    (v, st ||| (if sat then condOutSat else 0#8))

/-- The largest exponent of an element format, emax of R70. -/
def mxEmax (f : Fmt) : Int :=
  match f.toNat with
  | 5 => 8 | 6 => 15 | 7 => 4 | 8 => 2 | 9 => 2 | _ => 0

/-- `floor (log2 |d|)` of a non-zero value. -/
def Dy.lead (d : Dy) : Int := (leadBit d.m.natAbs : Int) + d.e

/-- R70, R71: one MX block from 32 exact values (`none` is NaN), with each element's random value. -/
def mxBlock (f : Fmt) (vals : List (Option Dy)) (code : BitVec 2) (rs : List Nat) :
    Byte × List Nat × BitVec 8 :=
  if vals.any Option.isNone then (0xFF#8, vals.map fun _ => 0, 0#8)
  else
    let ds := vals.filterMap id
    let top := ds.foldl (fun b d => if d.m = 0 then b else maxExp b (some d.lead)) none
    let s0 := match top with
      | none => -127
      | some l => l - mxEmax f
    let s := clampInt (-127) 127 s0
    let enc := (ds.zip rs).map fun p =>
      match f.float with
      | some ff => roundFloat ff ⟨p.1.m, p.1.e - s⟩ code p.2
      | none =>
        let (i, b) := roundInt 8 (-6) ⟨p.1.m, p.1.e - s⟩ code p.2
        ((BitVec.ofInt 8 i).toNat, b)
    (BitVec.ofInt 8 (s + 127), enc.map Prod.fst,
      if enc.any Prod.snd then condOutSat else 0#8)

/-- R69: one round of Philox4x32. -/
def philoxRound (c : W32 × W32 × W32 × W32) (k : W32 × W32) : W32 × W32 × W32 × W32 :=
  let p0 : BitVec 64 := 0xD2511F53#64 * c.1.zeroExtend 64
  let p1 : BitVec 64 := 0xCD9E8D57#64 * c.2.2.1.zeroExtend 64
  (p1.extractLsb' 32 32 ^^^ c.2.1 ^^^ k.1, p1.extractLsb' 0 32,
   p0.extractLsb' 32 32 ^^^ c.2.2.2 ^^^ k.2, p0.extractLsb' 0 32)

/-- `n` rounds, bumping the key before every round but the first. -/
def philoxRounds : Nat → Bool → W32 × W32 × W32 × W32 → W32 × W32 → W32 × W32 × W32 × W32
  | 0, _, c, _ => c
  | n + 1, first, c, k =>
    let k' := if first then k else (k.1 + 0x9E3779B9#32, k.2 + 0xBB67AE85#32)
    philoxRounds n false (philoxRound c k') k'

/-- R69: Philox4x32-10, output word 0. -/
def philox (c : W32 × W32 × W32 × W32) (k : W32 × W32) : W32 := (philoxRounds 10 true c k).1

/-- R69: the 24-bit random value of a stochastic drain. -/
def drainRandom (seed : W64) (c0 c1 c2 c3 : W32) : Nat :=
  ((philox (c0, c1, c2, c3) (seed.extractLsb' 0 32, seed.extractLsb' 32 32)).extractLsb' 0 24).toNat

end Sys2Proof.Machine
end

