-- ==== Sys2Proof/Machine/State.lean ====
section
/-! DEFINITION. The state of the module, as plain data: every piece of state that spec/ gives it, the ways a
command can stop, and the state after reset. -/

namespace Sys2Proof.Machine

/-! ### Complement pairs (R6 to R8) -/

/-- A CPAIR32: the value and its stored complement. -/
structure Pair32 where
  v : BitVec 32
  c : BitVec 32
deriving DecidableEq, Repr

/-- A CPAIR64. -/
structure Pair64 where
  v : BitVec 64
  c : BitVec 64
deriving DecidableEq, Repr

/-- A pair that holds a value and its right complement. -/
def Pair32.of (v : BitVec 32) : Pair32 := ⟨v, ~~~v⟩

def Pair64.of (v : BitVec 64) : Pair64 := ⟨v, ~~~v⟩

/-- The check of R6. -/
def Pair32.ok (p : Pair32) : Bool := p.c == ~~~p.v

/-- The check of R7. -/
def Pair64.ok (p : Pair64) : Bool := p.c == ~~~p.v

/-! ### The fused part and the mode objects (spec/01) -/

/-- What is fused at test (Tables 1.6 to 1.8); one part of one serial number per model. -/
structure Part where
  grade : BitVec 8
  serial : List Byte
  stepping : BitVec 16
  /-- Bit n: module hall n is disabled (R20, four words of 48 bits). -/
  disabled : BitVec 192
  mapFused : Bool
  idSeed : Bool
  testClose : Bool
  debugClose : Bool
deriving DecidableEq, Repr

/-- The two mode settings outside the image (Table 1.11), with the value in force and a value that waits
for the next control window (R26). -/
structure Modes where
  powerMode : BitVec 8
  forceGuarded : Bool
  /-- Bits of the stored pair 1100.07 that have been upset since the Steward last wrote it (R36, R445). -/
  wordUpset : BitVec 64
deriving DecidableEq, Repr

/-! ### Matrix cores (spec/03) -/

/-- R87. -/
structure AddrReg where
  base : BitVec 24
  step : BitVec 16
deriving DecidableEq, Repr

/-- A weight slot's tile (R77, R79): the stored planes as they were read, and whether the slot holds their
transpose (R96). -/
structure Tile where
  fmt : BitVec 4
  xpose : Bool
  elems : Memory
  scales : Memory
deriving DecidableEq, Repr

/-- One entry of the loop stack (R90). -/
structure LoopFrame where
  start : Nat
  stop : Nat
  remaining : Nat
deriving DecidableEq, Repr

/-- What holds a matrix core's sequencer. -/
inductive MHold where
  /-- Nothing. -/
  | free
  /-- A WAIT (R91): bell, target, the beat the hold began and, once met, the beat the bell first met it. -/
  | bell (bell : BitVec 13) (target : BitVec 48) (since : Nat) (met : Option Nat)
  /-- A WAIT on STEP_BELL that a launch has met, and that resumes at ENTRY (R260): the shape and the beat. -/
  | entry (shape : BitVec 4) (met : Nat)
deriving DecidableEq, Repr

/-- A finished-tile entry that a drain has converted but not yet written: header without STATUS, payload,
conditions, the beats of its first and last byte, STCLR on the drain's last entry, and the drain's command address. -/
structure DrainPiece where
  hdr : BitVec 64
  payload : Memory
  conds : BitVec 8
  first : Nat
  due : Nat
  stclr : Bool
  addr : Nat
deriving DecidableEq, Repr

/-- A SIGNAL that has issued and has not changed its bell (R92, R137): the bell, the amount, the beat of the
change as far as reads and stores fix it, and how many finished-tile entries must be visible first. -/
structure PendSignal where
  bell : BitVec 13
  inc : BitVec 16
  due : Nat
  mark : Nat
deriving DecidableEq, Repr

/-- The beats that the interlocks of R108 and R547 refer to. -/
structure MTimes where
  loadFree : Nat
  slotReady0 : Nat
  slotReady1 : Nat
  slotAcc0 : Nat
  slotAcc1 : Nat
  arrayFree : Nat
  /-- Slot and orientation of the latest ACC. -/
  lastAcc : Option (Bool × Bool)
  /-- Per bank, the beat by which every earlier ACC or CLEAR has written its last element. -/
  bankWritten : SMap Nat
  /-- Per bank, the beat by which every earlier DRAIN has read it. -/
  bankRead : SMap Nat
  drainFree : Nat
  /-- Every earlier command has read its operands by this beat (R92). -/
  readsDone : Nat
  /-- Every issued command has taken full effect by this beat (R263). -/
  busyUntil : Nat
deriving DecidableEq, Repr

/-- One matrix core (R77, R81, R86; Table 3.9). -/
structure MCore where
  running : Bool
  pc : Nat
  loops : List LoopFrame
  hold : MHold
  /-- First beat at which the next command may issue (R86). -/
  nextIssue : Nat
  ar : SMap AddrReg
  wt : SMap (BitVec 48)
  streamTag : BitVec 32
  outBase : BitVec 32
  tileIndex : BitVec 32
  /-- The 128-entry column-key map, and a map loaded by SETKEYS for drains that start at its beat or later. -/
  keys : SMap (BitVec 32)
  keysNext : List (Nat × SMap (BitVec 32))
  status : BitVec 8
  /-- Since when a drain of the core waits for a free queue entry, in trusting mode (R106): the beat of the first byte
  that it could not write. -/
  drainWait : Option Nat
  /-- Beats that drains waited for a queue entry (R106). -/
  waitCount : Nat
  slot0 : Tile
  slot1 : Tile
  /-- Element (o, b) of bank k is at key 16384 k + 128 o + b (R81). -/
  banks : SMap Acc
  /-- The shape latched by the last launch (R260). -/
  shape : BitVec 4
  times : MTimes
  pieces : List DrainPiece
  signals : List PendSignal
deriving DecidableEq, Repr

/-- One written finished-tile entry (R104, Table 3.8), and the beat of its last byte. -/
structure FtqEntry where
  hdr : BitVec 64
  payload : Memory
  writtenAt : Nat
deriving DecidableEq, Repr

/-- A finished-tile queue (R105): entries written and not released, oldest first, and its counts. -/
structure Ftq where
  entries : List FtqEntry
  written : Nat
  /-- Entries that have become visible, and the beat of the latest. -/
  seen : Nat
  seenAt : Nat
  released : Nat
  /-- Beats of the latest releases, at most eight, the latest first. -/
  releases : List Nat
deriving DecidableEq, Repr

def Tile.empty : Tile := ⟨0#4, false, [], []⟩

def MTimes.zero : MTimes := ⟨0, 0, 0, 0, 0, 0, none, [], [], 0, 0, 0⟩

/-- A matrix core before any program start (spec/03 gives no value; DESIGN CHOICE, log row 3). -/
def MCore.idle : MCore :=
  ⟨false, 0, [], .free, 0, [], [], 0#32, 0#32, 0#32, [], [], 0#8, none, 0, Tile.empty, Tile.empty, [], 0#4,
    MTimes.zero, [], []⟩

def Ftq.empty : Ftq := ⟨[], 0, 0, 0, 0, []⟩

/-- Beat of the latest release. -/
def Ftq.releasedAt (q : Ftq) : Nat := q.releases.headD 0

/-- An address register that nothing has set. -/
def AddrReg.zero : AddrReg := ⟨0#24, 0#16⟩

/-! ### Vector cores (spec/04) -/

/-- What holds a vector core at issue (R114 item 4). -/
inductive VHold where
  | free
  /-- WAIT (R137): bell, target, since when, and the beat at which the bell first met it. -/
  | bell (bell : BitVec 13) (target : BitVec 48) (since : Nat) (met : Option Nat)
  /-- WAIT on STEP_BELL that a launch has met (R260). -/
  | entry (shape : BitVec 4) (met : Nat)
  /-- PACE (R117): the beat it issues. -/
  | pace (until_ : Nat)
  /-- PRECV (R139) on a post, by its key 96 h + 32 c + p. -/
  | post (post : Nat) (since : Nat)
  /-- DESC (R192): the porter, in trusting mode, whose queue is full at the beat the descriptor is due. -/
  | desc (porter : Nat) (since : Nat)
  /-- TWAIT, TLD or TREL (R132 to R134) on queue Q. -/
  | queue (q : Bool) (since : Nat)
deriving DecidableEq, Repr

/-- The scoreboard of R114: per register key the beat at which it is readable, per unit the beat at which it
may issue again. Keys: v 0 to 63, s 64 to 95, p 96 to 103, es 104 to 111, mark 112. -/
structure VTimes where
  ready : SMap Nat
  /-- As `ready`, leaving out XADD, XMAC and XREC (R115). -/
  readyClr : SMap Nat
  unitFree : SMap Nat
  /-- Every earlier instruction has read its operands, and every earlier store is at its point of coherence. -/
  readsDone : Nat
  storesDone : Nat
  /-- Per queue, the beat by which every earlier TLD has read its bytes, and of the last release. -/
  tldDone : SMap Nat
  busyUntil : Nat
deriving DecidableEq, Repr

/-- One vector core (Table 4.1). -/
structure VCore where
  running : Bool
  pc : BitVec 16
  hold : VHold
  nextIssue : Nat
  v : SMap (BitVec 8192)
  s : SMap W64
  p : SMap (BitVec 256)
  /-- Element i of es k is at key 256 k + i. -/
  es : SMap Acc
  mark : W64
  status : BitVec 8
  shape : BitVec 4
  times : VTimes
  signals : List PendSignal
deriving DecidableEq, Repr

def VTimes.zero : VTimes := ⟨[], [], [], 0, 0, [], 0⟩

/-- Table 4.1 reset values; not running. -/
def VCore.idle : VCore :=
  ⟨false, 0#16, .free, 0, [], [], [], [], 0#64, 0#8, 0#4, VTimes.zero, []⟩

/-! ### Larder and Pantry (spec/05) -/

/-- A handle entry (R161): W0 and W1 with their complements. -/
structure HandleEntry where
  w0 : Pair64
  w1 : Pair64
deriving DecidableEq, Repr

/-- The unbound state (R168). -/
def HandleEntry.unbound : HandleEntry := ⟨Pair64.of 0#64, Pair64.of 0#64⟩

/-! ### A flit on its way out (spec/11) -/

/-- A flit that waits for its output port. -/
structure OutFlit where
  type : BitVec 4
  cls : BitVec 3
  vc : Bool
  hops : BitVec 6
  /-- INJ of a transit flit; a flit of this member's own takes its beat when sent. -/
  inj : Option (BitVec 20)
  /-- Transfer of a HEAD, DATA or LAST flit within the port, and the label that a circuit keeps. -/
  xfer : Nat
  label : Option (BitVec 10)
  payload : BitVec 1024
  /-- The input port and buffer whose credit is freed when the flit leaves (R347). -/
  from_ : Option (Nat × Nat)
  /-- A read context is freed when it is sent (R351). -/
  endsContext : Bool
  stomp : Bool
deriving DecidableEq, Repr


/-! ### Movers of bytes: what a transfer is (spec/06, spec/07) -/

/-- A packet on its way to one destination of a transfer: packet number, destination number, and the beat it
reaches the destination router. -/
structure Flight where
  packet : Nat
  dest : Nat
  arrives : Nat
deriving DecidableEq, Repr

/-- A started descriptor, or a transfer that an Eothar port delivers (R197, R201, R308). -/
structure Transfer where
  /-- W0 to W7, W0 lowest. -/
  desc : BitVec 512
  /-- S of R193. -/
  start : Nat
  /-- SRC_TILE and GRANULE of Table 7.12. -/
  tile : BitVec 8
  granule : BitVec 15
  /-- The bytes of a desk or loader descriptor (R544). -/
  supplied : Option Memory
  /-- Receiving module halls of a cast (R205). -/
  halls : List Nat
  /-- Source accesses made, bytes they supplied, their bytes, beats they lost, and the beat of the latest. -/
  reads : Nat
  readBytes : Nat
  buf : Memory
  shift : Nat
  lastRead : Nat
  /-- First beat at which a packet may inject, as its supply allows. -/
  avail : SMap Nat
  /-- Packets injected, the beats of the latest on each plane, and the latest entry into a first link. -/
  injected : Nat
  lastLower : Nat
  lastUpper : Nat
  lastInject : Nat
  flights : List Flight
  /-- Beat of the latest write at a destination, and of the latest arrival at a stack's attachment tile. -/
  lastWrite : Nat
  lastArrive : Nat
  /-- Cellar blocks of the destination not yet visible; `none` before the stream is handed over. -/
  blocksLeft : Option Nat
  /-- An inbound transfer's label, source rank and class. -/
  label : BitVec 10
  srank : BitVec 16
  cls : BitVec 3
  /-- An inbound transfer's hops, injection beats by packet, and whether its LAST has arrived (R269, R308). -/
  hops : Nat
  injBeats : SMap Nat
  closed : Bool
  /-- Output ports of a transfer that leaves the module, with its transfer number there. -/
  outs : List (Nat × Nat)
  /-- A last packet that its port holds for job-scope acknowledgements (R207). -/
  heldLast : List (Nat × OutFlit)
  /-- 16 B elements of the source that an earlier packet of the transfer had still to write when they were read, and
  one more than the element that it writes there (R197). -/
  fwd : SMap Nat
  /-- Acknowledgements that a remote destination still owes, once the last packet has left (R206, R343). -/
  acks : Option Nat
deriving DecidableEq, Repr

/-! ### Cellar stacks (spec/06) -/

/-- A stream at a stack controller (R173): who sent it, direction, first block address, stride and count of
blocks, how many of them are read-ahead, a write's bytes and their number, arrival beat and order (R181). -/
structure CellarStream where
  porter : Nat
  agent : BitVec 8
  /-- Start beat of the descriptor, which names it in its porter. -/
  ident : Nat
  write : Bool
  addr : Nat
  stride : Nat
  count : Nat
  ahead : Nat
  data : Memory
  len : Nat
  arrive : Nat
  order : Nat
  /-- Slot of each block (R182); empty before arrival. -/
  slots : List Nat
  started : Nat
  ended : Nat
  /-- Blocks that reads have taken, by block number: what stood in the stack at the slot. -/
  taken : SMap Memory
deriving DecidableEq, Repr

/-- A stack controller (R182) and its reports. -/
structure Stack where
  arriving : List CellarStream
  streams : List CellarStream
  unitNext : SMap Nat
  /-- Group g, unit u, bank b at key 256 g + 16 u + b. -/
  bankNext : SMap Nat
  /-- 1 = read, 2 = write; 0 = None. -/
  unitDir : SMap Nat
  last : Nat
  scrub : Nat
  trained : Bool
  /-- Temperature in 1/65,536 °C. -/
  temp : BitVec 32
  hot : Bool
  limit : Bool
  corrected : W64
  uncorrected : W64
  bankWait : W64
  turnSlots : W64
  /-- First beat at which the next refresh window may begin. -/
  windowAt : Nat
deriving DecidableEq, Repr

def Stack.reset : Stack :=
  ⟨[], [], [], [], [], 0, 0, false, 0#32, false, false, 0#64, 0#64, 0#64, 0#64, 0⟩

structure Cellars where
  ctl : SMap Stack
  /-- 3130.01, per tower. -/
  lastError : SMap W64
  /-- The stacks hold no valid contents until they are written (R188): the draw from which the free bytes of
  a block that nothing has written since come, and the blocks (stack, block address) written since. -/
  invalid : Option Nat
  rewritten : List (Nat × Nat)
deriving DecidableEq, Repr

def Cellars.reset : Cellars := ⟨[], [], none, []⟩

/-! ### Porters (spec/07) -/

/-- A descriptor handed to a porter: its 64 B, the beat it is due, SRC_TILE, GRANULE, the bytes of a desk or
loader descriptor, and the module hall whose vector core waits for it to be received. -/
structure Handed where
  desc : BitVec 512
  due : Nat
  tile : BitVec 8
  granule : BitVec 15
  supplied : Option Memory
  core : Option Nat
deriving DecidableEq, Repr

/-! ### Accesses under way (spec/05, spec/07) -/

/-- Whose access, packet or port read a run is, with what its beats fix there (R143, R151, R202, R547). -/
inductive RunOwner where
  /-- Porter-port Pantry accesses, which never move. -/
  | mark
  /-- A LOADW: the core, the slot, and the beats from the load path's end to the slot's readiness. -/
  | load (core : Nat) (slot : Bool) (ahead : Nat)
  | keys (core : Nat)
  /-- An ACC: the core, its banks, and the beats from its end to the last element written. -/
  | acc (core : Nat) (banks : List Nat) (tail : Nat)
  /-- A vector load, store, PRECV, and a PSEND or DESC: the hall, and the scoreboard keys written. -/
  | read (hall : Nat) (regs : List Nat)
  | store (hall : Nat)
  | recv (hall : Nat) (regs : List Nat)
  | send (hall : Nat) (regs : List Nat)
  /-- A Reckoner's column. -/
  | column (tower : Nat)
  /-- A mover's source access, its write of a packet, and a packet on its links: mover, start beat, packet. -/
  | source (mover start : Nat)
  | write (mover start packet : Nat)
  | packet (mover start packet plane : Nat)
  /-- A post descriptor on its links. -/
  | post (num : BitVec 32) (desc : BitVec 256)
deriving DecidableEq, Repr

/-- One access of a run: the resources it takes together, accesses that the last of them serves in a beat, the
access it follows (0 for none, else 1 + its place in the run) and by how many beats, its beat once granted, and
the beats it has lost. Resources: slices 0 to 575, Pantry banks from 1000, mesh links from 10000, bridges from
20000, ports of cores from 30000. -/
structure Claim where
  res : List Nat
  cap : Nat
  par : Nat
  gap : Nat
  floor : Nat
  beat : Nat
  lost : Nat
  held : Bool
deriving DecidableEq, Repr

/-- Where a core's or a Reckoner's access lies: `n` bytes of a core's Pantry from a byte address, wrapping (R141), a row of a
handle's region (R162), or a row of logits (R404). `all` are the rows that are checked before the row is (R136). -/
inductive Place where
  | pantry (key byte n : Nat)
  | row (hall core handle offset : Nat) (all : List Nat)
  | logit (tower handle offset : Nat)
deriving DecidableEq, Repr

/-- What an access of a run does on its beat. -/
inductive Act where
  /-- A core or a Reckoner reads places. -/
  | read (places : List Place)
  /-- A core writes bytes at a place: those of `mask`, all of them in a row-mode region (R136). -/
  | patch (place : Place) (mask : BitVec 512) (bytes : List Byte)
  /-- A mover reads the bytes from `lo` to `hi` of a transfer at its source (R197). -/
  | source (mover start lo hi : Nat)
  /-- A porter reads unit `unit` of its source ahead (R210). -/
  | ahead (mover start unit : Nat)
  /-- A mover writes the bytes from `lo` to `hi` of a transfer to a Larder region in module hall `hall` (R160):
  the destination endpoint, the bytes, the rank they came from and the due beats of their packets (R269). -/
  | line (mover start : Nat) (e0 e1 : BitVec 64) (hall lo hi : Nat) (data : Memory) (srank : BitVec 16) (dues : List Nat)
deriving DecidableEq, Repr

/-- Where what a core's run reads goes: to a weight slot, to the column keys, to a bank column of an ACC vector by
vector (`dead` are banks that a later CLEAR has cleared), to a scalar register, to the lanes of a vector register that take
it, beside those that are zeroed (R118), to a porter (R138), to the core's send stage (R235), or to a Reckoner (R405). -/
inductive Sink where
  | none
  | slot (core : Nat) (slot : Bool) (fmt : BitVec 4) (xpose : Bool) (elems : Nat)
  | keys (core : Nat)
  | column (core : Nat) (a : AccArgs) (dead : List Nat)
  | scalar (hall : Nat) (sd : BitVec 5)
  | lanes (hall : Nat) (vd : BitVec 6) (take wipe : BitVec 256)
  | hand (porter : Nat) (hd : Handed)
  | send (hall granule : Nat) (sd : BitVec 5) (stored : Nat)
  | logits (tower : Nat)
deriving DecidableEq, Repr

/-- A run of accesses: its number, its place in the order of R151 or R202, its owner, the beat of its result, and
for a packet the destinations with their last links. A run that `holds` keeps its resource once it has it (R156).
Each access acts when time passes its beat; `done` of them have, and `got` is what they read. -/
structure Run where
  seq : Nat
  rank : Nat
  owner : RunOwner
  due : Nat
  claims : List Claim
  leaves : List (Nat × Nat × Nat × Nat)
  holds : Bool
  acts : List Act
  sink : Sink
  done : Nat
  got : List Memory
deriving DecidableEq, Repr

/-- Handle tables, the counters of Table 5.6, and the accesses under way. -/
structure LarderCtl where
  /-- Entry k of tower t at key 4096 t + k. -/
  handles : SMap HandleEntry
  /-- The Steward's master copy (R446). -/
  master : SMap (W64 × W64)
  lastFault : SMap W64
  sliceLost : SMap W64
  pantryLost : SMap W64
  gridSerial : SMap W64
  /-- Runs with an access at a beat not yet past, and the number of the next (R143, R150, R151, R202, R547). -/
  runs : List Run
  nextRun : Nat
deriving DecidableEq, Repr

def LarderCtl.reset : LarderCtl := ⟨[], [], [], [], [], [], [], 0⟩

/-- A start held by WT: since when, and the beat at which the bell first met the target (R193). -/
structure StartHold where
  since : Nat
  met : Option Nat
deriving DecidableEq, Repr

/-- A staged unit (R210): Larder (handle, hall, row offset) or Cellar (stack, block address), where it stands,
and its bytes. -/
structure StagedUnit where
  larder : Bool
  tower : Nat
  name : Nat
  hall : Nat
  off : Nat
  place : Nat
  bytes : Memory
deriving DecidableEq, Repr

/-- A signal that waits for its beat (R207), with the rank of a sender in another member. -/
structure PorterSignal where
  tower : Nat
  bell : Nat
  inc : Nat
  due : Nat
  rank : Nat
deriving DecidableEq, Repr

structure Porter where
  arriving : List Handed
  /-- Received and not started, at most 16 (R192), each with its beat of receipt. -/
  queue : List Handed
  hold : Option StartHold
  active : List Transfer
  staging : List StagedUnit
  tag : BitVec 16
  /-- Beat from which the next start may fall (R193, condition 2). -/
  startFree : Nat
  /-- Beat at which a queue entry was last freed (R192). -/
  freedAt : Nat
  /-- Completion beat of the latest completed descriptor (R206). -/
  lastDone : Nat
  /-- Chain fetches under way, oldest first: tile, granule, S. -/
  chain : List (BitVec 8 × BitVec 15 × Nat)
  signals : List PorterSignal
  /-- REQ HEADs that were refused: start beat and the beat of the next injection (R351). -/
  refused : List (Nat × Nat)
deriving DecidableEq, Repr

def Porter.idle : Porter := ⟨[], [], none, [], [], 0#16, 0, 0, 0, [], [], []⟩

structure Porters where
  /-- Tower porter i of tower t at key 16 t + i; the hall porter of module hall h at key 64 + h. -/
  porters : SMap Porter
  done : SMap W64
  linkLost : SMap W64
  queueFull : SMap W64
  stagingHits : SMap W64
  hallGroup : SMap (BitVec 192)
  lastFault : SMap W64
  /-- Transfers that arrive on each Eothar port, and the signals of completed ones. -/
  inbound : SMap (List Transfer)
  inboundSignals : SMap (List PorterSignal)
  /-- The landing buffer's deliveries to loader descriptors: packets delivered on the latest beat (R544). -/
  landBeat : Nat
  landCount : Nat
deriving DecidableEq, Repr

def Porters.reset : Porters := ⟨[], [], [], [], [], [], [], [], [], 0, 0⟩

/-! ### Posts and bells (spec/08) -/

/-- Who sent a post descriptor. -/
inductive Sender where
  /-- The vector core of a module hall. -/
  | core (hall : Nat)
  | desk
  /-- A member of another rank, through an Eothar port. -/
  | fabric (port : Nat)
deriving DecidableEq, Repr

/-- A descriptor held in a post, visible as head from a beat on (Table 8.4). -/
structure PostSlot where
  desc : BitVec 256
  visible : Nat
deriving DecidableEq, Repr

/-- An arrival that waits at a post's input (R237): its sender and its number in the sender's stage. -/
structure PostArrival where
  sender : Sender
  num : BitVec 32
  desc : BitVec 256
  arrived : Nat
deriving DecidableEq, Repr

/-- One post (R232). `slots` are the descriptors it holds, oldest first; `freeing` is the first beat at which
a slot that a receive freed may be taken. -/
structure Post where
  sent : Pair32
  taken : Pair32
  reserved : Nat
  closed : Bool
  slots : List PostSlot
  waiting : List PostArrival
  freeAt : Nat
  headAt : Nat
deriving DecidableEq, Repr

def Post.empty : Post := ⟨Pair32.of 0#32, Pair32.of 0#32, 0, false, [], [], 0, 0⟩

/-- How an entry of a send stage stands (R236 to R238). -/
inductive EntryState where
  | staged
  | flying
  /-- Waiting at a full post's input since a beat. -/
  | waiting (since : Nat)
  /-- Refused by a remote post, and injected again at a beat. -/
  | refused (since : Nat) (again : Nat)
  /-- Injected again after a refusal, the first of which came at a beat. -/
  | retried (since : Nat)
deriving DecidableEq, Repr

/-- An entry of a send stage (R235): its number, the descriptor, the Pantry granule of the sender's copy, the
beat it was staged. -/
structure StageEntry where
  num : BitVec 32
  desc : BitVec 256
  granule : Nat
  stagedAt : Nat
  state : EntryState
deriving DecidableEq, Repr

/-- A send stage: 8 entries for a vector core, its own for the front desk. -/
structure Stage where
  entries : List StageEntry
  lastInject : Nat
  seq : BitVec 32
deriving DecidableEq, Repr

def Stage.empty : Stage := ⟨[], 0, 0#32⟩

/-- An injected send on its way to a post of the module. -/
structure PostFlight where
  sender : Sender
  num : BitVec 32
  desc : BitVec 256
  arrives : Nat
deriving DecidableEq, Repr

/-- An outcome on its way back to a sender of the module (R240). -/
structure PostReturn where
  stage : Nat
  num : BitVec 32
  desc : BitVec 256
  granule : Nat
  closed : Bool
  due : Nat
deriving DecidableEq, Repr

/-- What a watched bell's records hold (R228). -/
structure WatchRec where
  last : W64
  beat : W64
deriving DecidableEq, Repr

def WatchRec.zero : WatchRec := ⟨0#64, 0#64⟩

structure PostsBells where
  /-- Bell k of tower t at key 8192 t + k. -/
  bells : SMap Pair64
  /-- Post p of core c of module hall h at key 96 h + 32 c + p. -/
  posts : SMap Post
  /-- The stage of module hall h's vector core at key h, the front desk's at key 192. -/
  stages : SMap Stage
  flights : List PostFlight
  returns : List PostReturn
  watchdogBeats : BitVec 32
  handActions : BitVec 32
  idleBell : SMap (BitVec 16)
  sendsAccepted : SMap W64
  sendsClosed : SMap W64
  stageFull : SMap W64
  rsvFull : SMap W64
  remoteRefusals : SMap W64
  /-- Entry e (1 to 64) of tower t at key 64 t + e - 1; 0xFFFF = none. -/
  watchBell : SMap (BitVec 16)
  watch : SMap WatchRec
  watchdogRecord : BitVec 640
  lastPostFault : SMap W64
deriving DecidableEq, Repr

def PostsBells.reset : PostsBells :=
  ⟨[], [], [], [], [], 3600000#32, 0#32, [], [], [], [], [], [], [], [], 0#640, []⟩

/-! ### The schedule contract (spec/09) -/

/-- One installed shape: word SE0 and the commit offsets (Table 9.6). -/
structure Shape where
  se0 : W64
  commits : List Nat
deriving DecidableEq, Repr

def Shape.absent : Shape := ⟨0#64, []⟩

/-- The job: the objects of 0xA000 and 0x1100, and what the loader installed. -/
structure Job where
  load : W64
  loadState : BitVec 8
  refusal : W64
  startBeat : Nat
  /-- Mode axes of the job (Table 1.11): placement, checking, swap, interval, compile; 0 with no job. -/
  placement : BitVec 8
  check : BitVec 8
  swapMode : BitVec 8
  interval : BitVec 32
  compile : BitVec 8
  variant : BitVec 8
  logicalHalls : BitVec 8
  /-- Module hall of logical hall i; 0xFF = unused. -/
  hallMap : SMap (BitVec 8)
  digest : BitVec 256
  hopSlack : BitVec 16
  hopBeats : BitVec 16
  maxOp : BitVec 8
  stepBell : BitVec 16
  shapes : SMap Shape
  seed : W64
  /-- START and ENTRY word addresses; the core at tile position c of module hall h is core 3 h + c. -/
  starts : SMap Nat
  /-- Core n, shape q at key 16 n + q. -/
  entries : SMap Nat
  launches : W64
  lastLaunchBeat : Nat
  lastShape : BitVec 8
  /-- The latest step since program start: program beat of its launch, and its shape. -/
  stepRunning : Option (Nat × BitVec 4)
  /-- Next commit offset index of the step in progress. -/
  nextCommit : Nat
  /-- Program beat of a launch or boundary whose commit is due (R262, R397). -/
  commitDue : Option Nat
  slips : BitVec 32
  lastSlip : W64
  guardFault : W64
  /-- Word address of the DRAIN or PACE that a guarded-mode fault of cause 4 or 5 names (R106, R117). -/
  guardAddr : Nat
  unloadPending : Bool
  /-- A hand action has ended the determinism conditions of this job (R231). -/
  determinismEnded : Bool
deriving DecidableEq, Repr

def Job.absent : Job :=
  ⟨0#64, 0#8, 0#64, 0, 0#8, 0#8, 0#8, 0#32, 0#8, 0xFF#8, 0#8, [], 0#256, 0#16, 0#16, 15#8, 0xFFFF#16, [],
    0#64, [], [], 0#64, 0, 0#8, none, 0, none, 0#32, 0#64, 0#64, 0, false, false⟩

/-! ### Clocks, operating points, power and heat (spec/10) -/

/-- The generator of a beat region: its eight monitor codes as last reported, 4 bits each (R279); whether it stretches on
its own margin, the last beat whose margin was below 5 (R280), and the stretched beats that it has made, up to now while it
stretches and up to the end of its own last stretch otherwise (R281). -/
structure Region where
  codes : BitVec 32
  own : Bool
  low : Nat
  count : Nat
deriving DecidableEq, Repr

def Region.idle : Region := { codes := 0#32, own := false, low := 0, count := 0 }

/-- One governor's inputs in Q16.16 and its settings and reports. A setting that waits for the next control
window (R26, R291) stands in its `Next` field. -/
structure Clock where
  /-- 2020.01, 2020.02, 2020.03. -/
  opNow : BitVec 8
  opRequest : BitVec 8
  opCeiling : BitVec 8
  opChanges : BitVec 32
  /-- 2030.03 and 2030.04: as written, and in force. -/
  setpoint : BitVec 16
  setpointNow : BitVec 16
  powerLimit : BitVec 16
  powerLimitNow : BitVec 16
  /-- 2040.04, 2040.05. -/
  flow : BitVec 32
  flowNow : BitVec 32
  glycol : BitVec 8
  powerModeNow : BitVec 8
  opCeilingNow : BitVec 8
  /-- Measurements of the last control window, Q16.16. -/
  powerW : BitVec 32
  power100 : BitVec 32
  inputV : BitVec 32
  coolantIn : BitVec 32
  coolantOut : BitVec 32
  flowEst : BitVec 32
  upperTemp : SMap (BitVec 32)
  lowerTemp : SMap (BitVec 32)
  /-- Control windows since bring-up ended, and the sum of the means of the current 100 ms window. -/
  windows : Nat
  windowSum : Nat
  /-- Wall time at which the current control window began. -/
  windowStart : Nat
  /-- Last measured draw at each operating point, watts, 0 = none (R288). -/
  draw : SMap Nat
  /-- Windows of the current 100 ms window spent at the upper of the two points (R288). -/
  dithered : Nat
  limitEffective : BitVec 16
  shortfall : BitVec 32
  thermalSteps : BitVec 32
  emergencySteps : BitVec 32
  /-- Fields of Table 10.5; an emergency step in the window that runs. -/
  emergencyNow : Bool
  emergency : Bool
  coolantRange : Bool
  unreachable : Bool
  heldByJob : Bool
  thermal : Bool
  power : Bool
  ceiling : Bool
  /-- An operating point announced for a beat (R28, R285, R373). -/
  announced : Option (BitVec 8 × Nat)
  /-- A stack was HOT at some time in the window that runs (R286). -/
  hotSeen : Bool
  /-- Beat regions, and of all 152 regions the hottest sensor and the slip flag. -/
  regions : SMap Region
  temp : SMap (BitVec 8)
  slip : BitVec 152
  /-- The module's stretch count (R281), and what it was 1, 2 and 3 beats ago. -/
  stretched : Nat
  stretchPast : List Nat
  slips : BitVec 32
  /-- 2060.02: the reference is lost. -/
  refLost : Bool
deriving DecidableEq, Repr

/-- Defaults of Table 10.4. -/
def Clock.reset : Clock :=
  { opNow := 10#8, opRequest := 10#8, opCeiling := 15#8, opChanges := 0#32,
    setpoint := 3400#16, setpointNow := 3400#16, powerLimit := 4200#16, powerLimitNow := 4200#16,
    flow := 393216#32, flowNow := 393216#32, glycol := 30#8, powerModeNow := 0#8, opCeilingNow := 15#8,
    powerW := 0#32, power100 := 0#32, inputV := 0#32, coolantIn := 0#32, coolantOut := 0#32, flowEst := 0#32,
    upperTemp := [], lowerTemp := [], windows := 0, windowSum := 0, windowStart := 0, draw := [], dithered := 0,
    limitEffective := 4200#16, shortfall := 0#32, thermalSteps := 0#32, emergencySteps := 0#32,
    emergencyNow := false, emergency := false, coolantRange := false, unreachable := false, heldByJob := false, thermal := false,
    power := false, ceiling := false, announced := none, hotSeen := false, regions := [], temp := [], slip := 0#152,
    stretched := 0, stretchPast := [0, 0, 0], slips := 0#32, refLost := false }

/-! ### Eothar links (spec/11) -/

/-- A sequenced flit that is not acknowledged (R314, R317): how often it was sent, and the wall time since
which it waits. -/
structure SentFlit where
  flit : Flit
  times : Nat
  since : Nat
deriving DecidableEq, Repr

/-- A label in use at a sending end (R309): its transfer, and the SEQ of the LAST that closes it. -/
structure TxLabel where
  label : BitVec 10
  xfer : Nat
  last : Option (BitVec 10)
deriving DecidableEq, Repr

/-- Where the flits of a label that is open at a receiving end go (R309, R329, R342). -/
structure RxLabel where
  label : BitVec 10
  deliver : Bool
  /-- Output port and transfer there. -/
  forward : Option (Nat × Nat)
  /-- Ranks and TAG of the HEAD that opened it (R330, Table 12.9). -/
  drank : BitVec 16
  srank : BitVec 16
  tag : BitVec 16
deriving DecidableEq, Repr

/-- A management frame in an input buffer, with the beat and sixteenth of its receipt (R352, R366). -/
structure MgtFrame where
  payload : BitVec 1024
  vc : Bool
  beat : Nat
  frac : BitVec 4
deriving DecidableEq, Repr

/-- A swap under way on a port (R323). -/
inductive SwapState where
  | none
  /-- SWAP sent for the lane, at a beat. -/
  | asked (lane : BitVec 2) (since : Nat)
  /-- Both ends steer the spare into the lane's place; FEC relocks. -/
  | steered (lane : BitVec 2)
deriving DecidableEq, Repr

structure Port where
  role : BitVec 8
  channelNs : BitVec 8
  channelType : BitVec 8
  axis : BitVec 8
  up : Bool
  lock : Bool
  retraining : Bool
  excluded : Bool
  /-- A HELLO with HVER other than 1: class MGT only (R361). -/
  mgtOnly : Bool
  lanesOk : BitVec 4
  spared : Bool
  slane : BitVec 2
  swap : SwapState
  nextSeq : BitVec 10
  replay : List SentFlit
  outq : List OutFlit
  /-- The flits that the latest command to send on the port put on its lanes. -/
  pins : List Flit
  expect : BitVec 10
  /-- A NAK that is outstanding: its SEQ and the wall time it was sent. -/
  nak : Option (BitVec 10 × Nat)
  txLabels : List TxLabel
  nextXfer : Nat
  rxLabels : List RxLabel
  /-- Sent flits, and freed credits the far end reported, of buffer 2 × CLASS + VC (R347). -/
  sent : SMap (BitVec 16)
  freedSeen : SMap (BitVec 16)
  depth : SMap (BitVec 16)
  /-- Credits this end freed and reported, and since when one is unreported. -/
  freed : SMap (BitVec 16)
  reported : SMap (BitVec 16)
  unreported : Option Nat
  mgt : List MgtFrame
  /-- Accepted CREDIT frames' counters. -/
  credits : List (BitVec 160)
  sinceIdle : Nat
  flitsTx : W64
  flitsRx : W64
  crcFails : W64
  replays : W64
  fecCorrected : W64
  fecUncorrected : W64
  stomped : W64
  lastError : W64
  creditWait : W64
  transit : W64
  /-- NEIGHBOUR and NEIGHBOUR_STATE (Tables 13.6 and 13.7). -/
  neighbour : BitVec 960
  hellos : BitVec 16
  spareOk : Bool
  changed : Bool
  stale : Bool
  valid : Bool
  /-- The last HELLO sent, and the wall time it was sent. -/
  helloSent : Option (BitVec 960 × Nat)
  /-- The INIT flits that this end sent and received as the port last came UP (R325). -/
  initSent : Option InitInfo
  initSeen : Option InitInfo
  /-- Since which beat a SCHED flit waits without a credit (R350). -/
  schedWait : Option Nat
deriving DecidableEq, Repr

/-- Depths of Table 12.3. -/
def Port.depths : SMap (BitVec 16) :=
  [(0, 16#16), (1, 16#16), (2, 192#16), (3, 192#16), (4, 192#16), (5, 192#16), (6, 64#16), (7, 64#16),
   (8, 128#16), (9, 128#16)]

def Port.reset : Port :=
  { role := 1#8, channelNs := 10#8, channelType := 1#8, axis := 0#8, up := false, lock := false,
    retraining := false, excluded := false, mgtOnly := false, lanesOk := 0#4, spared := false, slane := 0#2,
    swap := .none, nextSeq := 0#10, replay := [], outq := [], pins := [], expect := 0#10, nak := none,
    txLabels := [], nextXfer := 0, rxLabels := [], sent := [], freedSeen := [], depth := Port.depths,
    freed := [], reported := [], unreported := none, mgt := [], credits := [], sinceIdle := 0,
    flitsTx := 0#64, flitsRx := 0#64, crcFails := 0#64, replays := 0#64, fecCorrected := 0#64,
    fecUncorrected := 0#64, stomped := 0#64, lastError := 0#64, creditWait := 0#64, transit := 0#64,
    neighbour := 0#960, hellos := 0#16, spareOk := false, changed := false, stale := false, valid := false,
    helloSent := none, initSent := none, initSeen := none, schedWait := none }

/-- Spare lane of a group: SPARE_STATE, and the NONCE received on it. -/
structure Spare where
  word : BitVec 32
  peer : W64
  /-- SWAP and SWAP_ACK messages that the latest command sent on the spare frames: acknowledgement, port, lane. -/
  sent : List (Bool × BitVec 5 × BitVec 2)
deriving DecidableEq, Repr

def Spare.reset : Spare := ⟨0#32, 0#64, []⟩

structure Eothar where
  ports : SMap Port
  spares : SMap Spare
  /-- 4040 CIRCUIT, and the circuits that the loaded program installed (R319). -/
  circuits : SMap (BitVec 32)
  installed : List (BitVec 32)
deriving DecidableEq, Repr

def Eothar.reset : Eothar := ⟨[], [], [], []⟩

/-! ### Ranks, signposts, classes (spec/12) -/

structure Ranks where
  myRank : BitVec 16
  jobSize : BitVec 32
  deskRank : BitVec 16
  gridCols : BitVec 16
  gridWrap : BitVec 8
  axisPorts : BitVec 32
  /-- 4150 SIGNPOST. -/
  signposts : SMap Pair64
  /-- The Steward's master copy of the signposts (R446). -/
  master : SMap W64
  lastRouteFault : W64
  gateClasses : BitVec 8
  gateState : BitVec 8
  /-- Read contexts in use, of 64 (R351). -/
  contexts : Nat
  reqRefused : W64
  mgtDropped : W64
  /-- Frames that wait for the units that take them: write acknowledgements of class RPL, HALT frames,
  and pass-along frames, each with its port. -/
  acks : List (BitVec 1024)
  halts : List (Nat × Flit)
  passAlong : List (Nat × BitVec 1024)
deriving DecidableEq, Repr

/-- A SIGNPOST entry that nothing has written: all 0 (Table 12.7). -/
def Ranks.noEntry : Pair64 := ⟨0#64, 0#64⟩

def Ranks.reset : Ranks :=
  ⟨0#16, 1#32, 0#16, 0#16, 0#8, 0#32, [], [], 0#64, 0#8, 0#8, 0, 0#64, 0#64, [], [], []⟩

/-! ### Discovery, time and reshaping (spec/13) -/

structure Shapes where
  bootNonce : W64
  jobDiameter : BitVec 8
  transitOnly : Bool
  timeParent : BitVec 8
  timeParent2 : BitVec 8
  /-- TIME_STATE: 0 free-running, 1 locking, 2 LOCKED. -/
  timeState : BitVec 2
  depth : BitVec 6
  backup : Bool
  /-- TIME_DEPTH has been raised since locking last began (R365). -/
  deepSaid : Bool
  offset : BitVec 32
  delay : BitVec 32
  /-- Consecutive exchanges that meet R368. -/
  goodExchanges : Nat
  timeLock : Bool
  timeSteps : BitVec 32
  trimPpm : BitVec 32
  /-- Wall time of the latest TIME request (R366), and of the write that started locking (Table 17.11). -/
  requestAt : Nat
  lockAt : Nat
  /-- The stored offset has been taken by a step (R368); this halt's resync has been sent on (R372). -/
  stepped : Bool
  resynced : Bool
  /-- Ports on which TIME requests have come: the children in the time tree. -/
  children : List Nat
  lastReshape : W64
  diameterExceeded : W64
  jobGate : BitVec 8
  jobGateState : BitVec 8
  epoch : BitVec 32
  /-- Ports whose member has reported in this round, the sum of their counts, the gated flits received since
  the previous round, and whether the previous round had every report. -/
  reported : List Nat
  reportCount : W64
  gatedReceived : W64
  roundDone : Bool
  reportSent : Bool
  /-- Management frames that the Steward has taken, with their ports (R352). -/
  inbox : List (Nat × MgtFrame)
deriving DecidableEq, Repr

def Shapes.reset : Shapes :=
  ⟨0#64, 0#8, false, 0xFF#8, 0xFF#8, 0#2, 0#6, false, false, 0#32, 0#32, 0, false, 0#32, 0#32, 0, 0, false, false, [], 0#64, 0#64, 0#8,
    0#8, 0#32, [], 0#64, 0#64, false, false, []⟩

/-! ### The front desk, lodgers and Reckoners (spec/14) -/

/-- A lodger record (Table 14.2), and whether a mask record has arrived for it (R388) and whether its last
sampled column had no candidate (R407). -/
structure Lodger where
  state : BitVec 4
  reason : BitVec 4
  wgen : BitVec 8
  adapter : BitVec 10
  aslot : Bool
  maskMode : BitVec 2
  maskSlot : BitVec 9
  nbias : BitVec 4
  nstop : BitVec 4
  lastToken : BitVec 18
  submitId : BitVec 32
  acceptSeq : BitVec 32
  seed : W64
  deadline : W64
  kvFill : Pair32
  genCount : Pair32
  promptLen : BitVec 32
  maxNew : BitVec 32
  temp : BitVec 32
  topP : BitVec 16
  minP : BitVec 16
  topK : BitVec 11
  cancel : Bool
  hasPending : Bool
  pending : BitVec 18
  promptAt : BitVec 23
  maskIndex : BitVec 32
  /-- EXT0 to EXT3: BASE room and COUNT; at most four. -/
  ext : List (BitVec 24 × BitVec 24)
  /-- Stop tokens 0 to 7, and bias entries 0 to 14, of which NSTOP and NBIAS are in use. -/
  stops : List (BitVec 18)
  biases : List (BitVec 18 × BitVec 32)
  maskArrived : Bool
  noCandidate : Bool
  /-- The token index that comes next (Table 14.5). -/
  nextIndex : BitVec 32
deriving DecidableEq, Repr

def Lodger.free : Lodger :=
  { state := 0#4, reason := 0#4, wgen := 0#8, adapter := 0x3FF#10, aslot := false, maskMode := 0#2,
    maskSlot := 0#9, nbias := 0#4, nstop := 0#4, lastToken := 0#18, submitId := 0#32, acceptSeq := 0#32,
    seed := 0#64, deadline := 0#64, kvFill := Pair32.of 0#32, genCount := Pair32.of 0#32, promptLen := 0#32,
    maxNew := 0#32, temp := 0#32, topP := 0#16, minP := 0#16, topK := 0#11, cancel := false,
    hasPending := false, pending := 0#18, promptAt := 0#23, maskIndex := 0#32, ext := [], stops := [],
    biases := [], maskArrived := false, noCandidate := false, nextIndex := 0#32 }

/-- A decided launch (R382, R385, Table 14.1), in program beats: shape, launch beat, decision beat, generation,
whether its records have been sent, and whether it has been performed, in the present run of the replay. -/
structure Decision where
  shape : BitVec 4
  at_ : Nat
  decidedAt : Nat
  wgen : BitVec 8
  /-- The switch launch (R429). -/
  switch : Bool
  sent : Bool
  done : Bool
deriving DecidableEq, Repr

/-- A launch record that a follower has read (R384). -/
structure Latched where
  step : W64
  at_ : Nat
  shape : BitVec 4
  wgen : BitVec 8
  live : BitVec 8
  old : BitVec 8
deriving DecidableEq, Repr

/-- A record in the inbox (R393, R461): its bytes, the program beat of its arrival, and the program beat of
the boundary that applied it. -/
structure InboxRec where
  bytes : List Byte
  arrived : Nat
  applied : Option Nat
deriving DecidableEq, Repr

/-- What waits for the commit of a boundary to be confirmed (R398, R460). -/
inductive ReleaseKind where
  | ack
  | token
  /-- A record that was ignored, which is then counted (R396). -/
  | ignored
deriving DecidableEq, Repr

/-- A record of a boundary, with the boundary's program beat. -/
structure Release where
  beat : Nat
  kind : ReleaseKind
  bytes : List Byte
deriving DecidableEq, Repr

/-- A column of a composed step that carries a lodger (R401): its place in the map, whether it is a generation
column, whether it is sampled, the lodger, the input token and the position. -/
structure StepCol where
  col : Nat
  gen : Bool
  sample : Bool
  lodger : Nat
  token : BitVec 18
  pos : BitVec 32
deriving DecidableEq, Repr

/-- What of the desk belongs to the commit snapshot (Table 16.5). The free rooms, prompt-store runs and mask
slots are those that no lodger in use holds. -/
structure DeskTable where
  lodgers : SMap Lodger
  acceptSeq : BitVec 32
  /-- Columns of the latest step that carry a lodger, and whether a boundary has yet to fold them in (R397). -/
  cols : List StepCol
  stepOpen : Bool
  /-- Generation of the latest step (R431). -/
  stepGen : BitVec 8
  /-- Program beats: launch of the latest step, its end (B of R261; at first START_BEAT), the latest boundary. -/
  launchAt : Nat
  stepEnd : Nat
  boundary : Option Nat
  /-- A follower's count of LAUNCH_BELL when it last read a launch record (R384). -/
  seen : BitVec 48
deriving DecidableEq, Repr

/-- A sampling column of a Reckoner (R404): lodger and token index. -/
structure SampleCol where
  lodger : Nat
  index : BitVec 32
deriving DecidableEq, Repr

/-- A Reckoner's working state (R405): its columns still to do, the STEP it waits for, the program beat at which the
condition was met, the program beat at which its current column ends, that column's logits as they were read, and
columns done. -/
structure Reckoner where
  cols : List SampleCol
  step : BitVec 48
  met : Option Nat
  ends : Option Nat
  logits : Memory
  done : Nat
deriving DecidableEq, Repr

def Reckoner.idle : Reckoner := ⟨[], 0#48, none, none, [], 0⟩

structure Desk where
  role : BitVec 8
  steadyShape : BitVec 8
  launchLead : BitVec 32
  /-- Decisions that a rewind could still replay, oldest first. -/
  decided : List Decision
  latched : List Latched
  tab : DeskTable
  inbox : List InboxRec
  releases : List Release
  /-- Prompt store (U32 tokens by offset) and mask slots (32 KiB bitmaps). -/
  prompts : SMap (BitVec 32)
  masks : SMap Memory
  lodgerLimit : BitVec 16
  maxContext : BitVec 32
  roomBase : W64
  roomsPerStack : BitVec 32
  groupTokens : BitVec 16
  groupRooms : BitVec 16
  mapHandle : BitVec 16
  launchHandle : BitVec 16
  launchBell : BitVec 16
  logitHandle : BitVec 16
  logitBell : BitVec 16
  logitFormat : BitVec 8
  vocab : BitVec 32
  reckoners : SMap Reckoner
  retired : SMap W64
  reckonerColumns : SMap W64
  noCandidate : SMap W64
  tokensReleased : W64
  lastBoundary : W64
  ignored : W64
  lastEvent : W64
  /-- Towers whose Reckoner was still at work at the boundary whose commit is due (R405). -/
  late : List Nat
  /-- Members that reported TRANSIT_ONLY (R383). -/
  transitMembers : List Nat
deriving DecidableEq, Repr

def DeskTable.empty : DeskTable := ⟨[], 0#32, [], false, 0#8, 0, 0, none, 0#48⟩

def Desk.reset : Desk :=
  { role := 0#8, steadyShape := 0xFF#8, launchLead := 0#32, decided := [], latched := [], tab := DeskTable.empty,
    inbox := [], releases := [], prompts := [], masks := [], lodgerLimit := 8192#16, maxContext := 131072#32,
    roomBase := 0#64, roomsPerStack := 0#32, groupTokens := 32#16, groupRooms := 1#16, mapHandle := 4095#16,
    launchHandle := 4094#16, launchBell := 8191#16, logitHandle := 4093#16, logitBell := 8190#16,
    logitFormat := 0#8, vocab := 131072#32, reckoners := [], retired := [], reckonerColumns := [],
    noCandidate := [], tokensReleased := 0#64, lastBoundary := 0#64, ignored := 0#64, lastEvent := 0#64,
    late := [], transitMembers := [] }

/-! ### Weights and the loader (spec/15) -/

/-- A loader request (R417): form 1 set, 2 in-place, 3 adapter; the adapter handle; MANIFEST_LOC as captured. -/
structure LoadReq where
  form : BitVec 2
  adapter : Nat
  loc : BitVec 128
deriving DecidableEq, Repr

/-- A run of image bytes: the shard that it belongs to (0xFFFFFFF = manifest and signature), first byte in the image,
length. -/
structure ImageRun where
  shard : Nat
  at_ : Nat
  len : Nat
deriving DecidableEq, Repr

/-- How a shard, or the manifest, is getting on: wall time from which its time-out runs (R425), sources tried after the
first (0 none, 1 flash, 2 peer), a peer request that waits for its port, cause of the latest failed attempt, its digest
has matched, and its 512 B units handed to porter 13 and written. -/
structure Landing where
  since : Option Nat
  tried : Nat
  asks : Bool
  cause : Nat
  checked : Bool
  handed : Nat
  units : Nat
deriving DecidableEq, Repr

def Landing.empty : Landing := ⟨none, 0, false, 0, false, 0, 0⟩

/-- The request in progress: target set, or adapter slot, and generation; the landing buffer, by byte of the image, with
the runs (first byte, end) that have landed and how many bytes it has let go; the manifest, and the shards by index;
runs that are still to be read from flash, and Reads outstanding. -/
structure ActiveLoad where
  req : LoadReq
  set : Bool
  gen : BitVec 8
  buf : Memory
  got : List (Nat × Nat)
  released : Nat
  manifest : Landing
  shards : SMap Landing
  want : List ImageRun
  reads : List ImageRun
  /-- Parts of the image sent down a pass-along chain: the manifest and signature, then the shards in order (R423). -/
  sent : Nat
  /-- The last frame of a SOURCE 3 image has come. -/
  passed : Bool
  /-- Every kept shard is written. -/
  ready : Bool
  /-- An in-place load has written a target (R426). -/
  wrote : Bool
  /-- Descriptors of the porters 13 in progress: shard, tower, 512 B units. -/
  writing : List (Nat × Nat × Nat)
deriving DecidableEq, Repr

/-- An adapter handle (Table 15.6). -/
structure Adapter where
  active : Bool
  queued : Bool
  st0 : BitVec 2
  st1 : BitVec 2
  pin0 : BitVec 16
  pin1 : BitVec 16
  /-- A load has made the idle slot READY, and no boundary has made it active since. -/
  fresh : Bool
  /-- MANIFEST_LOC as the write that set QUEUED captured it. -/
  loc : BitVec 128
deriving DecidableEq, Repr

def Adapter.empty : Adapter := ⟨false, false, 0#2, 0#2, 0#16, 0#16, false, 0#128⟩

/-- Generations and adapters, which belong to the commit snapshot (Table 16.5). -/
structure Gens where
  live : BitVec 8
  old : BitVec 8
  adapters : SMap Adapter
deriving DecidableEq, Repr

structure Loader where
  queue : List LoadReq
  active : Option ActiveLoad
  /-- WLOAD_STATE's STATE, FORM, SET, GEN, LAYER and SHARDS_DONE of the latest request. -/
  state : BitVec 4
  form : BitVec 2
  set : Bool
  gen : BitVec 8
  layer : BitVec 16
  shardsDone : BitVec 28
  failed : W64
  manifestLoc : BitVec 128
  barrier : Bool
  barrierState : BitVec 8
  gens : Gens
  lastSwitch : W64
  /-- The set-form (false) or in-place (true) load that is READY, with its generation. -/
  ready : Option (Bool × BitVec 8)
  /-- A SWITCH has been accepted: its program beat, the generation that it applies, and whether the load was in-place
  (R429); the program beat of the boundary that applied it. -/
  switchAt : Option (Nat × BitVec 8 × Bool)
  switched : Option Nat
  digest0 : BitVec 256
  digest1 : BitVec 256
  fill : SMap W64
  upPort : BitVec 8
  downPort : BitVec 8
  peerPort : BitVec 8
  timeoutMs : BitVec 16
  bytesLanded : W64
  retries : BitVec 32
  peerFetches : BitVec 32
  discarded : W64
  adapterCa : W64
  slotBytes : BitVec 32
  bothPinned : BitVec 8
  /-- Windows that the flash endpoint writes and reads (Table 15.3). -/
  landingWindow : Memory
  queueWindow : Memory
deriving DecidableEq, Repr

def Loader.reset : Loader :=
  { queue := [], active := none, state := 0#4, form := 0#2, set := false, gen := 0#8, layer := 0#16,
    shardsDone := 0#28, failed := 0#64, manifestLoc := 0#128, barrier := false, barrierState := 0#8,
    gens := ⟨0#8, 0#8, []⟩, lastSwitch := 0#64, ready := none, switchAt := none, switched := none, digest0 := 0#256, digest1 := 0#256, fill := [],
    upPort := 0xFF#8, downPort := 0xFF#8, peerPort := 0xFF#8, timeoutMs := 500#16, bytesLanded := 0#64,
    retries := 0#32, peerFetches := 0#32, discarded := 0#64, adapterCa := 0#64, slotBytes := 0#32,
    bothPinned := 0#8, landingWindow := [], queueWindow := [] }

/-! ### Integrity and rewind (spec/16), events (spec/18) -/

/-- The last three error classes of Table 16.1. -/
inductive ErrClass where
  | transient | jobFatal | moduleFatal
deriving DecidableEq, Repr

/-- One HALT frame that the member raised or received (Table 16.6). -/
structure HaltFrame where
  stop : Bool
  restart : Bool
  raiser : BitVec 16
  error : BitVec 32
  target : Nat
  raise : Nat
  omega : Nat
deriving DecidableEq, Repr

/-- An event of the log (R508, Table 18.7). -/
structure EventRec where
  seq : BitVec 32
  code : BitVec 16
  beat : W64
  body : List Byte
deriving DecidableEq, Repr

/-- Errors, commits, rewinds, Ledger and events. -/
structure Integ where
  errorCount : BitVec 32
  /-- Entry (number mod 64) + 1. -/
  errorRecord : SMap (BitVec 256)
  pantryCorrected : SMap W64
  larderCorrected : SMap W64
  otherCorrected : SMap W64
  lastCommit : Nat
  commits : W64
  /-- Ω of R452. -/
  jobOffset : Nat
  confirmed : Nat
  /-- Commits taken and not yet confirmed (R460): Milestone beat and program beat. -/
  unconfirmed : List (Nat × Nat)
  rewinds : BitVec 32
  lastResume : Nat
  lastInterruptionUs : BitVec 32
  lastFault : SMap W64
  ledger : SMap W64
  ledgerAcc : SMap W64
  /-- Layers that the step in progress touched. -/
  ledgerTouched : List Nat
  ledgerStep : W64
  ledgerEvents : BitVec 8
  fatalState : BitVec 8
  /-- A second module-fatal error has quieted every output (R443). -/
  quiet : Bool
  hallsOff : BitVec 192
  /-- The member has halted (R451). -/
  halted : Bool
  frames : List HaltFrame
  /-- RAISER and ERROR of every HALT of the job that the member has raised or seen (R450). -/
  seen : List (BitVec 16 × BitVec 32)
  /-- A fault has been raised since the last commit (R449). -/
  faulted : Bool
  /-- Wall times at which the member's rewinds began (R441). -/
  rewindWalls : List Nat
  /-- Beat at which the last rewind's fault became observable, and its wall time (R456). -/
  faultBeat : Nat
  faultWall : Nat
  interruptionOpen : Bool
  /-- Handling window of a job-fatal error: its error number (R442). -/
  window : Option (BitVec 32)
  /-- Words whose uncorrectable read raised the fault under way (R448): WHERE code, tower, index. -/
  failedReads : List (Nat × Nat × Nat)
  /-- Events raised and not yet numbered by the Steward: code, beat and body. -/
  raised : List (BitVec 16 × W64 × List Byte)
  eventNext : BitVec 32
  eventsLost : BitVec 32
  events : List EventRec
deriving DecidableEq, Repr

def Integ.reset : Integ :=
  { errorCount := 0#32, errorRecord := [], pantryCorrected := [], larderCorrected := [], otherCorrected := [],
    lastCommit := 0, commits := 0#64, jobOffset := 0, confirmed := 0, unconfirmed := [], rewinds := 0#32,
    lastResume := 0, lastInterruptionUs := 0#32, lastFault := [], ledger := [], ledgerAcc := [],
    ledgerTouched := [], ledgerStep := 0#64, ledgerEvents := 0#8, fatalState := 0#8, quiet := false,
    hallsOff := 0#192, halted := false, frames := [], seen := [], faulted := false, rewindWalls := [], faultBeat := 0,
    faultWall := 0, interruptionOpen := false, window := none, failedReads := [], raised := [],
    eventNext := 1#32, eventsLost := 0#32, events := [] }

/-! ### The object dictionary (spec/17) -/

/-- A reply or a COMPLETE that the Steward has formed (Table 17.4). -/
structure DictReply where
  path : DictPath
  inst : BitVec 16
  index : BitVec 16
  sub : BitVec 8
  opcode : BitVec 8
  status : BitVec 8
  tag : BitVec 16
  type : BitVec 8
  length : BitVec 16
  offset : BitVec 24
  value : List Byte
deriving DecidableEq, Repr

/-- A write answered PENDING (R486): its requester and object, and, once its operation has ended, the result
and the beat. -/
structure Owed where
  path : DictPath
  inst : BitVec 16
  index : BitVec 16
  sub : BitVec 8
  tag : BitVec 16
  ended : Option (Bool × Nat)
deriving DecidableEq, Repr

/-- An Eothar request that the desk rank has sent and that is unanswered (R490). -/
structure Asked where
  rank : BitVec 16
  message : BitVec 960
  tag : BitVec 16
  since : Nat
deriving DecidableEq, Repr

/-- A write that the desk rank applies at every member before it answers (R491). -/
structure FanOut where
  req : DictWrite
  index : BitVec 16
  sub : BitVec 8
  waiting : List (BitVec 16)
  /-- Lowest-ranked refusal so far: rank and status. -/
  refused : Option (BitVec 16 × BitVec 8)
  /-- TAG of the requests that it sent. -/
  tag : BitVec 16
deriving DecidableEq, Repr

structure Dictionary where
  /-- Messages that the Steward holds and has not served, with their path (R484, R485). -/
  waiting : List (DictPath × List Byte)
  /-- Replies and COMPLETEs that have left, newest last. -/
  replies : List DictReply
  owed : List Owed
  asked : List Asked
  nextTag : BitVec 16
  fans : List FanOut
  /-- Last reply to the desk rank for each TAG, with the wall time it was served (R490). -/
  stored : List (BitVec 16 × Nat × List DictReply)
deriving DecidableEq, Repr

def Dictionary.reset : Dictionary := ⟨[], [], [], [], 0#16, [], []⟩

/-! ### The Kloder link, the flash port and the I3C target (spec/15 Table 15.3, spec/18) -/

/-- A frame (R497): words H0 and H1 and the payload. -/
structure KFrame where
  h0 : W64
  h1 : W64
  payload : List Byte
deriving DecidableEq, Repr

/-- An unacknowledged frame in a replay buffer, how often it was sent, and since when it waits. -/
structure KSent where
  frame : KFrame
  times : Nat
  since : Nat
deriving DecidableEq, Repr

/-- Frames that wait for a credit: FIRST, LAST and the payload. -/
structure KWait where
  first : Bool
  last : Bool
  payload : List Byte
deriving DecidableEq, Repr

/-- One channel of the link (R498 to R501). -/
structure KChan where
  nextSeq : BitVec 32
  expect : BitVec 32
  replay : List KSent
  outq : List KWait
  /-- Frames with FIRST = 1 sent, credits that the adapter granted in its INIT, and its CFREED. -/
  sentFirst : BitVec 28
  granted : BitVec 32
  peerFreed : BitVec 28
  /-- Credits that this end has freed. -/
  freed : BitVec 28
  nak : Option (BitVec 32 × Nat)
  /-- Bytes of a record that is not yet complete. -/
  partial_ : List Byte
  /-- A changed expected SEQ or CFREED that has not been reported. -/
  unreported : Bool
deriving DecidableEq, Repr

def KChan.reset : KChan :=
  ⟨0#32, 0#32, [], [], 0#28, 0#32, 0#28, 0#28, none, [], false⟩

/-- A record of the outbound queue (R506): TOKEN or SUBMIT channel, its bytes, and the SEQ of its last frame
once sent. -/
structure OutRec where
  token : Bool
  bytes : List Byte
  seq : Option (BitVec 32)
deriving DecidableEq, Repr

structure Kloder where
  chans : SMap KChan
  up : Bool
  resumed : Bool
  retraining : Bool
  lock : Bool
  groups : BitVec 2
  lanesOk : BitVec 8
  peerNonce : W64
  /-- EXPECT of the adapter's last INIT was taken: this end's INIT has been sent since the last alignment. -/
  initSent : Bool
  crcFails : W64
  replays : W64
  fecCorrected : W64
  fecUncorrected : W64
  linkDowns : BitVec 32
  outQueue : List OutRec
  /-- Records of SUBMIT, and segments of BULK, that have arrived whole and that their unit has not taken. -/
  submits : List (List Byte)
  segments : List (List Byte)
  /-- Frames put on the lanes, newest last. -/
  pins : List KFrame
  /-- SUBMIT credits have been granted (end of bring-up). -/
  submitGranted : Bool
  /-- EVSEQ of each event sent, with the SEQ of its last frame, while unacknowledged. -/
  eventSeq : List (BitVec 32 × BitVec 32)
  /-- Events discarded since the last EVENTS_LOST record. -/
  lostUnsent : Nat
deriving DecidableEq, Repr

def Kloder.reset : Kloder :=
  ⟨[], false, false, false, false, 0#2, 0#8, 0#64, false, 0#64, 0#64, 0#64, 0#64, 0#32, [], [], [], [], false, [], 0⟩

/-- Bytes of a KIND 3 run that waits in the flash write buffer (R504). -/
structure FlashRun where
  ctrl : Bool
  nsid : BitVec 32
  offset : Nat
  bytes : List Byte
deriving DecidableEq, Repr

/-- An NVMe command that the module has issued (R415, R504). -/
inductive FlashCmd where
  /-- Write of whole logical blocks. -/
  | write (ctrl : Bool) (nsid : BitVec 32) (offset : Nat) (bytes : List Byte)
  /-- Flush for a KIND 4 segment: its TAG and OFFSET, and whether blocks were left partly covered. -/
  | flush (ctrl : Bool) (nsid : BitVec 32) (tag : BitVec 16) (offset : W64) (short : Bool)
deriving DecidableEq, Repr

structure Flash where
  mode : BitVec 8
  /-- 8101 and 8102, controller 0 and 1. -/
  state : SMap (BitVec 32)
  errors : SMap (BitVec 32)
  /-- PERST_N of a controller is high. -/
  perst : BitVec 2
  /-- log2 of the logical block size of namespace n of controller c, at key 2 n + c; 0 = none identified (R415). -/
  lba : SMap Nat
  /-- Bytes of a controller's largest Read or Write (MDTS); 0 = no limit. -/
  mdts : SMap Nat
  runs : List FlashRun
  /-- Writes and Flushes under way, oldest first; a Flush behind Writes of its namespace waits for them. -/
  issued : List FlashCmd
  /-- Namespaces with a Write that has failed since their last Flush. -/
  failed : List (Bool × BitVec 32)
  /-- A controller's link has trained in non-FLIT mode and is held down. -/
  heldDown : BitVec 2
  /-- Completions returned to the endpoint, newest last: the bytes read, or `none` for Unsupported Request. -/
  answers : List (Option (List Byte))
deriving DecidableEq, Repr

def Flash.reset : Flash := ⟨0#8, [], [], 0#2, [], [], [], [], [], 0#2, []⟩

/-- The I3C target (R488). -/
structure I3c where
  eid : BitVec 8
  address : BitVec 8
  dropped : BitVec 32
  /-- Messages that the target has put on the bus, newest last. -/
  sent : List (List Byte)
deriving DecidableEq, Repr

def I3c.reset : I3c := ⟨0#8, 0#8, 0#32, []⟩

/-! ### Bring-up, keys, attestation (spec/19), lands and test port (spec/20) -/

/-- How far a cold boot has come (Table 19.1). -/
inductive BootPhase where
  /-- Power lost: the regulators are off (R299). -/
  | off
  /-- Held in power-on reset (R514). -/
  | held
  /-- Phases 1 and 2: the boot ROM runs. -/
  | rom
  /-- Phase 4: the firmware runs, and the dictionary is not open. -/
  | firmware
  /-- Phase 5: the dictionary is open. -/
  | opened
  /-- Bring-up has ended (R516). -/
  | ready
deriving DecidableEq, Repr

/-- An attestation report that is being signed (R526). -/
structure Attest where
  path : DictPath
  tag : BitVec 16
  body : List Byte
deriving DecidableEq, Repr

structure Boot where
  phase : BootPhase
  /-- Wall time of t0. -/
  t0 : Nat
  cause : BitVec 8
  failed : Bool
  bist : Bool
  cellarDone : Bool
  eotharDone : Bool
  f0Done : Bool
  /-- The strap KMODE as phase 1 read it (R535). -/
  kmode : Bool
  /-- Received firmware bytes, and the 1,024 B blocks that have arrived (R519). -/
  image : Memory
  blocks : SMap Bool
  version : W64
  digest : BitVec 256
  bringupMs : BitVec 32
  bistHalls : BitVec 192
  /-- Installed keys, 1,793 B each; all zeros when not installed (R522). -/
  programKey : Memory
  weightKey : Memory
  programDigest : BitVec 256
  weightDigest : BitVec 256
  /-- The identity key pair (R524). -/
  idPublic : List Byte
  idPrivate : List Byte
  idState : BitVec 8
  /-- The identity key has been derived in this boot. -/
  derived : Bool
  report : Memory
  attestCount : BitVec 32
  attest : Option Attest
  /-- Fuses that are being programmed, in order: test-close (true) or debug-close (R528). -/
  fuses : List Bool
  /-- Every output is quiet (R299, R513). -/
  outputsQuiet : Bool
deriving DecidableEq, Repr

def Boot.reset : Boot :=
  { phase := .held, t0 := 0, cause := 0#8, failed := false, bist := false, cellarDone := false,
    eotharDone := false, f0Done := false, kmode := false, image := [], blocks := [],
    version := 0#64, digest := 0#256, bringupMs := 0#32, bistHalls := 0#192, programKey := [], weightKey := [],
    programDigest := 0#256, weightDigest := 0#256, idPublic := [], idPrivate := [], idState := 0#8, derived := false, report := [],
    attestCount := 0#32, attest := none, fuses := [], outputsQuiet := true }

/-- The data register that the TAP's instruction selects (Table 20.5). -/
inductive TapReg where
  | idcode | bypass | boundary
deriving DecidableEq, Repr

/-- What drives the lands (R540, R541): the module, or, out of the latch, the levels of EXTEST, single pulses, pulse
trains or CLAMP's levels; or nothing (HIGHZ). -/
inductive LandDrive where
  | module | levels | pulses | trains | clamp | highZ
deriving DecidableEq, Repr

/-- The test access port (R537 to R542). -/
structure Tap where
  ir : BitVec 8
  reg : TapReg
  drive : LandDrive
  /-- What the selected data register last captured, and what shifts out of it. -/
  dr : BitVec 355
  /-- The boundary-scan cells as last updated. -/
  latch : BitVec 355
deriving DecidableEq, Repr

/-- 0x1724_0A4D (R539). -/
def tapId : BitVec 355 := 0x17240A4D#355

def Tap.reset : Tap := ⟨0x01#8, .idcode, .module, tapId, 0#355⟩

/-- The TAP has taken the lands from the module (R540). -/
def Tap.landsTaken (t : Tap) : Bool := t.drive != .module

/-! ### Commit snapshots (spec/16 Table 16.5) -/

/-- The schedule objects of a snapshot: A032.01 to A032.03 and the step in progress. -/
structure LaunchSnap where
  launches : W64
  lastBeat : Nat
  lastShape : BitVec 8
  step : Option (Nat × BitVec 4)
  nextCommit : Nat
deriving DecidableEq, Repr

/-- The control state of the commit at program beat `beat`. In the cores the parts that Table 16.5 leaves out are blank. -/
structure Snapshot where
  beat : Nat
  omega : Nat
  bells : SMap Pair64
  posts : SMap Post
  seqs : SMap (BitVec 32)
  mc : SMap MCore
  vc : SMap VCore
  ftq : SMap Ftq
  cellar : SMap Stack
  table : DeskTable
  launch : LaunchSnap
  gens : Gens
  reckoners : SMap Reckoner
  ledgerAcc : SMap W64
  ledgerTouched : List Nat
deriving DecidableEq, Repr

/-! ### The machine -/

/-- Where the machine stops with a fault. -/
inductive Fault where
  /-- A command that names a core, Pantry, slice or porter of a disabled hall (R13: it cannot be addressed);
  raised by every command that carries a hall, and by the start of a porter descriptor whose endpoint is a Pantry or
  slice of a disabled hall, or a hall of 48 to 63 where the hall counts: spec/ does not say what such an endpoint meets
  (DESIGN CHOICE, log row 52). Safe: the machine stops where the hardware has nothing. -/
  | disabledHall
deriving DecidableEq, Repr

/-- Where the model gives no next state. -/
inductive Refusal where
  /-- The command has no meaning in this model; raised by a refused arm of `exec` only. Safe. -/
  | notModelled (mnemonic : String)
  /-- A private TAP opcode before the test-close fuse is blown, whose behaviour the spec does not give (R538);
  raised by TAP_PRIVATE. Safe. -/
  | privateTap
deriving DecidableEq, Repr

/-- Everything the spec gives the module, and the queue of the commands that wait. -/
structure State where
  pending : List Instr
  /-- The Milestone count (R364). -/
  milestone : Nat
  /-- Wall time since the model's reset, in units of 1 / (60 MHz × wallUnit). -/
  wall : Nat
  /-- Free values drawn so far. -/
  draws : Nat
  part : Part
  modes : Modes
  mc : SMap MCore
  vc : SMap VCore
  ftq : SMap Ftq
  /-- Pantry of core c of module hall h at key 3 h + c (R141). -/
  pantry : SMap Memory
  /-- Slice 144 t + s; byte 512 row + b (R146). -/
  larder : SMap Memory
  /-- Stack by the code of spec/06. -/
  cellar : SMap Memory
  ld : LarderCtl
  pb : PostsBells
  job : Job
  integ : Integ
  clock : Clock
  cel : Cellars
  por : Porters
  eo : Eothar
  ranks : Ranks
  shp : Shapes
  desk : Desk
  loader : Loader
  dict : Dictionary
  kl : Kloder
  flash : Flash
  i3c : I3c
  boot : Boot
  tap : Tap
  /-- The four most recent snapshots, newest first (R449). -/
  snaps : List Snapshot
deriving DecidableEq, Repr

namespace State

/-- The part that the model takes: grade A, every hall enabled, no fuse of Table 1.8 but MAP_FUSED and
ID_SEED blown (DESIGN CHOICE, log row 5). -/
def fusedPart : Part := ⟨1#8, List.replicate 16 0x30#8, 0#16, 0#192, true, true, false, false⟩

/-- The machine right after reset. -/
def reset : State :=
  { pending := [], milestone := 0, wall := 0, draws := 0, part := fusedPart, modes := ⟨0#8, false, 0#64⟩,
    mc := [], vc := [], ftq := [], pantry := [], larder := [], cellar := [], ld := LarderCtl.reset,
    pb := PostsBells.reset, job := Job.absent, integ := Integ.reset, clock := Clock.reset,
    cel := Cellars.reset, por := Porters.reset, eo := Eothar.reset, ranks := Ranks.reset, shp := Shapes.reset,
    desk := Desk.reset, loader := Loader.reset, dict := Dictionary.reset, kl := Kloder.reset,
    flash := Flash.reset, i3c := I3c.reset, boot := Boot.reset, tap := Tap.reset, snaps := [] }

end State

end Sys2Proof.Machine
end

