-- ==== Sys2Proof/Machine/Base.lean ====
section
/-! DEFINITION. Base operations over the state: time, geometry, registers and memories, arbitration, events. -/

namespace Sys2Proof.Machine

/-- The three outcomes, shortly. -/
abbrev Res := Host.Outcome State Fault Refusal

/-! ### Time (R1, R2, R364) -/

/-- Units of wall time per cycle of 60 MHz: 8 × lcm (20, …, 35), so that a beat and an eighth of a beat are
whole at every operating point. -/
def wallUnit : Nat := 60801495955200

/-- Wall units in one beat at an operating point: the rate is 60 × (20 + k) MHz (spec/10). -/
def beatUnits (op : Nat) : Nat := wallUnit / (20 + op)

/-- Wall units in `us` microseconds. -/
def wallOfUs (us : Nat) : Nat := 60 * us * wallUnit

/-- Beats in `num / den` microseconds at an operating point, rounded up. -/
def beatsOfUs (op num den : Nat) : Nat := ceilDiv (60 * (20 + op) * num) den

/-- Millionths in Q16.16. -/
def ppmUnit : Int := 1000000 * 65536

/-- Wall units that last `w` at the untrimmed rate, at the rate as trimmed (R368). -/
def State.trimmed (s : State) (w : Nat) : Nat := ((w * ppmUnit) / (ppmUnit + s.shp.trimPpm.toInt)).toNat

/-- The module's stretch count after `n` more beats: it is the largest count of any region, and only a region that
stretches on its own margin passes the others', by a beat a beat (R281). -/
def Clock.stretchAfter (c : Clock) (n : Nat) : Nat :=
  if n = 0 then c.stretched else c.regions.foldl (fun a e => if e.2.own then max a (min e.2.count c.stretched + n) else a) c.stretched

/-- `n` beats pass over the stretch counts. -/
def Clock.pass (c : Clock) (n : Nat) : Clock :=
  if n = 0 then c
  else { c with
    regions := c.regions.map fun e => (e.1, if e.2.own then { e.2 with count := e.2.count + n } else e.2),
    stretched := c.stretchAfter n,
    stretchPast := [1, 2, 3].map fun k => if k ≤ n then c.stretchAfter (n - k) else c.stretchPast.getD (k - n - 1) 0 }

/-- Wall units of `n` beats in force; a stretched beat lasts 9/8 (R280, R283). -/
def State.wallOf (s : State) (n : Nat) : Nat :=
  s.trimmed (n * beatUnits s.clock.opNow.toNat
    + (s.clock.stretchAfter n - s.clock.stretched) * (beatUnits s.clock.opNow.toNat / 8))

/-- Time passes up to beat `b`; the count never falls. -/
def State.pass (s : State) (b : Nat) : State :=
  { s with milestone := max s.milestone b,
           wall := s.wall + s.wallOf (b - s.milestone),
           clock := s.clock.pass (b - s.milestone) }

/-- The smallest of a region's eight codes (R279). -/
def marginOf (codes : BitVec 32) : Nat :=
  (List.range 8).foldl (fun m i => min m (codes.extractLsb' (4 * i) 4).toNat) 15

/-- The stretched beats that beat region `r` has made: as many as the module's count of up to 3 beats ago, or more on its own
margin (R281, R283). -/
def Clock.regionCount (c : Clock) (r : Nat) : Nat :=
  let e := SMap.get Region.idle c.regions r
  if e.own then e.count
  else max e.count ((c.stretched :: c.stretchPast).getD (Config.mirrorLag r).toNat 0)

/-- Wall units in `ns` nanoseconds. -/
def wallOfNs (ns : Nat) : Nat := 60 * ns * wallUnit / 1000

/-- The Steward writes the pair 1100.07 anew, as a mode changes or its check has failed. -/
def State.modesWritten (s : State) : State := { s with modes := { s.modes with wordUpset := 0#64 } }

/-! ### Geometry (R12, R148, R162) -/

/-- Tower of a module hall. -/
def hallTower (h : Nat) : Nat := h / 48

/-- Tile number 12 y + x of core c of module hall h within its tower; also the core's agent code (Table 5.7). -/
def tileOf (h c : Nat) : Nat := 12 * (h % 48 / 4) + 3 * (h % 4) + c

/-- Module hall of tower tile n. -/
def hallOfTile (t n : Nat) : Nat := 48 * t + 4 * (n / 12) + n % 12 / 3

/-- The hall is not fused off (R13). -/
def State.hallEnabled (s : State) (h : Nat) : Bool := decide (h < 192) && !s.part.disabled.getLsbD h

/-- The slices of a tower that the core at tile n reaches, own slice first, then north, east, south, west
(R148). -/
def State.reach (s : State) (t n : Nat) : List Nat :=
  let x := n % 12
  let y := n / 12
  ([n] ++ (if 0 < y then [n - 12] else []) ++ (if x < 11 then [n + 1] else [])
    ++ (if y < 11 then [n + 12] else []) ++ (if 0 < x then [n - 1] else [])).filter
      fun m => s.hallEnabled (hallOfTile t m)

/-- Keys of a core's Pantry. -/
def mPantryKey (c : Nat) : Nat := 3 * (c / 2) + c % 2
def vPantryKey (h : Nat) : Nat := 3 * h + 2

/-- Pantry bytes of a core (R141). -/
def pantrySize (key : Nat) : Nat := if key % 3 = 2 then 2 ^ 19 else 2 ^ 20

/-! ### Cores and memories -/

def State.mcore (s : State) (c : Nat) : MCore := SMap.get MCore.idle s.mc c
def State.setMcore (s : State) (c : Nat) (m : MCore) : State := { s with mc := SMap.set MCore.idle s.mc c m }
def State.vcore (s : State) (h : Nat) : VCore := SMap.get VCore.idle s.vc h
def State.setVcore (s : State) (h : Nat) (v : VCore) : State := { s with vc := SMap.set VCore.idle s.vc h v }
def State.queue (s : State) (c : Nat) : Ftq := SMap.get Ftq.empty s.ftq c
def State.setQueue (s : State) (c : Nat) (q : Ftq) : State := { s with ftq := SMap.set Ftq.empty s.ftq c q }

def State.pantryOf (s : State) (key : Nat) : Memory := SMap.get [] s.pantry key
def State.setPantry (s : State) (key : Nat) (m : Memory) : State :=
  { s with pantry := SMap.set [] s.pantry key m }
def State.sliceOf (s : State) (k : Nat) : Memory := SMap.get [] s.larder k
def State.setSlice (s : State) (k : Nat) (m : Memory) : State := { s with larder := SMap.set [] s.larder k m }
def State.stackOf (s : State) (k : Nat) : Memory := SMap.get [] s.cellar k
def State.setStack (s : State) (k : Nat) (m : Memory) : State := { s with cellar := SMap.set [] s.cellar k m }

/-- A byte of a Pantry; addresses wrap (R141). -/
def State.pantryByte (s : State) (key a : Nat) : Byte := (s.pantryOf key).read (a % pantrySize key)

/-- `n` bytes of a Pantry, little-endian, wrapping. -/
def State.pantryLE (s : State) (key a : Nat) : Nat → Nat
  | 0 => 0
  | n + 1 => (s.pantryByte key a).toNat + 256 * State.pantryLE s key (a + 1) n

/-- Store bytes into a Pantry, wrapping. -/
def pantryStore (size : Nat) (m : Memory) (a : Nat) : List Byte → Memory
  | [] => m
  | b :: bs => pantryStore size (m.write (a % size) b) (a + 1) bs

def State.pantryWrite (s : State) (key a : Nat) (bs : List Byte) : State :=
  s.setPantry key (pantryStore (pantrySize key) (s.pantryOf key) a bs)

/-- `n` bytes of a Pantry as a window of their own, wrapping. -/
def State.pantryWindow (s : State) (key a n : Nat) : Memory :=
  let size := pantrySize key
  let m := s.pantryOf key
  let a := a % size
  m.window a n ++ ((m.window 0 (a + n - size)).map fun e => (size - a + e.1, e.2))

def State.reckoner (s : State) (t : Nat) : Reckoner := SMap.get Reckoner.idle s.desk.reckoners t
def State.setReckoner (s : State) (t : Nat) (r : Reckoner) : State :=
  { s with desk := { s.desk with reckoners := SMap.set Reckoner.idle s.desk.reckoners t r } }

/-! ### Larder rows (R146, R154) -/

/-- A window of 512 bytes, turned so that byte 16 k stands first. -/
def rotWindow (w : Memory) (k : Nat) : Memory :=
  let cut := 16 * (k % 32)
  ((w.filter fun e => decide (cut ≤ e.1)).map fun e => (e.1 - cut, e.2))
    ++ ((w.filter fun e => decide (e.1 < cut)).map fun e => (e.1 + 512 - cut, e.2))

/-- Row `off` of a region that begins at physical row `row0` of slice `k`: in grid mode, element j stands in
bank (off + j) mod 32. -/
def State.readRow (s : State) (k row0 off : Nat) (grid : Bool) : Memory :=
  let w := (s.sliceOf k).window (512 * (row0 + off)) 512
  if grid then rotWindow w off else w

/-- Write such a row whole. -/
def State.writeRow (s : State) (k row0 off : Nat) (grid : Bool) (w : Memory) : State :=
  let w' := if grid then rotWindow w (32 - off % 32) else w
  s.setSlice k ((s.sliceOf k).place (512 * (row0 + off)) 512 w')

/-! ### Counters of 64 bits per tower, hall or port -/

def bump (m : SMap W64) (k n : Nat) : SMap W64 := SMap.modify 0#64 m k (· + BitVec.ofNat 64 n)

/-! ### Slices and banks -/

/-- The module hall that owns slice 144 t + n. -/
def sliceHall (k : Nat) : Nat := hallOfTile (k / 144) (k % 144)

/-- Resource number of a Pantry bank (R142). -/
def pantryBank (key granule : Nat) : Nat :=
  1000 + 8 * key + (if key % 3 = 2 then granule / 4096 % 4 else granule / 4096 % 8)

/-- A free value of the model (log row 6). -/
def State.draw (s : State) : State × W64 := ({ s with draws := s.draws + 1 }, Config.freeWord s.draws)

/-! ### Events (R508) -/

/-- Raise an event: the Steward numbers it, logs it and sends it in the step EVENT. Its BEAT is 0 before
bring-up ends. -/
def State.event (s : State) (code : BitVec 16) (body : List Byte) : State :=
  let beat : W64 := if s.boot.phase = .ready then BitVec.ofNat 64 s.milestone else 0#64
  { s with integ := { s.integ with raised := s.integ.raised ++ [(code, beat, body)] } }

end Sys2Proof.Machine
end

