-- ==== Sys2Proof/Machine/Mesh.lean ====
section
/-! DEFINITION. The mesh planes and bridges: routes, and the links of a route (R18, R199, R200,
R202, Table 7.6, Table 7.7). -/

namespace Sys2Proof.Machine

/-- One link of a route: its resource, packets per beat, beats to the next router, tower whose counter takes
the beats lost. -/
structure Hop where
  res : Nat
  cap : Nat
  delay : Nat
  tower : Nat
deriving DecidableEq, Repr

/-! ### Bridges (R199, R200) -/

/-- Place of a tower on the ring T0, T1, T3, T2, clockwise. -/
def ringPlace (t : Nat) : Nat := if t = 2 then 3 else if t = 3 then 2 else t

/-- Tower at a place of the ring. -/
def ringTower (p : Nat) : Nat := ringPlace (p % 4)

/-- Clockwise bridges from one tower to another. -/
def clockwise (a b : Nat) : Nat := (ringPlace b + 4 - ringPlace a) % 4

/-- The towers that a packet enters, in order (R200). -/
def towerPath (a b route : Nat) : List Nat :=
  let cw := clockwise a b
  let ccw := (4 - cw) % 4
  if route = 1 ∨ (route = 0 ∧ cw ≤ 2) then (List.range cw).map fun i => ringTower (ringPlace a + i + 1)
  else (List.range ccw).map fun i => ringTower (ringPlace a + 4 - (i + 1))

/-- Bridges that a route crosses. -/
def bridgesOn (a b route : Nat) : Nat := (towerPath a b route).length

/-! ### Routes within a tower (R199) -/

/-- Mesh link of tower `t` out of tile `n` on a plane. Directions: 0 north, 1 east, 2 south, 3 west. -/
def meshHop (t plane n dir : Nat) : Hop := ⟨10000 + ((t * 144 + n) * 4 + dir) * 2 + plane, 1, 2, t⟩

/-- Bridge from tower `a` to tower `b`: 14 packets a beat, both planes together. -/
def bridgeHop (a b : Nat) : Hop := ⟨20000 + 4 * a + b, 14, 10, a⟩

/-- The X path along row `y` from `x` to `x'`. -/
def xPath (t plane y x x' : Nat) : List Hop :=
  if x ≤ x' then (List.range (x' - x)).map fun i => meshHop t plane (12 * y + x + i) 1
  else (List.range (x - x')).map fun i => meshHop t plane (12 * y + x - i) 3

/-- The Y path along column `x` from `y` to `y'`. -/
def yPath (t plane x y y' : Nat) : List Hop :=
  if y ≤ y' then (List.range (y' - y)).map fun i => meshHop t plane (12 * (y + i) + x) 2
  else (List.range (y - y')).map fun i => meshHop t plane (12 * (y - i) + x) 0

/-- X first, then Y, between two tiles of one tower. -/
def tilePath (t plane a b : Nat) : List Hop :=
  xPath t plane (a / 12) (a % 12) (b % 12) ++ yPath t plane (b % 12) (a / 12) (b / 12)

/-- Column (west to east) and row (north to south) of a tower, seen from the lid (R10). -/
def towerCol (t : Nat) : Nat := t % 2
def towerRow (t : Nat) : Nat := t / 2

/-- The tile of the facing edge, and the tile of entry beyond the bridge, for a packet at tile `n` that passes
from tower `a` to tower `b` (R199). -/
def edgeTile (a b n : Nat) : Nat :=
  if towerRow a = towerRow b then 12 * (n / 12) + (if towerCol a < towerCol b then 11 else 0)
  else (if towerRow a < towerRow b then 132 else 0) + n % 12

def entryTile (a b n : Nat) : Nat :=
  if towerRow a = towerRow b then 12 * (n / 12) + (if towerCol a < towerCol b then 0 else 11)
  else (if towerRow a < towerRow b then 0 else 132) + n % 12

/-- The links across the bridges, with the tower and tile reached. -/
def bridgePath (plane : Nat) : Nat → Nat → List Nat → List Hop × Nat × Nat
  | t, n, [] => ([], t, n)
  | t, n, t' :: ts =>
    let r := bridgePath plane t' (entryTile t t' n) ts
    (tilePath t plane n (edgeTile t t' n) ++ [bridgeHop t t'] ++ r.1, r.2)

/-- Every link of a packet's route on a plane. -/
def meshRoute (plane route t n t' n' : Nat) : List Hop :=
  let r := bridgePath plane t n (towerPath t t' route)
  r.1 ++ tilePath r.2.1 plane r.2.2 n'

/-- Beats of a route with no loss. -/
def routeBeats (hops : List Hop) : Nat := (hops.map (·.delay)).sum

/-! ### Attachment tiles (Table 7.6) -/

/-- Attachment tile of a stack code (0 to 23) within its tower. -/
def stackTile (k : Nat) : Nat :=
  if k < 16 then (match k % 4 with | 0 => 24 | 1 => 108 | 2 => 35 | _ => 119)
  else if k % 2 = 0 then 5 else 138

/-- Tower of a stack code (R170). -/
def stackTower (k : Nat) : Nat := if k < 16 then k / 4 else (k - 16) / 2

/-- Attachment tile and tower of Eothar port `p`. -/
def portTile (p : Nat) : Nat := if p % 8 < 4 then 1 + 3 * (p % 4) else 133 + 3 * (p % 4)
def portTower (p : Nat) : Nat := p / 8

end Sys2Proof.Machine
end

