-- ==== Sys2Proof/Machine/Wire.lean ====
section
/-! DEFINITION. The Eothar ports' shared operations: flits and their CRC, virtual channels, credits, labels, sending,
replay and acknowledgement (spec/11, spec/12). -/

namespace Sys2Proof

/-! ### Flits (R305, R306, Tables 11.2 to 11.5) -/

/-- One bit of CRC-32C, reflected: polynomial 0x1EDC_6F41. -/
def crc32Bit (r : BitVec 32) : BitVec 32 :=
  if r.getLsbD 0 then (r >>> 1) ^^^ 0x82F63B78#32 else r >>> 1

def crc32Byte (r : BitVec 32) (b : Byte) : BitVec 32 :=
  let r := r ^^^ b.setWidth 32
  crc32Bit (crc32Bit (crc32Bit (crc32Bit (crc32Bit (crc32Bit (crc32Bit (crc32Bit r)))))))

/-- CRC-32C of R306. -/
def crc32c (bs : List Byte) : BitVec 32 := ~~~(bs.foldl crc32Byte 0xFFFFFFFF#32)

/-- The computed CRC of a flit, over bytes 0 to 135. -/
def Flit.computed (f : Flit) : BitVec 32 := crc32c (Machine.bytesLE (f.payload ++ f.hdr).toNat 136)

def Flit.type (f : Flit) : BitVec 4 := f.hdr.extractLsb' 60 4
def Flit.cls (f : Flit) : BitVec 3 := f.hdr.extractLsb' 57 3
def Flit.vc (f : Flit) : Bool := f.hdr.getLsbD 56
def Flit.seq (f : Flit) : BitVec 10 := f.hdr.extractLsb' 46 10
def Flit.ack (f : Flit) : BitVec 10 := f.hdr.extractLsb' 36 10
def Flit.label (f : Flit) : BitVec 10 := f.hdr.extractLsb' 26 10
def Flit.hops (f : Flit) : BitVec 6 := f.hdr.extractLsb' 20 6
def Flit.inj (f : Flit) : BitVec 20 := f.hdr.setWidth 20

end Sys2Proof

namespace Sys2Proof.Machine

def typeIdle : BitVec 4 := 0#4
def typeNak : BitVec 4 := 1#4
def typeInit : BitVec 4 := 2#4
def typeHead : BitVec 4 := 3#4
def typeData : BitVec 4 := 4#4
def typeLast : BitVec 4 := 5#4
def typeSingle : BitVec 4 := 6#4

def clsMgt : BitVec 3 := 0#3
def clsSched : BitVec 3 := 1#3
def clsColl : BitVec 3 := 2#3
def clsReq : BitVec 3 := 3#3
def clsRpl : BitVec 3 := 4#3

/-- Input buffer of a class and virtual channel (R347). -/
def bufferOf (cls : BitVec 3) (vc : Bool) : Nat := 2 * cls.toNat + vc.toNat

/-- Word k of a 128 B payload (RBk, SB0, and HBk as word k + 1). -/
def payWord (p : BitVec 1024) (k : Nat) : W64 := p.extractLsb' (64 * k) 64

/-- A SINGLE's payload (Table 11.5). -/
def singleOf (kind : BitVec 8) (drank srank : BitVec 16) (body : BitVec 960) : BitVec 1024 :=
  body ++ (kind ++ drank ++ srank ++ 0#24)

def singleKind (p : BitVec 1024) : BitVec 8 := p.extractLsb' 56 8
def singleDrank (p : BitVec 1024) : BitVec 16 := p.extractLsb' 40 16
def singleSrank (p : BitVec 1024) : BitVec 16 := p.extractLsb' 24 16
def singleBody (p : BitVec 1024) : BitVec 960 := p.extractLsb' 64 960

/-- MTYPE of a management frame (R348). -/
def mtype (p : BitVec 1024) : BitVec 8 := p.extractLsb' 64 8

/-- A HEAD's route block (Table 11.4). -/
def routeBlock (drank srank : BitVec 16) (w0 : W64) (dest src : BitVec 128) (w5 : W64) : BitVec 1024 :=
  0#512 ++ 0#64 ++ w5 ++ src ++ dest ++ w0 ++ (drank ++ srank ++ 0#32)

def headDrank (p : BitVec 1024) : BitVec 16 := p.extractLsb' 48 16
def headSrank (p : BitVec 1024) : BitVec 16 := p.extractLsb' 32 16
def headW0 (p : BitVec 1024) : W64 := payWord p 1
def headDest (p : BitVec 1024) : BitVec 128 := p.extractLsb' 128 128
def headSrc (p : BitVec 1024) : BitVec 128 := p.extractLsb' 256 128
def headW5 (p : BitVec 1024) : W64 := payWord p 6
def headTag (p : BitVec 1024) : BitVec 16 := (headW0 p).extractLsb' 24 16

/-- A REQ HEAD that reads: its source endpoint is remote. No LAST follows it, so it closes its own label (log
row 15). -/
def isReadHead (cls : BitVec 3) (p : BitVec 1024) : Bool := cls == clsReq && (headSrc p).getLsbD 61

/-! ### Ports and their registers -/

def State.port (s : State) (p : Nat) : Port := SMap.get Port.reset s.eo.ports p
def State.setPort (s : State) (p : Nat) (x : Port) : State :=
  { s with eo := { s.eo with ports := SMap.set Port.reset s.eo.ports p x } }

/-- R336. -/
def Port.carriesJob (p : Port) : Bool := p.role != 0#8 && p.up && !p.excluded && !p.mgtOnly

/-- Record a link error (Table 11.11). -/
def linkErrorWord (cause lane seq label cls : Nat) : W64 :=
  BitVec.ofNat 4 cause ++ BitVec.ofNat 2 lane ++ BitVec.ofNat 10 seq ++ BitVec.ofNat 10 label
    ++ BitVec.ofNat 3 cls ++ 0#35

/-! ### Virtual channels (R345) -/

/-- VC on which a flit leaves port `out`, having arrived on port `in_` on `vc` (none: injected here). -/
def State.outVc (s : State) (out : Nat) (in_ : Option (Nat × Bool)) : Bool :=
  let a := (s.port out).axis
  a.getLsbD 7 ||
    (match in_ with
     | none => false
     | some (i, vc) => vc && ((s.port i).axis.extractLsb' 0 3 == a.extractLsb' 0 3))

/-! ### Sending (R309, R310, R314, R346, R350) -/

/-- A CREDIT frame (R347). -/
def OutFlit.isCredit (f : OutFlit) : Bool :=
  f.type == typeSingle && f.cls == clsMgt && singleKind f.payload == 5#8 && mtype f.payload == 3#8

/-- CREDIT and HALT frames need no credit (R347, R450). -/
def OutFlit.isFree (f : OutFlit) : Bool :=
  f.isCredit || (f.type == typeSingle && f.cls == clsMgt && singleKind f.payload == 7#8)

/-- Available credit of a buffer (R347). -/
def Port.credit (p : Port) (b : Nat) : Nat :=
  (SMap.get 0#16 p.depth b).toNat - (SMap.get 0#16 p.sent b - SMap.get 0#16 p.freedSeen b).toNat

/-- First label of a class and VC (R309). -/
def labelBase (cls : BitVec 3) (vc : Bool) : Nat := 100 * bufferOf cls vc

/-- The lowest free label of a class and VC. -/
def Port.freeLabel (p : Port) (cls : BitVec 3) (vc : Bool) : Option (BitVec 10) :=
  ((List.range 100).map fun i => BitVec.ofNat 10 (labelBase cls vc + i)).find? fun l =>
    !(p.txLabels.any fun e => e.label == l)

/-- The label that a flit leaves with: none where it must wait for one. -/
def Port.labelFor (p : Port) (f : OutFlit) : Option (BitVec 10) :=
  match f.label with
  | some l => some l
  | none =>
    if f.type = typeHead then p.freeLabel f.cls f.vc
    else if f.type = typeSingle then some 0#10
    else (p.txLabels.find? fun e => e.xfer == f.xfer).map (·.label)

/-- The gate holds what a member's own porters, send stages and read contexts would inject in a gated class (R356): it is
not injected, and looks for its route only after the release. -/
def State.gated (s : State) (cls : BitVec 3) : Bool :=
  s.ranks.gateState != 0#8 && s.ranks.gateClasses.getLsbD cls.toNat

/-- A flit may leave port `p` now. -/
def Port.sendable (p : Port) (f : OutFlit) : Bool :=
  p.up && decide (p.replay.length < 512) && decide (p.sinceIdle < 4095)
    && (p.labelFor f).isSome && (f.isFree || decide (0 < p.credit (bufferOf f.cls f.vc)))
    && (f.cls == clsMgt || p.carriesJob) && p.swap == .none

/-- Rank of a flit in the order of R350; the lowest goes first. -/
def OutFlit.order (f : OutFlit) : Nat :=
  let c := if f.isCredit then 0 else
    match f.cls.toNat with | 0 => 1 | 1 => 2 | 4 => 3 | 2 => 4 | _ => 5
  (2 * c + (if f.vc then 0 else 1)) * 2 + (if f.from_.isSome then 0 else 1)

/-- The index of the next flit to send, among those that may leave. -/
def pickFlit (q : List (OutFlit × Bool)) : Option Nat :=
  ((List.range q.length).foldl (fun best i =>
    match q[i]?, best with
    | some (f, true), none => some (i, f.order)
    | some (f, true), some (j, o) => if f.order < o then some (i, f.order) else some (j, o)
    | _, b => b) none).map Prod.fst

/-- A flit's header (Table 11.2). -/
def flitHeader (type : BitVec 4) (cls : BitVec 3) (vc : Bool) (seq ack label : BitVec 10) (hops : BitVec 6)
    (inj : BitVec 20) : W64 :=
  type ++ cls ++ BitVec.ofBool vc ++ seq ++ ack ++ label ++ hops ++ inj

/-- A whole flit with its CRC; a stomped one has the complement (R306). -/
def flitOf (hdr : W64) (payload : BitVec 1024) (stomp : Bool) : Flit :=
  let c := crc32c (bytesLE (payload ++ hdr).toNat 136)
  ⟨hdr, payload, if stomp then ~~~c else c⟩

/-- The buffer number of a circuit's flits: their credits are the far end's (R346). -/
def circuitBuffer : Nat := 10

/-- Credit of an input buffer freed (R347). -/
def State.freeCredit (s : State) (f : Option (Nat × Nat)) : State :=
  match f with
  | none => s
  | some (p, b) =>
    if b = circuitBuffer then s else
    let x := s.port p
    s.setPort p { x with freed := SMap.modify 0#16 x.freed b (· + 1),
                         unreported := x.unreported.orElse fun _ => some s.wall }

/-- A TIME frame. -/
def isTime (type : BitVec 4) (cls : BitVec 3) (p : BitVec 1024) : Bool :=
  type == typeSingle && cls == clsMgt && singleKind p == 5#8 && mtype p == 2#8

/-- A TIME frame's payload with the timestamp of its departure (R366): T1 in a request, T3 in a response or a
resync. -/
def stampTime (p : BitVec 1024) (beat : Nat) (frac : BitVec 4) : BitVec 1024 :=
  let request := p.extractLsb' 104 2 == 0#2
  let at_ := if request then 128 else 256
  let fat := if request then 88 else 80
  let put (p : BitVec 1024) (lo n v : Nat) : BitVec 1024 :=
    (p &&& ~~~(BitVec.ofNat 1024 (2 ^ n - 1) <<< lo)) ||| (BitVec.ofNat 1024 (v % 2 ^ n) <<< lo)
  put (put p at_ 64 beat) fat 4 frac.toNat

/-- The timestamp that a TIME frame's payload holds. -/
def timeStamp (p : BitVec 1024) : Nat :=
  if p.extractLsb' 104 2 == 0#2 then (p.extractLsb' 128 64).toNat else (p.extractLsb' 256 64).toNat

/-- An own TIME frame that waited takes a fresh timestamp as it departs; the fraction is then a free value. -/
def State.departing (s : State) (f : OutFlit) : State × OutFlit :=
  if isTime f.type f.cls f.payload && f.from_.isNone && timeStamp f.payload != s.milestone then
    ({ s with draws := s.draws + 1 },
     { f with payload := stampTime f.payload s.milestone ((Config.freeWord s.draws).setWidth 4) })
  else (s, f)

/-- Put one flit on the lanes of port `n`. A stomped copy of a circuit takes no SEQ and stays in no buffer, since
its receiver discards it silently (R306, R320). -/
def State.sendFlit (s : State) (n : Nat) (f : OutFlit) (l : BitVec 10) : State :=
  let p := s.port n
  let seq := p.nextSeq
  let inj := f.inj.getD (BitVec.ofNat 20 s.milestone)
  let flit := flitOf (flitHeader f.type f.cls f.vc seq p.expect (if f.type = typeSingle then 0#10 else l) f.hops inj)
    f.payload f.stomp
  if f.stomp then s.setPort n { p with pins := p.pins ++ [flit], sinceIdle := p.sinceIdle + 1 }
  else
    let labels :=
      if f.type = typeHead then p.txLabels ++ [⟨l, f.xfer, if isReadHead f.cls f.payload then some seq else none⟩]
      else if f.type = typeLast then p.txLabels.map fun e => if e.label = l then { e with last := some seq } else e
      else p.txLabels
    let b := bufferOf f.cls f.vc
    let p := { p with
      nextSeq := seq + 1, replay := p.replay ++ [⟨flit, 1, s.wall⟩], pins := p.pins ++ [flit], txLabels := labels,
      sent := if f.isFree then p.sent else SMap.modify 0#16 p.sent b (· + 1),
      sinceIdle := p.sinceIdle + 1, flitsTx := p.flitsTx + 1,
      transit := if f.from_.isSome then p.transit + 1 else p.transit }
    let s := (s.setPort n p).freeCredit f.from_
    if f.endsContext then { s with ranks := { s.ranks with contexts := s.ranks.contexts - 1 } } else s

/-- Send what may leave port `n`, one flit after another; `fuel` bounds how many. -/
def State.pumpLoop (s : State) (n : Nat) : Nat → State
  | 0 => s
  | fuel + 1 =>
    let p := s.port n
    match pickFlit (p.outq.map fun f => (f, p.sendable f)) with
    | none => s
    | some i =>
      match p.outq[i]? with
      | none => s
      | some f =>
        match p.labelFor f with
        | none => s
        | some l =>
          let r := (s.setPort n { p with outq := p.outq.eraseIdx i }).departing f
          (r.1.sendFlit n r.2 l).pumpLoop n fuel

/-- Some SCHED flit of the port waits for want of a credit alone. -/
def Port.schedStarved (p : Port) : Bool :=
  p.up && p.outq.any fun f => f.cls == clsSched && decide (p.credit (bufferOf f.cls f.vc) = 0)

/-- Beats that SCHED flits have spent without a credit (4160.01, R350): a stretch that runs counts up to beat `b`. -/
def Port.creditBeats (p : Port) (b : Nat) : W64 := p.creditWait + BitVec.ofNat 64 (b - p.schedWait.getD b)

/-- Begin or end the stretch of beats in which a SCHED flit waits for a credit. -/
def Port.noteStarved (p : Port) (b : Nat) : Port :=
  if p.schedStarved then { p with schedWait := p.schedWait.orElse fun _ => some b }
  else { p with creditWait := p.creditBeats b, schedWait := none }

/-- Port `n` sends all that may leave now, after what is on its lanes. -/
def State.drain (s : State) (n : Nat) : State :=
  let s := s.pumpLoop n (s.port n).outq.length
  s.setPort n ((s.port n).noteStarved s.milestone)

/-- Port `n` sends all that may leave now. -/
def State.pump (s : State) (n : Nat) : State := (s.setPort n { s.port n with pins := [] }).drain n

/-- Hand flits to port `n`. -/
def State.enqueue (s : State) (n : Nat) (fs : List OutFlit) : State :=
  let p := s.port n
  (s.setPort n { p with outq := p.outq ++ fs }).pump n

/-- A port's next transfer number. -/
def State.newXfer (s : State) (n : Nat) : State × Nat :=
  let p := s.port n
  (s.setPort n { p with nextXfer := p.nextXfer + 1 }, p.nextXfer)

/-- An own SINGLE. -/
def ownSingle (s : State) (n : Nat) (cls : BitVec 3) (payload : BitVec 1024) : OutFlit :=
  ⟨typeSingle, cls, s.outVc n none, 0#6, none, 0, none, payload, none, false, false⟩

/-- Send a link-local management frame on a port (R358). -/
def State.sendLocal (s : State) (n : Nat) (body : BitVec 960) : State :=
  s.enqueue n [ownSingle s n clsMgt (singleOf 5#8 0#16 s.ranks.myRank body)]

/-! ### Acknowledgement and replay (R314 to R317) -/

/-- The reverse direction's ACK has passed a flit's SEQ: every SEQ before `ack`, going back at most 512. -/
def ackPasses (ack seq : BitVec 10) : Bool :=
  let d := (ack - seq).toNat
  decide (1 ≤ d ∧ d ≤ 512)

/-- Take an ACK: the replay buffer and the labels of acknowledged LASTs are freed. -/
def State.takeAck (s : State) (n : Nat) (ack : BitVec 10) : State :=
  let p := s.port n
  s.setPort n { p with
    replay := p.replay.filter fun r => !ackPasses ack r.flit.seq,
    txLabels := p.txLabels.filter fun e =>
      match e.last with | some q => !ackPasses ack q | none => true }

/-- An unsequenced flit (R307): NAK or IDLE, with a valid ACK. -/
def Port.bare (p : Port) (type : BitVec 4) : Flit :=
  flitOf (flitHeader type 0#3 false 0#10 p.expect 0#10 0#6 0#20) 0#1024 false

/-- Send every unacknowledged flit from a SEQ on once more, in order (R316); a TIME frame takes a fresh timestamp
(R366), whose fraction is a free value. An IDLE goes first where 4,096 flits would pass without one (R310). While the
port's lanes are swapped nothing is sent: the replay comes with the relock (R323). -/
def State.replayFrom (s : State) (n : Nat) (seq : BitVec 10) : State :=
  let p := s.port n
  let again := fun (r : SentFlit) => !ackPasses seq r.flit.seq
  let fresh := fun (r : SentFlit) =>
    let h := flitHeader r.flit.type r.flit.cls r.flit.vc r.flit.seq p.expect r.flit.label r.flit.hops r.flit.inj
    let p := if isTime r.flit.type r.flit.cls r.flit.payload then
        stampTime r.flit.payload s.milestone ((Config.freeWord (s.draws + r.flit.seq.toNat)).setWidth 4)
      else r.flit.payload
    flitOf h p false
  let sent := (p.replay.filter again).map fresh
  let idle := decide (4095 < p.sinceIdle + sent.length)
  if p.swap ≠ .none then s
  else
    ({ s with draws := s.draws + 1024 } : State).setPort n { p with
      replay := p.replay.map fun r => if again r then ⟨fresh r, r.times + 1, s.wall⟩ else r,
      pins := if idle then p.bare typeIdle :: sent else sent,
      sinceIdle := if idle then sent.length else p.sinceIdle + sent.length,
      replays := p.replays + 1, flitsTx := p.flitsTx + BitVec.ofNat 64 sent.length }

/-- Send an unsequenced flit (R307). A NAK that would be the 4,096th flit since an IDLE goes behind one (R310); nothing is
sent while the port's lanes are swapped (R323). -/
def State.sendBare (s : State) (n : Nat) (type : BitVec 4) : State :=
  let p := s.port n
  if p.swap ≠ .none then s
  else if type = typeIdle then s.setPort n { p with pins := p.pins ++ [p.bare type], sinceIdle := 0 }
  else if p.sinceIdle < 4095 then
    s.setPort n { p with pins := p.pins ++ [p.bare type], sinceIdle := p.sinceIdle + 1 }
  else s.setPort n { p with pins := p.pins ++ [p.bare typeIdle, p.bare type], sinceIdle := 1 }

end Sys2Proof.Machine
end

