-- ==== Sys2Proof/Machine/Ops.lean ====
section
/-! DEFINITION. The named operations that the meanings share: raising an error (the module's exception entry),
bells, handles and guarded checks. -/

namespace Sys2Proof.Machine

/-! ### Raising an error: the module's exception entry (R439 to R443, R450, R451) -/

def ErrClass.code : ErrClass → BitVec 2
  | .transient => 1#2
  | .jobFatal => 2#2
  | .moduleFatal => 3#2

/-- The error record of Table 16.2, ER0 lowest. -/
def errorRecord (number : BitVec 32) (cls : ErrClass) (escalated recordedOnly : Bool) (origin : BitVec 16)
    (inst : BitVec 8) (beat detail : W64) (prior : BitVec 32) (rank : BitVec 16) : BitVec 256 :=
  (prior ++ rank ++ 0#16) ++ detail ++ beat
    ++ (number ++ cls.code ++ BitVec.ofBool escalated ++ BitVec.ofBool recordedOnly ++ 0#4 ++ origin ++ inst)

/-- Number, record and event of an error (R439, R440). -/
def State.recordError (s : State) (cls : ErrClass) (escalated recordedOnly : Bool) (origin : BitVec 16)
    (inst : BitVec 8) (detail : W64) (prior : BitVec 32) : State :=
  let n := s.integ.errorCount + 1
  let r := errorRecord n cls escalated recordedOnly origin inst (BitVec.ofNat 64 s.milestone) detail prior
    s.ranks.myRank
  ({ s with integ := { s.integ with
      errorCount := n, errorRecord := SMap.set 0#256 s.integ.errorRecord (n.toNat % 64 + 1) r } }).event 0x01#16
    (bytesLE r.toNat 32)

/-- The body of a HALT frame (Table 16.6). -/
def HaltFrame.body (f : HaltFrame) : BitVec 960 :=
  let xb0 : W64 := (if f.stop then 2#4 else 1#4) ++ BitVec.ofBool f.restart ++ f.raiser ++ f.error ++ 0#11
  (0#704 ++ BitVec.ofNat 64 f.omega ++ BitVec.ofNat 64 f.raise ++ BitVec.ofNat 64 f.target ++ xb0)

/-- The HALT frame that a body spells; the raiser's rank and error number name it. -/
def haltOf (b : BitVec 960) : HaltFrame :=
  ⟨b.extractLsb' 60 4 == 2#4, b.getLsbD 59, b.extractLsb' 43 16, b.extractLsb' 11 32,
   (b.extractLsb' 64 64).toNat, (b.extractLsb' 128 64).toNat, (b.extractLsb' 192 64).toNat⟩

/-- Ports that a HALT goes out of: all that carry job traffic, but the arrival port (R450); a job of one sends none. -/
def State.haltPorts (s : State) (arrival : Option Nat) : List Nat :=
  if s.ranks.jobSize = 1#32 then []
  else (List.range 32).filter fun p => (s.port p).carriesJob && arrival != some p

/-- Send a HALT of this member on its ports. -/
def State.flood (s : State) (f : HaltFrame) : State :=
  (s.haltPorts none).foldl
    (fun s p => s.enqueue p [ownSingle s p clsMgt (singleOf 7#8 0#16 0#16 f.body)]) s

/-- Forward a HALT that came in on port `n`: HOPS rises by 1 and INJ stays as it is (R318, R450). -/
def State.passHalt (s : State) (n : Nat) (f : Flit) : State :=
  (s.haltPorts (some n)).foldl (fun s p =>
    s.enqueue p [{ ownSingle s p clsMgt f.payload with
      vc := s.outVc p (some (n, f.vc)), hops := f.hops + 1, inj := some f.inj }]) s

/-- Halt the member (R451): cores, porters, desk and Reckoners stop while `halted` holds, and so do their accesses; the
frame is kept. -/
def State.haltWith (s : State) (f : HaltFrame) : State :=
  { s with
    ld := { s.ld with runs := [] },
    integ := { s.integ with
      halted := true, frames := s.integ.frames ++ [f], seen := s.integ.seen ++ [(f.raiser, f.error)] } }

/-- The catch-up of R369: 6 frames in which every stack refreshes and no block starts. A member runs it as soon as it halts
for a rewind (R372). -/
def State.catchUp (s : State) : State := s.pass (s.milestone + 216)

/-- The word of 7030.01 LAST_INTEGRITY_FAULT (Table 16.10). -/
def integrityWord (cause where_ : Nat) (index agent : Nat) : W64 :=
  BitVec.ofNat 5 cause ++ BitVec.ofNat 5 where_ ++ BitVec.ofNat 24 index ++ 0#2 ++ BitVec.ofNat 8 agent ++ 0#20

def State.setIntegrityFault (s : State) (tower : Nat) (w : W64) : State :=
  { s with integ := { s.integ with lastFault := SMap.set 0#64 s.integ.lastFault tower w } }

/-- A port that is no longer UP keeps what it knows of its neighbour, marked STALE (R361). -/
def Port.fallen (p : Port) : Port := { p with up := false, lock := false, stale := p.valid }

/-- R443: the module stops and every Eothar port goes down; a second such error quiets every output. -/
def State.stopModule (s : State) : State :=
  { s with
    integ := { s.integ with
      quiet := s.integ.quiet || s.integ.fatalState == 1#8, fatalState := 1#8, halted := true },
    eo := { s.eo with ports := SMap.mapV Port.reset s.eo.ports Port.fallen },
    kl := { s.kl with up := s.kl.up && !(s.integ.fatalState == 1#8) },
    boot := { s.boot with outputsQuiet := s.boot.outputsQuiet || s.integ.fatalState == 1#8 } }

/-- A module-fatal error. -/
def State.raiseModuleFatal (s : State) (escalated : Bool) (origin : BitVec 16) (inst : BitVec 8) (detail : W64)
    (prior : BitVec 32) : State :=
  (s.recordError .moduleFatal escalated false origin inst detail prior).stopModule

/-- A job-fatal error (R442): recorded, the XKIND 2 frame raised, the member halted, the window opened. -/
def State.raiseJobFatal (s : State) (escalated : Bool) (origin : BitVec 16) (inst : BitVec 8) (detail : W64) :
    State :=
  let s := s.recordError .jobFatal escalated false origin inst detail 0#32
  let f : HaltFrame := ⟨true, false, s.ranks.myRank, s.integ.errorCount, s.integ.lastCommit, s.milestone,
    s.integ.jobOffset⟩
  let s := (s.flood f).haltWith f
  { s with integ := { s.integ with window := some s.integ.errorCount, faulted := true } }

/-- Rewinds that the member has begun within 1 ms of wall time (R441). -/
def State.recentRewinds (s : State) : Nat :=
  (s.integ.rewindWalls.filter fun w => decide (s.wall < w + wallOfUs 1000)).length

/-- A contained transient fault (R441, R450, R454): escalated where it would begin the third rewind within
1 ms; otherwise recorded, the XKIND 1 frame raised, and the member halted. -/
def State.raiseTransient (s : State) (origin : BitVec 16) (inst : BitVec 8) (detail : W64) : State :=
  if 2 ≤ s.recentRewinds then
    (s.setIntegrityFault inst.toNat (integrityWord 12 0 0 0)).raiseJobFatal true 0x7030#16 inst
      (integrityWord 12 0 0 0)
  else
    let restart := s.integ.halted
    let beat := s.milestone - s.integ.jobOffset
    let wall := s.wall
    let s := s.recordError .transient false false origin inst detail 0#32
    let f : HaltFrame := ⟨false, restart, s.ranks.myRank, s.integ.errorCount, s.integ.lastCommit, s.milestone,
      s.integ.jobOffset⟩
    let s := (s.flood f).haltWith f
    let s : State := { s with
      shp := { s.shp with resynced := false },
      integ := { s.integ with
        faulted := true, rewinds := s.integ.rewinds + 1, rewindWalls := s.integ.rewindWalls ++ [wall],
        faultBeat := if s.integ.interruptionOpen then s.integ.faultBeat else beat,
        faultWall := if s.integ.interruptionOpen then s.integ.faultWall else wall,
        interruptionOpen := true } }
    if restart then s else s.catchUp

/-- A job is loaded (R259). -/
def State.jobLoaded (s : State) : Bool := !(s.job.loadState == 0#8 || s.job.loadState == 6#8)

/-- The point in force becomes `op`: never above MAX_OP while a job is loaded (R268), and none other while the reference is
lost, since the generators hold their frequency (R276). -/
def State.changeOp (s : State) (op : BitVec 8) : State :=
  let op := if s.jobLoaded && s.job.maxOp.ult op then s.job.maxOp else op
  if s.clock.refLost || s.clock.opNow == op then s
  else { s with clock := { s.clock with opNow := op, opChanges := s.clock.opChanges + 1 } }

/-- There is a job that an error can rewind or stop. -/
def State.jobActive (s : State) : Bool := s.jobLoaded && !(s.job.loadState == 8#8)

/-- Raise an error of a class: within the handling window of a job-fatal error, and while the module is
stopped, R442 and R443 decide; otherwise its own class does. -/
def State.raiseError (s : State) (cls : ErrClass) (origin : BitVec 16) (inst : BitVec 8) (detail : W64) : State :=
  if s.integ.fatalState = 1#8 then
    match cls with
    | .moduleFatal =>
      (s.setIntegrityFault inst.toNat (integrityWord 14 0 0 0)).raiseModuleFatal false origin inst detail 0#32
    | _ => { s with integ := { s.integ with errorCount := s.integ.errorCount + 1 } }
  else
    match s.integ.window with
    | some prior =>
      (s.setIntegrityFault inst.toNat (integrityWord 13 0 0 0)).raiseModuleFatal true 0x7030#16 inst
        (integrityWord 13 0 0 0) prior
    | none =>
      match cls with
      | .transient =>
        if s.job.loadState = 5#8 then s.raiseTransient origin inst detail
        else s.recordError .transient false false origin inst detail 0#32
      | .jobFatal =>
        if s.jobActive then s.raiseJobFatal false origin inst detail
        else s.recordError .jobFatal false false origin inst detail 0#32
      | .moduleFatal => s.raiseModuleFatal false origin inst detail 0#32

/-- An error whose record is 7030.01 of a tower. -/
def State.raiseIntegrity (s : State) (cls : ErrClass) (tower cause where_ index agent : Nat) : State :=
  let w := integrityWord cause where_ index agent
  (s.setIntegrityFault tower w).raiseError cls 0x7030#16 (BitVec.ofNat 8 tower) w

/-- 3010.03 of a tower records a handle fault (Table 5.7). -/
def handleFaultWord (cause handle agent offset : Nat) : W64 :=
  BitVec.ofNat 3 cause ++ BitVec.ofNat 12 handle ++ BitVec.ofNat 8 agent ++ BitVec.ofNat 24 offset ++ 0#17

def State.setHandleFault (s : State) (t : Nat) (w : W64) : State :=
  { s with ld := { s.ld with lastFault := SMap.set 0#64 s.ld.lastFault t w } }

/-- A complement pair of a tower fails its check: WHERE of Table 16.10, and its index. In state held during a job that is a
contained transient fault; outside a job the access that used it fails, a handle's is recorded, a bell is cleared again
(R445, Table 16.3). -/
def State.mismatch (s : State) (tower where_ index agent : Nat) : State :=
  if s.jobLoaded then s.raiseIntegrity .transient tower 1 where_ index agent
  else
    match where_ with
    | 1 => s.setHandleFault tower (handleFaultWord 1 index agent 0)
    | 3 => { s with pb := { s.pb with bells := SMap.erase s.pb.bells (8192 * tower + index) } }
    | _ => s.raiseIntegrity .transient tower 1 where_ index agent

/-! ### May anything run? -/

/-- Cores, porters, stages and the desk act: the job runs, the member is not halted and the module has not
stopped. -/
def State.active (s : State) : Bool :=
  s.job.loadState == 5#8 && !s.integ.halted && s.integ.fatalState == 0#8

/-- Porters and stack controllers act: also before a program starts and while no job is loaded, when only the loader
uses them (R418, R419). -/
def State.moving (s : State) : Bool :=
  !(s.job.loadState == 7#8 || s.job.loadState == 8#8) && !s.integ.halted && s.integ.fatalState == 0#8

def State.guarded (s : State) : Bool := s.job.check == 2#8

/-- Module halls in use: the first N of the hall map (R255). -/
def State.usedHalls (s : State) : List Nat :=
  (List.range s.job.logicalHalls.toNat).map fun i => (SMap.get 0xFF#8 s.job.hallMap i).toNat

/-- Logical hall of a module hall. -/
def State.logicalHall (s : State) (h : Nat) : Option Nat :=
  (List.range s.job.logicalHalls.toNat).find? fun i => (SMap.get 0xFF#8 s.job.hallMap i).toNat == h

/-! ### Bells (R221 to R229) -/

def State.bell (s : State) (t b : Nat) : Pair64 := SMap.get (Pair64.of 0#64) s.pb.bells (8192 * t + b)

/-- The count of a bell. -/
def Pair64.count (p : Pair64) : BitVec 48 := p.v.setWidth 48

/-- R224. -/
def bellMet (count target : BitVec 48) : Bool := decide ((count - target).toNat < 2 ^ 47)

/-- Note, in every matrix core of the tower held by a WAIT on the bell, the beat at which it is first met. -/
def noteMatrix (t b : Nat) (count : BitVec 48) (now : Nat) (m : SMap MCore) : SMap MCore :=
  m.map fun e =>
    match e.2.hold with
    | .bell b' target since none =>
      if e.1 / 96 = t ∧ b'.toNat = b ∧ bellMet count target
      then (e.1, { e.2 with hold := .bell b' target since (some now) }) else e
    | _ => e

def noteVector (t b : Nat) (count : BitVec 48) (now : Nat) (m : SMap VCore) : SMap VCore :=
  m.map fun e =>
    match e.2.hold with
    | .bell b' target since none =>
      if e.1 / 48 = t ∧ b'.toNat = b ∧ bellMet count target
      then (e.1, { e.2 with hold := .bell b' target since (some now) }) else e
    | _ => e

/-- R193: a porter start held by WT notes the beat on which the condition first holds. -/
def notePorter (t b : Nat) (count : BitVec 48) (now : Nat) (m : SMap Porter) : SMap Porter :=
  m.map fun e =>
    match e.2.hold, e.2.queue with
    | some ⟨since, none⟩, d :: _ =>
      let w6 : W64 := d.desc.extractLsb' 384 64
      let tower := if e.1 < 64 then e.1 / 16 else (e.1 - 64) / 48
      if tower = t ∧ (w6.extractLsb' 51 13).toNat = b ∧ bellMet count (w6.setWidth 48)
      then (e.1, { e.2 with hold := some ⟨since, some now⟩ }) else e
    | _, _ => e

/-- The record of a watched bell after an addition (Table 8.8): additions of one beat are joined. -/
def watchAfter (r : WatchRec) (beat : Nat) (agent rank amount : Nat) : WatchRec :=
  let sameBeat := r.beat == BitVec.ofNat 64 beat && r.last != 0#64
  let old := if sameBeat then (r.last.extractLsb' 0 39).toNat else 0
  let oldAgent := if sameBeat then (r.last.extractLsb' 56 8).toNat else 0
  let total := min (old + amount) (2 ^ 39 - 1)
  let who := max agent oldAgent
  let rk : BitVec 16 := if agent ≥ oldAgent then BitVec.ofNat 16 rank else r.last.extractLsb' 40 16
  ⟨BitVec.ofNat 8 who ++ (if who = 210 then rk else 0#16) ++ BitVec.ofBool sameBeat ++ BitVec.ofNat 39 total,
   BitVec.ofNat 64 beat⟩

/-- Update the records of the entries that watch the bell. -/
def State.noteWatch (s : State) (t b agent rank amount : Nat) : State :=
  let hits := (List.range 64).filter fun e =>
    SMap.get 0xFFFF#16 s.pb.watchBell (64 * t + e) == BitVec.ofNat 16 b
  { s with pb := { s.pb with watch := hits.foldl (fun w e =>
      SMap.modify WatchRec.zero w (64 * t + e) fun r => watchAfter r s.milestone agent rank amount) s.pb.watch } }

/-- R405: the Reckoner of the tower notes the program beat on which LOGIT_BELL first reaches its STEP. -/
def State.noteReckoner (s : State) (t b : Nat) (count : BitVec 48) : State :=
  let r := SMap.get Reckoner.idle s.desk.reckoners t
  if b = s.desk.logitBell.toNat ∧ r.cols ≠ [] ∧ r.met = none ∧ bellMet count r.step then
    let rs := SMap.set Reckoner.idle s.desk.reckoners t { r with met := some (s.milestone - s.integ.jobOffset) }
    { s with desk := { s.desk with reckoners := rs } }
  else s

/-- Add to a bell on the Milestone beat in force (R222 to R225): the pair is checked, a failed one receives
nothing; held cores that the new count meets note the beat. -/
def State.addBell (s : State) (t b amount agent rank : Nat) : State :=
  let p := s.bell t b
  if p.ok then
    let count := p.count + BitVec.ofNat 48 amount
    let s := { s with pb := { s.pb with
        bells := SMap.set (Pair64.of 0#64) s.pb.bells (8192 * t + b) (Pair64.of (count.setWidth 64)) } }
    let s := (s.noteWatch t b agent rank amount).noteReckoner t b count
    { s with mc := noteMatrix t b count s.milestone s.mc, vc := noteVector t b count s.milestone s.vc,
             por := { s.por with porters := notePorter t b count s.milestone s.por.porters } }
  else s.mismatch t 3 b agent

/-! ### Handles (R161 to R167, R266) -/

def State.handle (s : State) (t k : Nat) : HandleEntry := SMap.get HandleEntry.unbound s.ld.handles (4096 * t + k)

def HandleEntry.ok (e : HandleEntry) : Bool := e.w0.ok && e.w1.ok
def HandleEntry.valid (e : HandleEntry) : Bool := e.w0.v.getLsbD 63
def HandleEntry.perHall (e : HandleEntry) : Bool := e.w0.v.getLsbD 62
def HandleEntry.scope (e : HandleEntry) : BitVec 2 := e.w0.v.extractLsb' 60 2
def HandleEntry.grid (e : HandleEntry) : Bool := e.w0.v.getLsbD 59
def HandleEntry.wordAtomic (e : HandleEntry) : Bool := e.w0.v.getLsbD 58
def HandleEntry.slice (e : HandleEntry) : Nat := (e.w0.v.extractLsb' 50 8).toNat
def HandleEntry.pos (e : HandleEntry) : Nat := (e.w0.v.extractLsb' 50 2).toNat
def HandleEntry.row0 (e : HandleEntry) : Nat := (e.w0.v.extractLsb' 36 14).toNat
def HandleEntry.lenm1 (e : HandleEntry) : Nat := (e.w0.v.extractLsb' 22 14).toNat
def HandleEntry.pbell (e : HandleEntry) : Nat := (e.w1.v.extractLsb' 51 13).toNat
def HandleEntry.cbell (e : HandleEntry) : Nat := (e.w1.v.extractLsb' 38 13).toNat
def HandleEntry.slotRows (e : HandleEntry) : Nat := (e.w1.v.extractLsb' 24 14).toNat + 1
def HandleEntry.nslot (e : HandleEntry) : Nat := (e.w1.v.extractLsb' 16 8).toNat

/-- R162: the tower slice that a handle names for an accessor in module hall `h`. -/
def HandleEntry.sliceFor (e : HandleEntry) (h : Nat) : Nat :=
  if e.perHall then 12 * (h % 48 / 4) + 3 * (h % 4) + e.pos else e.slice

/-- Record a handle fault (Table 5.7) and raise it (R164). -/
def State.handleFault (s : State) (t cause handle agent offset : Nat) : State :=
  let w := handleFaultWord cause handle agent offset
  (s.setHandleFault t w).raiseError .jobFatal 0x3010#16 (BitVec.ofNat 8 t) w

/-- Record a guarded-mode fault (Table 9.12) and raise it (R266). -/
def State.guardRaise (s : State) (cause t handle slot agent : Nat) : State :=
  let w : W64 := BitVec.ofNat 4 cause ++ BitVec.ofNat 2 t ++ BitVec.ofNat 12 handle ++ BitVec.ofNat 8 slot
    ++ BitVec.ofNat 8 agent ++ BitVec.ofNat 30 s.milestone
  ({ s with job := { s.job with guardFault := w } }).raiseError .jobFatal 0xA050#16 (BitVec.ofNat 8 t) w

/-- A guarded-mode fault that names a word address (R106, R117). -/
def State.guardRaiseAt (s : State) (cause t agent addr : Nat) : State :=
  ({ s with job := { s.job with guardAddr := addr } }).guardRaise cause t 0 0 agent

/-- R266: the fault cause of an access to row offset `o` of a region of `n` slots of `z` rows, with its slot, where the
counts of PBELL and CBELL are `p` and `c`. -/
def guardCause (n z o : Nat) (p c : BitVec 48) (write : Bool) : Option (Nat × Nat) :=
  let d := (p - c).toNat
  let q := o / z
  if n < d then some (3, q)
  else if write then
    (if ((q : Int) - p.toNat) % n < (n : Int) - d then none else some (2, q))
  else (if ((q : Int) - c.toNat) % n < d then none else some (1, q))

/-- Row offset `o` of the region lies in its slots, and guarded mode checks it (R266). -/
def State.guards (s : State) (e : HandleEntry) (o : Nat) : Bool :=
  s.guarded && decide (e.nslot ≠ 0 ∧ o < e.nslot * e.slotRows)

/-- What a guarded access to row offset `o` of handle `k` meets (R266): a bell whose pair fails (R225), or the fault, is
raised. -/
def State.guardFault (s : State) (t k o : Nat) (write : Bool) (agent : Nat) : Option State :=
  let e := s.handle t k
  let p := s.bell t e.pbell
  let c := s.bell t e.cbell
  if !s.guards e o then none
  else if !p.ok then some (s.mismatch t 3 e.pbell agent)
  else if !c.ok then some (s.mismatch t 3 e.cbell agent)
  else (guardCause e.nslot e.slotRows o p.count c.count write).map fun f => s.guardRaise f.1 t k f.2 agent

/-- The first offending access of a list of row offsets, for a core on tile `n` of tower `t` (R164 items 1 to
3): its cause and offset. -/
def State.coreHandleFault (s : State) (t n : Nat) (e : HandleEntry) (h : Nat) (rows : List Nat) :
    Option (Nat × Nat) :=
  if !e.valid then some (1, rows.headD 0)
  else
    match rows.find? fun o => decide (e.lenm1 < o) with
    | some o => some (2, o)
    | none => if (s.reach t n).contains (e.sliceFor h) then none else some (3, rows.headD 0)

/-- What the access of core `c` of hall `h` to row `o` of handle `k` meets: `none` where it is performed. The rows `all`
are checked before anything moves (R136, R164, R165, R266). -/
def State.rowFault (s : State) (h c k o : Nat) (all : List Nat) (write : Bool) : Option State :=
  let t := hallTower h
  let n := tileOf h c
  let e := s.handle t k
  if !e.ok then some (s.mismatch t 1 k n)
  else
    match s.coreHandleFault t n e h (if all.isEmpty then [o] else all) with
    | some (cause, off) => some (s.handleFault t cause k n off)
    | none => s.guardFault t k o write n

/-- The slice of the module that handle `k` names for hall `h` (R162). -/
def State.coreSlice (s : State) (h k : Nat) : Nat := 144 * hallTower h + (s.handle (hallTower h) k).sliceFor h

/-- The slice of a tower that a LOGIT_HANDLE names: a per-hall one is taken for the tower's hall 0 (DEDUCED, log row 73). -/
def State.logitSlice (s : State) (t k : Nat) : Nat := 144 * t + (s.handle t k).sliceFor (48 * t)

/-- What a Reckoner's access to row `o` of handle `k` meets: `none` where it is performed (R164, R165, R405). -/
def State.logitFault (s : State) (t k o : Nat) : Option State :=
  let e := s.handle t k
  if !e.ok then some (s.mismatch t 1 k 208)
  else if !e.valid then some (s.handleFault t 1 k 208 o)
  else if e.lenm1 < o then some (s.handleFault t 2 k 208 o)
  else none

/-- The beat on which a WAIT ends that has stood since `since` and whose bell first met it on `met`: additions of the
beat on which it reaches issue count (R91, R137, R193, R223). -/
def waitEnds (since met : Nat) : Nat := if met ≤ since then since else met + 3

/-! ### CRC-64/ECMA-182 (R464) -/

def crc64Bit (r : W64) : W64 := if r.msb then (r <<< 1) ^^^ 0x42F0E1EBA9EA3693#64 else r <<< 1

def crc64Byte (r : W64) (b : Byte) : W64 :=
  let r := r ^^^ (b.setWidth 64 <<< 56)
  crc64Bit (crc64Bit (crc64Bit (crc64Bit (crc64Bit (crc64Bit (crc64Bit (crc64Bit r)))))))

def crc64 (bs : List Byte) : W64 := bs.foldl crc64Byte 0#64

end Sys2Proof.Machine
end

