-- ==== Sys2Proof/Machine/Arbiter.lean ====
section
/-! DEFINITION. Accesses that contend for a slice, a Pantry bank, a mesh link, a bridge or a core's port, beat by
beat (R143, R151, R202, R547), and what a beat lost moves. -/

namespace Sys2Proof.Machine

/-! ### Movers and their transfers -/

def State.porter (s : State) (k : Nat) : Porter := SMap.get Porter.idle s.por.porters k
def State.setPorter (s : State) (k : Nat) (p : Porter) : State :=
  { s with por := { s.por with porters := SMap.set Porter.idle s.por.porters k p } }

/-- The transfers of a mover. -/
def State.transfers (s : State) (k : Nat) : List Transfer :=
  if k < 256 then (s.porter k).active else SMap.get [] s.por.inbound (k - 256)

def State.setTransfers (s : State) (k : Nat) (ts : List Transfer) : State :=
  if k < 256 then s.setPorter k { s.porter k with active := ts }
  else { s with por := { s.por with inbound := SMap.set [] s.por.inbound (k - 256) ts } }

/-- Change the transfer that a start beat names. -/
def State.updTransfer (s : State) (k start : Nat) (f : Transfer → Transfer) : State :=
  s.setTransfers k ((s.transfers k).map fun t => if t.start = start then f t else t)

/-- Due beat of a SCHED or COLL packet (R269, R313). -/
def State.packetDue (s : State) (t : Transfer) (inj : Nat) : Nat :=
  inj + t.hops * s.job.hopBeats.toNat + s.job.hopSlack.toNat

/-- A SCHED or COLL packet from a rank, written at beat `b` after its due beat, is a hop slip: counted, recorded in A040.02
(Table 9.11) and a contained transient fault. PORT is free for a transfer that used no port. -/
def State.hopSlip (s : State) (k : Nat) (srank : BitVec 16) (due b : Nat) : State :=
  if b ≤ due then s
  else
    let r := s.draw
    let port : BitVec 5 := if k < 256 then r.2.setWidth 5 else BitVec.ofNat 5 (k - 256)
    let s := if k < 256 then r.1 else s
    let w : W64 := 1#2 ++ (if k < 256 then s.ranks.myRank else srank) ++ port
      ++ BitVec.ofNat 16 (min (b - due) 65535) ++ 0#25
    ({ s with job := { s.job with slips := s.job.slips + 1, lastSlip := w } }).raiseError .transient 0xA040#16
      0#8 w

/-- Due beats of the packets of a transfer that carry the bytes [lo, hi). -/
def State.duesOf (s : State) (t : Transfer) (lo hi : Nat) : List Nat :=
  (t.injBeats.filter fun e => decide (lo / 128 ≤ e.1 ∧ 128 * e.1 < hi)).map fun e => s.packetDue t e.2

/-- Packets of mover `k` with these due beats are written at beat `b` (R269). -/
def State.slipCheck (s : State) (k : Nat) (srank : BitVec 16) (dues : List Nat) (b : Nat) : State :=
  dues.foldl (fun s d => s.hopSlip k srank d b) s

/-! ### Resources -/

/-- Resource numbers of a core's ports (Table 5.2): a matrix core's load port, stream port and Larder access, and
a vector core's data port and Larder access. -/
def portLoad (c : Nat) : Nat := 30000 + 8 * c
def portStream (c : Nat) : Nat := 30001 + 8 * c
def portLarder (c : Nat) : Nat := 30002 + 8 * c
def portData (h : Nat) : Nat := 40000 + 8 * h
def portVLarder (h : Nat) : Nat := 40002 + 8 * h

def isPort (r : Nat) : Bool := decide (30000 ≤ r)
def isBank (r : Nat) : Bool := decide (1000 ≤ r ∧ r < 10000)

/-- Places in the orders of R151 and R202: tower porters, arrivals from the fabric, the Reckoner, the front desk's
posts, hall porters, and the cores that reach slice `k` from tile `n` of its tower. -/
def rankPorter (i : Nat) : Nat := i
def rankFabric (p : Nat) : Nat := 16 + p
def rankReckoner : Nat := 60
def rankDesk : Nat := 99
def rankHall (h : Nat) : Nat := 100 + h
def rankCore (k n : Nat) : Nat :=
  if n = k % 144 then 1000
  else if n + 12 = k % 144 then 1001
  else if n = k % 144 + 1 then 1002
  else if n = k % 144 + 12 then 1003
  else 1004

/-- Place of a core's accesses to its own Pantry, which only porter-port accesses move. -/
def rankOwn : Nat := 1000

/-- Place of a mover. -/
def moverRank (k : Nat) : Nat :=
  if k < 64 then rankPorter (k % 16) else if k < 256 then rankHall (k - 64) else rankFabric (k - 256)

/-! ### Runs -/

/-- A claim of the resources `res`, `gap` beats after the claim before it; the first at beat `gap`. -/
def Claim.want (res : List Nat) (cap par gap : Nat) : Claim := ⟨res, cap, par, gap, 0, 0, 0, false⟩

/-- A chain of accesses to resources, at their nominal beats. -/
def chainFrom (par last : Nat) : List (List Nat × Nat) → List Claim
  | [] => []
  | (res, b) :: rest => Claim.want res 1 par (b - last) :: chainFrom (par + 1) b rest

def chainClaims (items : List (List Nat × Nat)) : List Claim := chainFrom 0 0 items

/-- First beat at which claim `c` of a run is wanted, unless it is held or the claim before it is not. -/
def Run.wants (r : Run) (c : Claim) : Option Nat :=
  if c.held then none
  else if c.par = 0 then some (max c.floor c.gap)
  else match r.claims[c.par - 1]? with
    | some p => if p.held then some (max c.floor (p.beat + c.gap)) else none
    | none => none

/-- Beat of the last claim of a run. -/
def Run.last (r : Run) : Nat := (r.claims.getLast?.map (·.beat)).getD 0

/-- Beat of the first claim of a run. -/
def Run.first (r : Run) : Nat := (r.claims.head?.map (·.beat)).getD 0

/-- Run `x` goes before run `y` at a resource. Of two runs of one rank (two towers' porters of one index, or a porter's
read and write) the one planned first goes first: spec/ gives no order there (R151, R202; DESIGN CHOICE, log row 26). -/
def Run.before (x y : Run) : Bool := decide (x.rank < y.rank) || (x.rank == y.rank && decide (x.seq ≤ y.seq))

/-- A later access of a run that holds its resource goes before every other run (R156). -/
def Run.keeps (r : Run) (c : Claim) : Bool := r.holds && decide (c.par ≠ 0)

/-- Access `c` of run `x` goes before access `d` of run `y`. -/
def beforeAt (x : Run) (c : Claim) (y : Run) (d : Claim) : Bool := x.keeps c || (!y.keeps d && x.before y)

/-- Accesses of the runs that `f` picks, to resource `p` at beat `b`. -/
def holders (rs : List Run) (f : Run → Bool) (p b : Nat) : Nat :=
  ((rs.filter f).map fun r => r.claims.countP fun c => c.held && c.beat == b && c.res.contains p).sum

/-- The claims that want their resources at beat `b`, in the order of R151 and R202. -/
def contenders (rs : List Run) (b : Nat) : List (Run × Nat × Claim) :=
  let all := rs.flatMap fun r =>
    (r.claims.zipIdx.filter fun e => match r.wants e.1 with
      | some d => decide (d ≤ b)
      | none => false).map fun e => (r, e.2, e.1)
  let goes (y x : Run × Nat × Claim) := beforeAt y.1 y.2.2 x.1 x.2.2
  all.foldl (fun l x => l.takeWhile (fun y => goes y x) ++ x :: l.dropWhile fun y => goes y x) []

/-- Change claim `i` of run `n`. -/
def setClaim (rs : List Run) (n i : Nat) (f : Claim → Claim) : List Run :=
  rs.map fun r => if r.seq = n then { r with claims := r.claims.modify i f } else r

/-- A core's port serves an earlier access of the core on beat `b` (R547). -/
def portTaken (rs : List Run) (cs : List (Run × Nat × Claim)) (r : Run) (p b : Nat) : Bool :=
  cs.any (fun d => decide (d.1.seq < r.seq) && d.2.2.res.contains p)
    || decide (0 < holders rs (fun y => decide (y.seq < r.seq)) p b)

/-- Accesses to resource `p` that are served on beat `b` before access `c` of run `r`. -/
def heldBefore (rs : List Run) (r : Run) (c : Claim) (p b : Nat) : Nat :=
  (rs.map fun y => y.claims.countP fun d =>
    d.held && d.beat == b && d.res.contains p && beforeAt y d r c).sum

/-- The resource serves others on beat `b`: a bank, a porter-port access (R143). -/
def resTaken (rs : List Run) (r : Run) (c : Claim) (p b : Nat) : Bool :=
  if isBank p then decide (0 < holders rs (fun y => y.owner == .mark) p b)
  else decide (c.cap ≤ heldBefore rs r c p b)

/-- Run `y` carries an earlier packet of the descriptor and plane of run `r`. -/
def RunOwner.leads : RunOwner → RunOwner → Bool
  | .packet k a x p, .packet k' a' x' p' => k == k' && a == a' && p == p' && decide (x < x')
  | _, _ => false

/-- Claim `c` lost beat `b`. -/
def Claim.lostOn (c : Claim) (b : Nat) : Bool :=
  if c.held then decide (c.beat - c.lost ≤ b ∧ b < c.beat) else decide (0 < c.lost) && c.floor == b + 1

/-- An earlier packet of its descriptor and plane has lost beat `b`, so that access `c` of run `r` moves with it (R202): of a
cast, the copies on and beyond that link (R205). -/
def movesWith (rs : List Run) (r : Run) (c : Claim) (b : Nat) : Bool :=
  rs.any fun y => y.owner.leads r.owner
    && y.claims.any fun d => d.lostOn b && (decide (y.leaves.length ≤ 1) || d.res == c.res)

/-- One beat: each claim in turn is served, or wants the next beat; a beat lost to another agent is counted. -/
def arbitrate (rs : List Run) (b : Nat) : List Run :=
  let cs := contenders rs b
  cs.foldl (fun rs x =>
    let c := x.2.2
    if (c.res.any fun p => isPort p && portTaken rs cs x.1 p b) || movesWith rs x.1 c b then
      setClaim rs x.1.seq x.2.1 fun c => { c with floor := b + 1 }
    else if c.res.any fun p => !isPort p && resTaken rs x.1 c p b then
      setClaim rs x.1.seq x.2.1 fun c => { c with floor := b + 1, lost := c.lost + 1 }
    else setClaim rs x.1.seq x.2.1 fun c => { c with beat := b, held := true }) rs

/-- The earliest beat at which a claim is wanted. -/
def nextWanted (rs : List Run) : Option Nat :=
  rs.foldl (fun best r => r.claims.foldl (fun best c =>
    match best, r.wants c with
    | some b, some d => some (min b d)
    | none, d => d
    | b, none => b) best) none

/-- Beat after beat until every claim is held. -/
def settle : Nat → List Run → List Run
  | 0, rs => rs
  | n + 1, rs => match nextWanted rs with
    | some b => settle n (arbitrate rs b)
    | none => rs

/-- Beats enough for `settle`: on each of them a claim is served, or one held before is met. -/
def settleFuel (rs : List Run) : Nat := 2 * (rs.map fun r => r.claims.length).sum + 1

/-- The new run stands where an access of a run after it was to stand. -/
def displaces (rs : List Run) (x : Run) : Bool :=
  x.claims.any fun c => c.res.any fun p =>
    if isPort p then false
    else if isBank p then x.owner == .mark && decide (0 < holders rs (fun y => y.owner != .mark) p c.beat)
    else decide (c.cap < holders rs (fun _ => true) p c.beat)

/-- Take back the accesses at beats from `now` on, but for porter-port Pantry accesses. -/
def Run.release (r : Run) (now : Nat) : Run :=
  if r.owner = .mark then r
  else
    { r with claims := r.claims.map fun c =>
        if c.held && decide (now ≤ c.beat) then
          { c with held := false, floor := now, lost := c.lost - min c.lost (c.beat - now) }
        else c }

/-! ### What a beat lost moves -/

/-- A beat that was `old` is `new`. -/
def swapBeat (old new b : Nat) : Nat := if b = old then new else b

/-- The latest beat of several, of which `old` becomes `new`. -/
def raiseBeat (old new b : Nat) : Nat := if b = old then new else max b new

def swapAll (old new : Nat) (m : SMap Nat) (keys : List Nat) : SMap Nat :=
  m.map fun e => if keys.contains e.1 then (e.1, swapBeat old new e.2) else e

def PendSignal.swap (old new : Nat) (g : PendSignal) : PendSignal := { g with due := swapBeat old new g.due }

/-- An access of a matrix core ends its reads at `l'` in place of `l`, and its result stands at `d'` in place of
`d`. -/
def MCore.slip (m : MCore) (l l' d' : Nat) : MCore :=
  { m with signals := m.signals.map (PendSignal.swap (l + 4) (l' + 4)), times := { m.times with
      readsDone := raiseBeat l l' m.times.readsDone, busyUntil := max m.times.busyUntil d' } }

/-- The registers that an instruction writes are written at `d'` in place of `d`. -/
def VCore.slip (v : VCore) (regs : List Nat) (d d' : Nat) : VCore :=
  { v with times := { v.times with
      ready := swapAll d d' v.times.ready regs, readyClr := swapAll d d' v.times.readyClr regs,
      busyUntil := max v.times.busyUntil d' } }

/-- Its reads end at `l'` in place of `l`. -/
def VCore.slipReads (v : VCore) (l l' : Nat) : VCore :=
  { v with signals := v.signals.map (PendSignal.swap (l + 4) (l' + 4)),
           times := { v.times with readsDone := raiseBeat l l' v.times.readsDone } }

/-- Its store is at its point of coherence at `d'` in place of `d`. -/
def VCore.slipStores (v : VCore) (d d' : Nat) : VCore :=
  { v with signals := v.signals.map (PendSignal.swap (d + 4) (d' + 4)),
           times := { v.times with storesDone := raiseBeat d d' v.times.storesDone,
                                   busyUntil := max v.times.busyUntil d' } }

/-- A PSEND or DESC of hall `h` that waits for stores until `d` waits until `d'`. -/
def Sink.slip (h d d' : Nat) : Sink → Sink
  | .hand p hd => .hand p (if hd.core = some h then { hd with due := swapBeat d d' hd.due } else hd)
  | .send g gr sd st => .send g gr sd (if g = h then swapBeat d d' st else st)
  | x => x

/-- What a hall's PSEND and DESC instructions sent on at `d` goes on at `d'`. -/
def State.slipSent (s : State) (h d d' : Nat) : State :=
  { s with
    pb := { s.pb with stages := s.pb.stages.map fun e =>
      if e.1 = h then (e.1, { e.2 with entries := e.2.entries.map fun x =>
        { x with stagedAt := swapBeat d d' x.stagedAt } }) else e },
    por := { s.por with porters := s.por.porters.map fun e =>
      (e.1, { e.2 with arriving := e.2.arriving.map fun x =>
        if x.core = some h then { x with due := swapBeat d d' x.due } else x }) },
    ld := { s.ld with runs := s.ld.runs.map fun r => { r with sink := r.sink.slip h d d' } } }

/-- Beat at which a run reaches a leaf: its claim's beat and the beats beyond it. -/
def Run.leafBeat (r : Run) (leaf : Nat × Nat × Nat × Nat) : Nat :=
  ((r.claims[leaf.2.2.1 - 1]?).map (·.beat)).getD 0 + leaf.2.2.2

/-- Beat at which a packet entered its first link. -/
def Run.enter (r : Run) : Nat :=
  r.leaves.foldl (fun b l => max b (((r.claims[l.2.1 - 1]?).map (·.beat)).getD 0)) 0

/-- The packet of a run, moved. -/
def Transfer.slipPacket (t : Transfer) (x plane : Nat) (r r' : Run) : Transfer :=
  { t with
    flights := t.flights.map fun f =>
      match r'.leaves.find? fun l => f.packet == x && l.1 == f.dest with
      | some l => { f with arrives := r'.leafBeat l }
      | none => f,
    lastInject := swapBeat r.enter r'.enter t.lastInject,
    lastLower := if plane = 0 then swapBeat r.enter r'.enter t.lastLower else t.lastLower,
    lastUpper := if plane = 0 then t.lastUpper else swapBeat r.enter r'.enter t.lastUpper }

/-- Where the access of run `r` at a beat stands in the moved run `r'`. -/
def Run.movedTo (r r' : Run) (b : Nat) : Nat :=
  match (r.claims.zip r'.claims).find? fun e => e.1.beat == b with
  | some e => e.2.beat
  | none => b

/-- What follows from the beats that a run has lost, or won back, since they were fixed. -/
def State.slip (s : State) (r r' : Run) : State :=
  let l := r.last
  let l' := r'.last
  let d := r.due
  let d' := r'.due
  match r.owner with
  | .mark => s
  | .load c slot ahead =>
    let m := (s.mcore c).slip l l' d'
    s.setMcore c { m with times := { m.times with
      slotReady0 := if slot then m.times.slotReady0 else swapBeat d d' m.times.slotReady0,
      slotReady1 := if slot then swapBeat d d' m.times.slotReady1 else m.times.slotReady1,
      loadFree := swapBeat (d - ahead) (d' - ahead) m.times.loadFree } }
  | .keys c =>
    let m := (s.mcore c).slip l l' d'
    s.setMcore c { m with
      keysNext := m.keysNext.map fun e => (swapBeat d d' e.1, e.2),
      times := { m.times with loadFree := swapBeat (d - 2) (d' - 2) m.times.loadFree } }
  | .acc c banks tail =>
    let m := (s.mcore c).slip l l' (d' + tail)
    s.setMcore c { m with times := { m.times with
      arrayFree := swapBeat d d' m.times.arrayFree, slotAcc0 := swapBeat d d' m.times.slotAcc0,
      slotAcc1 := swapBeat d d' m.times.slotAcc1,
      bankWritten := swapAll (d + tail) (d' + tail) m.times.bankWritten banks } }
  | .read h regs => s.setVcore h (((s.vcore h).slip regs d d').slipReads l l')
  | .store h => (s.setVcore h ((s.vcore h).slipStores d d')).slipSent h d d'
  | .recv h regs => s.setVcore h (((s.vcore h).slip regs d d').slipStores l l')
  | .send h regs => (s.setVcore h (((s.vcore h).slip regs d d').slipReads r.first r'.first)).slipSent h d d'
  | .column t =>
    { s with desk := { s.desk with reckoners := SMap.modify Reckoner.idle s.desk.reckoners t fun x =>
        { x with ends := x.ends.map (swapBeat d d') } } }
  | .source k start =>
    s.updTransfer k start fun t =>
      { t with shift := t.shift + l' - l, lastRead := swapBeat l l' t.lastRead,
               avail := t.avail.map fun e => (e.1, Run.movedTo r r' (e.2 - 8) + 8) }
  | .write k start _ => s.updTransfer k start fun t => { t with lastWrite := swapBeat l l' t.lastWrite }
  | .packet k start x plane =>
    let s := s.updTransfer k start fun t => t.slipPacket x plane r r'
    if k < 256 then
      s.setPorter k { s.porter k with
        startFree := swapBeat (r.enter + 1) (r'.enter + 1) (s.porter k).startFree }
    else s
  | .post num desc =>
    { s with pb := { s.pb with flights := s.pb.flights.map fun f =>
        if f.num = num ∧ f.desc = desc then { f with arrives := swapBeat d d' f.arrives } else f } }

/-! ### Counting and planning -/

/-- Add to a counter of 64 bits the difference of two counts of lost beats. -/
def bumpBy (m : SMap W64) (k old new : Nat) : SMap W64 :=
  SMap.modify 0#64 m k (· + BitVec.ofNat 64 new - BitVec.ofNat 64 old)

/-- Beats lost: at a slice in 3020.01 of its hall, at a Pantry bank in 3020.02 of its hall, at a link or bridge in
3220.02 of the tower in which, or from which, the packet goes. -/
def State.countLost (s : State) (res old new : Nat) : State :=
  if new = old then s
  else if res < 1000 then
    { s with ld := { s.ld with sliceLost := bumpBy s.ld.sliceLost (sliceHall res) old new } }
  else if res < 10000 then
    { s with ld := { s.ld with pantryLost := bumpBy s.ld.pantryLost ((res - 1000) / 24) old new } }
  else
    let t := if res < 20000 then (res - 10000) / 1152 else (res - 20000) / 4
    { s with por := { s.por with linkLost := bumpBy s.por.linkLost t old new } }

/-- Count what the claims of a run have lost since `r`. -/
def State.countRun (s : State) (r r' : Run) : State :=
  (r.claims.zip r'.claims).foldl (fun s e => s.countLost ((e.1.res.getLast?).getD 30000) e.1.lost e.2.lost) s

/-- A run has an access that has not yet acted. -/
def Run.pends (r : Run) : Bool := decide (r.done < r.acts.length)

/-- Plan a run of accesses: `due` is the beat of its result if its last access falls on beat `aim`. The beats of
runs under way that go after it may move. -/
def State.planRun (s : State) (due aim : Nat) (x : Run) : State × Run :=
  let n := s.ld.nextRun
  let x := { x with seq := n, due := due }
  if x.claims.isEmpty then (s, x)
  else
    let old := s.ld.runs.filter fun r => r.pends || r.claims.any fun c => decide (s.milestone ≤ c.beat)
    let fuel := settleFuel (x :: old)
    let rs := settle fuel (old ++ [x])
    let x' := (rs.getLast?).getD x
    let rs := if displaces rs x' then settle fuel (rs.map fun r => r.release s.milestone) else rs
    let rs := rs.map fun r =>
      if r.seq = n then { r with due := due + r.last - aim }
      else match old.find? fun o => o.seq == r.seq with
        | some o => { r with due := r.due + r.last - o.last }
        | none => r
    let x' := (rs.getLast?).getD x
    let s : State := { s with ld := { s.ld with runs := rs, nextRun := n + 1 } }
    let s := (old.zip rs).foldl (fun s e => if e.1 = e.2 then s else (s.slip e.1 e.2).countRun e.1 e.2) s
    (s.countRun x x', x')

/-- A run that moves nothing by itself. -/
def Run.idle (rank : Nat) (owner : RunOwner) (claims : List Claim) : Run :=
  ⟨0, rank, owner, 0, claims, [], false, [], .none, 0, []⟩

/-- Plan a run whose accesses act when their beats pass. -/
def State.planActs (s : State) (rank due aim : Nat) (owner : RunOwner) (claims : List Claim) (acts : List Act)
    (sink : Sink) : State × Run :=
  s.planRun due aim { Run.idle rank owner claims with acts := acts, sink := sink }

/-- Plan a run that moves nothing by itself. -/
def State.plan (s : State) (rank due aim : Nat) (owner : RunOwner) (claims : List Claim)
    (leaves : List (Nat × Nat × Nat × Nat)) : State × Run :=
  s.planRun due aim { Run.idle rank owner claims with leaves := leaves }

/-! ### Core ports, packets and posts -/

/-- Banks that `n` granules from `g` on lie in (R142). -/
def banksOf (key g n : Nat) : List Nat :=
  let a := pantryBank key g
  let b := pantryBank key (g + n - 1)
  if a = b then [a] else [a, b]

/-- A core port's accesses to `n` granules each: first granule and nominal beat. -/
def pantryClaims (port key n : Nat) (run : List (Nat × Nat)) : List Claim :=
  chainClaims (run.map fun e => (port :: banksOf key (e.1 % (pantrySize key / 32)) n, e.2))

/-- A core's accesses to slice `k` at their nominal beats. -/
def sliceClaims (port k : Nat) (beats : List Nat) : List Claim := chainClaims (beats.map fun b => ([port, k], b))

/-- Accesses of a mover to slice `k`, one after another from beat `b` on, which hold the slice (R156): the state and the
run. -/
def State.grantSlice (s : State) (rank : Nat) (owner : RunOwner) (k b : Nat) (acts : List Act) : State × Run :=
  s.planRun b (b + acts.length - 1) { Run.idle rank owner (chainClaims ((List.range acts.length).map fun i => ([k], b + i)))
    with acts := acts, holds := true }

/-- The links of a route as claims, the first at `gap`. -/
def hopClaims (par gap : Nat) : List Hop → List Claim
  | [] => []
  | h :: hs => Claim.want [h.res] h.cap par gap :: hopClaims (par + 1) h.delay hs

/-- A single packet that injects at `b`: the state, and the beat it reaches the destination router. -/
def State.travel (s : State) (rank : Nat) (owner : RunOwner) (hops : List Hop) (b : Nat) : State × Nat :=
  match hops.getLast? with
  | none => (s, b)
  | some h =>
    let due := b + routeBeats hops
    let r := s.plan rank due (due - h.delay) owner (hopClaims 0 b hops) []
    (r.1, r.2.due)

/-- A broadcast tree under construction: its claims, and each link with its claim (R205). -/
abbrev Tree := List Claim × List (Nat × Nat)

/-- Follow a route from a claim, sharing the links that the tree has: the tree, and the last claim with the beats
beyond it. -/
def growTree (tree : Tree) (par gap : Nat) : List Hop → Tree × Nat × Nat
  | [] => (tree, par, gap)
  | h :: hs =>
    match tree.2.find? fun e => e.1 == h.res with
    | some e => growTree tree e.2 h.delay hs
    | none =>
      let i := tree.1.length + 1
      growTree (tree.1 ++ [Claim.want [h.res] h.cap par gap], (h.res, i) :: tree.2) i h.delay hs

/-- Grow a tree towards places in turn: the tree, and for each place with a link its number, first and last claim,
and the beats beyond. -/
def growTrees (plane route : Nat) (from_ : Nat × Nat) (b : Nat) :
    List ((Nat × Nat) × Nat) → Tree → Tree × List (Nat × Nat × Nat × Nat)
  | [], tree => (tree, [])
  | (p, j) :: ps, tree =>
    let hops := meshRoute plane route from_.1 from_.2 p.1 p.2
    let r := growTree tree 0 b hops
    let q := growTrees plane route from_ b ps r.1
    match hops with
    | [] => q
    | h :: _ =>
      let first := ((r.1.2.find? fun e => e.1 == h.res).map (·.2)).getD 0
      (q.1, (j, first, r.2.1, r.2.2) :: q.2)

/-- Inject packet `x` of a transfer on beat `b` towards places of the module, on one tree (R205): the state, the
beat it entered its first link, and the beats of arrival in the order of the places. -/
def State.spread (s : State) (k start x plane route : Nat) (from_ : Nat × Nat) (b : Nat) (places : List (Nat × Nat)) :
    State × Nat × List Nat :=
  let g := growTrees plane route from_ b places.zipIdx ([], [])
  if g.2.isEmpty then (s, b, places.map fun _ => b)
  else
    let r := s.plan (moverRank k) 0 0 (.packet k start x plane) g.1.1 g.2
    (r.1, r.2.enter, (List.range places.length).map fun j =>
      match g.2.find? fun l => l.1 == j with
      | some l => r.2.leafBeat l
      | none => b)

/-- Porter-port accesses to Pantry banks on beat `b`: they never move, and a core's access to such a bank moves
(R143). -/
def State.markAll (s : State) (banks : List Nat) (b : Nat) : State :=
  (s.plan 0 b b .mark (banks.map fun p => ⟨[p], 1, 0, b, 0, b, 0, true⟩) []).1

end Sys2Proof.Machine
end

