-- ==== Sys2Proof/Machine/Movers.lean ====
section
/-! DEFINITION. What moves bytes: descriptors, endpoints and where their bytes lie, and the transfers that
porters and Eothar ports carry (spec/07, spec/05). -/

namespace Sys2Proof.Machine

/-! ### Descriptors (Tables 7.2 to 7.4) -/

abbrev PDesc := BitVec 512

def PDesc.word (d : PDesc) (k : Nat) : W64 := d.extractLsb' (64 * k) 64
def PDesc.op (d : PDesc) : Nat := (d.extractLsb' 60 4).toNat
def PDesc.route (d : PDesc) : Nat := (d.extractLsb' 58 2).toNat
def PDesc.cast (d : PDesc) : Nat := (d.extractLsb' 56 2).toNat
def PDesc.group (d : PDesc) : Nat := (d.extractLsb' 52 4).toNat
def PDesc.vol (d : PDesc) : Bool := d.getLsbD 51
def PDesc.scope (d : PDesc) : Nat := (d.extractLsb' 49 2).toNat
def PDesc.sig (d : PDesc) : Bool := d.getLsbD 48
def PDesc.wt (d : PDesc) : Bool := d.getLsbD 47
def PDesc.chain (d : PDesc) : Bool := d.getLsbD 46
def PDesc.cls (d : PDesc) : Nat := (d.extractLsb' 44 2).toNat
def PDesc.tag (d : PDesc) : BitVec 16 := d.extractLsb' 24 16
/-- Bytes of the transfer. -/
def PDesc.bytes (d : PDesc) : Nat := 32 * ((d.extractLsb' 0 24).toNat + 1)
def PDesc.sbell (d : PDesc) : Nat := (d.extractLsb' 371 13).toNat
def PDesc.stower (d : PDesc) : Nat := (d.extractLsb' 369 2).toNat
def PDesc.sinc (d : PDesc) : Nat := (d.extractLsb' 353 16).toNat
def PDesc.wbell (d : PDesc) : Nat := (d.extractLsb' 435 13).toNat
def PDesc.wtarget (d : PDesc) : BitVec 48 := d.extractLsb' 384 48
def PDesc.ntile (d : PDesc) : Nat := (d.extractLsb' 504 8).toNat
def PDesc.ngran (d : PDesc) : Nat := (d.extractLsb' 489 15).toNat

/-- Packets of 128 B that carry the transfer. -/
def PDesc.packets (d : PDesc) : Nat := ceilDiv (PDesc.bytes d) 128

/-! ### Endpoints (R196, Tables 7.3 and 7.5) -/

structure Endpoint where
  e0 : W64
  e1 : W64
deriving DecidableEq, Repr

def PDesc.src (d : PDesc) : Endpoint := ⟨PDesc.word d 1, PDesc.word d 2⟩
def PDesc.dst (d : PDesc) : Endpoint := ⟨PDesc.word d 3, PDesc.word d 4⟩

def Endpoint.space (e : Endpoint) : Nat := (e.e0.extractLsb' 62 2).toNat
def Endpoint.remote (e : Endpoint) : Bool := e.e0.getLsbD 61
def Endpoint.rank (e : Endpoint) : BitVec 16 := e.e0.extractLsb' 45 16
def Endpoint.hall (e : Endpoint) : Nat := (e.e0.extractLsb' 37 6).toNat
def Endpoint.core (e : Endpoint) : Nat := (e.e0.extractLsb' 35 2).toNat
def Endpoint.handle (e : Endpoint) : Nat := (e.e0.extractLsb' 23 12).toNat
def Endpoint.granule (e : Endpoint) : Nat := (e.e0.extractLsb' 0 15).toNat
def Endpoint.row (e : Endpoint) : Nat := (e.e0.extractLsb' 0 14).toNat
def Endpoint.stackCode (e : Endpoint) : Nat := (e.e0.extractLsb' 38 5).toNat
def Endpoint.addr (e : Endpoint) : Nat := (e.e0.extractLsb' 0 38).toNat
/-- Tower of the memory: for a Cellar endpoint, the stack's. -/
def Endpoint.tower (e : Endpoint) : Nat :=
  if e.space = 2 then stackTower e.stackCode else (e.e0.extractLsb' 43 2).toNat
/-- Module hall that the endpoint names, in its tower whatever the HALL field holds: an absolute handle has no use for
that field (R162). -/
def Endpoint.mhall (e : Endpoint) : Nat := 48 * (e.e0.extractLsb' 43 2).toNat + e.hall % 48
/-- Grid column groups. -/
def Endpoint.groups (e : Endpoint) : Bool := e.space == 1 && e.e1.getLsbD 63
def Endpoint.col (e : Endpoint) : Nat := (e.e1.extractLsb' 58 5).toNat
def Endpoint.count (e : Endpoint) : Nat := (e.e1.extractLsb' 53 5).toNat + 1
def Endpoint.stride (e : Endpoint) : Nat :=
  let x := (e.e1.extractLsb' 32 21).toNat
  if x = 0 then 1 else x

/-- Elements that one slice beat of a column group serves, and slice beats of a group (R156). -/
def Endpoint.perBeat (e : Endpoint) : Nat := 32 / Nat.gcd e.stride 32
def Endpoint.groupBeats (e : Endpoint) : Nat := ceilDiv (e.count * Nat.gcd e.stride 32) 32

/-- The bytes [lo, hi) of an n-byte transfer that access `j` of the endpoint moves (Table 7.5). -/
def Endpoint.access (e : Endpoint) (n j : Nat) : Nat × Nat :=
  if e.groups then
    let g := j / e.groupBeats
    let part := j % e.groupBeats
    (16 * (g * e.count + part * e.perBeat), min n (16 * (g * e.count + min e.count ((part + 1) * e.perBeat))))
  else (512 * j, min n (512 * (j + 1)))

/-- Number of accesses of an n-byte transfer. -/
def Endpoint.accesses (e : Endpoint) (n : Nat) : Nat :=
  if e.groups then
    let whole := 16 * e.count
    n / whole * e.groupBeats + ceilDiv (n % whole) (16 * e.perBeat)
  else ceilDiv n 512

/-- The access that moves byte `x`. -/
def Endpoint.accessOf (e : Endpoint) (x : Nat) : Nat :=
  if e.groups then x / 16 / e.count * e.groupBeats + x / 16 % e.count / e.perBeat else x / 512

/-- Row offset and column of 16 B element `i` of a Larder endpoint. -/
def Endpoint.element (e : Endpoint) (i : Nat) : Nat × Nat :=
  if e.groups then (e.row + i % e.count * e.stride, (e.col + i / e.count) % 32)
  else (e.row + i / 32 * e.stride, i % 32)

/-- Row offsets that the bytes [lo, hi) touch, each once. -/
def Endpoint.rows (e : Endpoint) (lo hi : Nat) : List Nat :=
  ((List.range (ceilDiv hi 16 - lo / 16)).map fun i => (e.element (lo / 16 + i)).1).eraseDups

/-! ### Where an element lies -/

/-- 16 bytes of a memory of the module: a Pantry by key, a slice of the module, or a stack. -/
inductive Spot where
  | pantry (key byte : Nat)
  | larder (slice byte : Nat)
  | cellar (stack byte : Nat)
deriving DecidableEq, Repr

/-- Module slice that a Larder endpoint names for module hall `h`. -/
def State.sliceAt (s : State) (e : Endpoint) (h : Nat) : Nat :=
  144 * (h / 48) + (s.handle (h / 48) e.handle).sliceFor h

/-- Element `i` of an endpoint, in module hall `h` (R154, R162, R196). -/
def State.spot (s : State) (e : Endpoint) (h i : Nat) : Spot :=
  match e.space with
  | 0 =>
    let key := 3 * h + e.core
    .pantry key ((32 * (e.granule + i / 2 * e.stride) + 16 * (i % 2)) % pantrySize key)
  | 1 =>
    let en := s.handle (h / 48) e.handle
    let p := e.element i
    .larder (s.sliceAt e h) (512 * (en.row0 + p.1) + 16 * (if en.grid then (p.1 + p.2) % 32 else p.2))
  | _ => .cellar e.stackCode (e.addr + 512 * e.stride * (i / 32) + 16 * (i % 32))

/-! ### Cellar contents (R175, R188, R189) -/

/-- The 512 B block at `a` of stack `k`. After the temperature limit a block that nothing has written since
holds free values. -/
def State.stackBlock (s : State) (k a : Nat) : Memory :=
  match s.cel.invalid with
  | some d =>
    if s.cel.rewritten.contains (k, a) then (s.stackOf k).window a 512
    else Memory.writeBytes [] 0 ((List.range 512).map fun i =>
      (Config.freeWord (d + (2 ^ 38 * k + a) / 8 + i / 8)).extractLsb' (8 * (i % 8)) 8)
  | none => (s.stackOf k).window a 512

/-- Store `n` bytes at offset `o` of the block at `a`. -/
def State.storeBlock (s : State) (k a o n : Nat) (w : Memory) : State :=
  let b := (s.stackBlock k a).place o n w.canon
  let s := s.setStack k ((s.stackOf k).place a 512 b)
  if s.cel.invalid.isSome && !s.cel.rewritten.contains (k, a) then
    { s with cel := { s.cel with rewritten := s.cel.rewritten ++ [(k, a)] } }
  else s

/-- `n` bytes of a stack from byte address `a`, as a window of their own. -/
def State.readStack (s : State) (k a : Nat) : Nat → List Byte
  | 0 => []
  | n + 1 => (s.stackBlock k (a / 512 * 512)).read (a % 512) :: State.readStack s k (a + 1) n

/-! ### Reading and writing elements -/

/-- 16 bytes. -/
def State.readSpot (s : State) : Spot → List Byte
  | .pantry key b => (s.pantryOf key).readBytes b 16
  | .larder k b => (s.sliceOf k).readBytes b 16
  | .cellar k b => s.readStack k b 16

def State.writeSpot (s : State) (bs : List Byte) : Spot → State
  | .pantry key b => s.setPantry key ((s.pantryOf key).writeBytes b bs)
  | .larder k b => s.setSlice k ((s.sliceOf k).writeBytes b bs)
  | .cellar k b => s.storeBlock k (b / 512 * 512) (b % 512) 16 (Memory.writeBytes [] 0 bs)

/-- The bytes [lo, hi) of a transfer, read at an endpoint into a buffer. -/
def State.readInto (s : State) (e : Endpoint) (h lo hi : Nat) (buf : Memory) : Memory :=
  (List.range (ceilDiv hi 16 - lo / 16)).foldl (fun buf i =>
    buf.writeBytes (16 * (lo / 16 + i)) (s.readSpot (s.spot e h (lo / 16 + i)))) buf

/-- The bytes [lo, hi) of a buffer, written at an endpoint. -/
def State.writeOut (s : State) (e : Endpoint) (h lo hi : Nat) (buf : Memory) : State :=
  (List.range (ceilDiv hi 16 - lo / 16)).foldl (fun s i =>
    s.writeSpot (buf.readBytes (16 * (lo / 16 + i)) 16) (s.spot e h (lo / 16 + i))) s

/-! ### Movers -/

/-- Tower and agent code (Table 5.7) of a porter, by its key. -/
def porterTower (k : Nat) : Nat := if k < 64 then k / 16 else (k - 64) / 48
def porterAgent (k : Nat) : Nat := if k < 64 then 144 + k % 16 else 160 + (k - 64) % 48

/-- A mover's number: a porter's key, or 256 + p for port p. -/
def moverKey : Mover → Nat
  | .porter p => p.val
  | .fabric p => 256 + p.val

/-- Tower of a mover. -/
def moverTower (k : Nat) : Nat := if k < 256 then porterTower k else portTower (k - 256)

/-- Agent code of a mover (R229). -/
def moverAgent (k : Nat) : Nat := if k < 256 then porterAgent k else 210

def isHallPorter (k : Nat) : Bool := decide (64 ≤ k ∧ k < 256)

/-- A hall porter's hall is enabled; every other mover is there. -/
def State.moverThere (s : State) (k : Nat) : Bool := !isHallPorter k || s.hallEnabled (k - 64)

/-- A transfer at its start. -/
def Transfer.begin (d : PDesc) (start : Nat) (tile : BitVec 8) (granule : BitVec 15) : Transfer :=
  { desc := d, start, tile, granule, supplied := none, halls := [], reads := 0, readBytes := 0, buf := [],
    shift := 0, lastRead := 0, avail := [], injected := 0, lastLower := 0, lastUpper := 0, lastInject := 0,
    flights := [], lastWrite := 0, lastArrive := 0, blocksLeft := none, label := 0#10, srank := 0#16,
    cls := 0#3, hops := 0, injBeats := [], closed := false, outs := [], heldLast := [],
    fwd := [], acks := none }

/-- The endpoint lies in another member (R329: the own rank is local). -/
def State.farAway (s : State) (e : Endpoint) : Bool := e.remote && e.rank != s.ranks.myRank

/-- A read that another member asked for: a REQ HEAD with a remote source (R331). -/
def Transfer.isServe (t : Transfer) : Bool := t.cls == clsReq && (PDesc.src t.desc).remote

/-- The transfer's source lies in another member. -/
def State.farSource (s : State) (t : Transfer) : Bool :=
  t.supplied.isNone && s.farAway (PDesc.src t.desc)

/-- A NOP, or a cast with no receiving hall (R205). -/
def Transfer.isEmpty (t : Transfer) : Bool :=
  PDesc.op t.desc == 0 || (PDesc.cast t.desc != 0 && t.halls.isEmpty)

/-- Packets that the mover injects: none, the one request of a remote read, or the transfer's packets. -/
def State.toInject (s : State) (k : Nat) (t : Transfer) : Nat :=
  if t.isEmpty then 0
  else if k < 256 then (if s.farSource t then 1 else PDesc.packets t.desc)
  else if t.isServe then PDesc.packets t.desc else 0

/-- Bridges and agents: the place of mover `k` in the order of R181 at a stack of tower `t`. -/
def cellarOrder (k t : Nat) : Nat :=
  (if moverTower k = t then 0 else 100 * (moverTower k + 1))
    + (if k < 64 then k % 16 else if k < 256 then 48 + (k - 64) % 48 else 16 + (k - 256))

/-- Module hall of destination `j` of a transfer. -/
def Transfer.destHall (t : Transfer) (j : Nat) : Nat :=
  if PDesc.cast t.desc = 0 then (PDesc.dst t.desc).mhall else t.halls.getD j 0

/-- Number of destinations on the module. -/
def Transfer.dests (t : Transfer) : Nat := if PDesc.cast t.desc = 0 then 1 else t.halls.length

/-- Tower and tile of an endpoint in module hall `h`: of the Pantry's tile, the slice, or the attachment tile of
the stack (R200). -/
def State.routerOf (s : State) (e : Endpoint) (h : Nat) : Nat × Nat :=
  match e.space with
  | 0 => (hallTower h, tileOf h e.core)
  | 1 => (hallTower h, s.sliceAt e h % 144)
  | _ => (stackTower e.stackCode, stackTile e.stackCode)

/-- Where a transfer's packets enter the mesh (R200, R204, R544). -/
def State.meshEntry (s : State) (k : Nat) (t : Transfer) : Nat × Nat :=
  if t.supplied.isSome then (0, 0)
  else if 256 ≤ k && !t.isServe then (portTower (k - 256), portTile (k - 256))
  else s.routerOf (PDesc.src t.desc) (PDesc.src t.desc).mhall

/-! ### Handle checks of a porter (R164, R165) -/

/-- First row offset beyond a region among `n` that begin at `o`, `z` apart. -/
def firstBeyond (lenm1 o z n : Nat) : Option Nat :=
  let u := if lenm1 < o then 0 else (lenm1 - o) / z + 1
  if u < n then some (o + u * z) else none

/-- The handle fault of an `n`-byte endpoint in module hall `h`: cause and row offset. -/
def State.endpointFault (s : State) (e : Endpoint) (h n : Nat) : Option (Nat × Nat) :=
  let en := s.handle (h / 48) e.handle
  if !en.valid then some (1, e.row)
  else if e.groups then
    (firstBeyond en.lenm1 e.row e.stride e.count).map fun o => (5, o)
  else
    let units := ceilDiv n 512
    match firstBeyond en.lenm1 e.row e.stride units with
    | some o => some (2, o)
    | none => if !en.grid && n % 512 != 0 then some (4, e.row + (units - 1) * e.stride) else none

/-- What an access of a mover to rows of a Larder endpoint meets: `none` where it is performed. -/
def State.rowsFault (s : State) (k : Nat) (e : Endpoint) (h lo hi : Nat) (write : Bool) : Option State :=
  let t := h / 48
  let en := s.handle t e.handle
  if !en.ok then some (s.mismatch t 1 e.handle (moverAgent k))
  else if !en.valid then some (s.handleFault t 1 e.handle (moverAgent k) e.row)
  else (e.rows lo hi).findSome? fun o => s.guardFault t e.handle o write (moverAgent k)

/-- The porter port's accesses to the banks of a Pantry endpoint's bytes [lo, hi) at beat `b`. -/
def State.markBanks (s : State) (e : Endpoint) (h lo hi b : Nat) : State :=
  let key := 3 * h + e.core
  s.markAll (((List.range (ceilDiv hi 32 - lo / 32)).map fun i =>
    pantryBank key ((e.granule + (lo / 32 + i) * e.stride) % (pantrySize key / 32))).eraseDups) b

/-! ### Copying packet by packet (R197) -/

/-- Packet `x` has reached destination `j`. -/
def Transfer.received (t : Transfer) (x j : Nat) : Bool :=
  decide (x < t.injected) && !(t.flights.any fun f => f.packet == x && f.dest == j)

/-- The packets that carry the bytes [lo, hi) have all reached destination `j`. -/
def Transfer.arrived (t : Transfer) (lo hi j : Nat) : Bool :=
  (List.range (ceilDiv hi 128 - lo / 128)).all fun i => t.received (lo / 128 + i) j

/-- Element `y` of a transfer of mover `k` is not yet written at destination `j`: its packet, or another of its row or
line, is on the way, or its slice access has still to be served. -/
def State.notWritten (s : State) (k : Nat) (t : Transfer) (y j : Nat) : Bool :=
  let e := PDesc.dst t.desc
  if e.space = 2 then !(t.blocksLeft == some 0)
  else
    let r := if e.space = 1 then e.access (PDesc.bytes t.desc) (e.accessOf (16 * y)) else (16 * y, 16 * y + 16)
    !t.arrived r.1 r.2 j || s.ld.runs.any fun x => (x.acts.drop x.done).any fun a =>
      match a with
      | .line m start _ _ h lo hi _ _ _ => m == k && start == t.start && h == t.destHall j && decide (lo ≤ 16 * y ∧ 16 * y < hi)
      | _ => false

/-- The element of an earlier packet that has still to be written where element `x` of the source lies: `x` takes its bytes
(R197). -/
def State.writtenLater (s : State) (k : Nat) (t : Transfer) (x : Nat) : Option Nat :=
  let e := PDesc.src t.desc
  let d := PDesc.dst t.desc
  if t.supplied.isNone && e.space == d.space && !s.farAway d then
    let from_ := s.spot e e.mhall x
    (List.range (x / 8 * 8)).reverse.find? fun y =>
      (List.range t.dests).any fun j => s.spot d (t.destHall j) y == from_ && s.notWritten k t y j
  else none

/-- Note which of the elements of [lo, hi), read now, earlier packets of the transfer have still to write. -/
def State.markFwd (s : State) (k : Nat) (t : Transfer) (lo hi : Nat) : Transfer :=
  { t with fwd := (List.range (ceilDiv hi 16 - lo / 16)).foldl (fun m i =>
      match s.writtenLater k t (lo / 16 + i) with
      | some y => SMap.set 0 m (lo / 16 + i) (y + 1)
      | none => m) t.fwd }

/-- The buffer with the bytes [lo, hi) as their packet carries them: an element that an earlier packet was still to write
when it was read carries the new bytes. -/
def Transfer.forwarded (t : Transfer) (lo hi : Nat) : Memory :=
  (List.range (ceilDiv hi 16 - lo / 16)).foldl (fun buf i =>
    let y := SMap.get 0 t.fwd (lo / 16 + i)
    if y = 0 then buf else buf.writeBytes (16 * (lo / 16 + i)) (buf.readBytes (16 * (y - 1)) 16)) t.buf

/-- The porter writes a staged unit: the staging is emptied (R210). -/
def State.unstage (s : State) (k : Nat) (larder : Bool) (places : List Nat) : State :=
  if k < 256 then
    let p := s.porter k
    if p.staging.any fun x => x.larder == larder && places.contains x.place
    then s.setPorter k { p with staging := [] } else s
  else s

end Sys2Proof.Machine
end

