-- ==== Sys2Proof/Machine/Flags.lean ====
section
/-! DEFINITION. The sticky status words of the cores (Tables 3.9 and 4.4): which bit each condition sets and
how the words are cleared. -/

namespace Sys2Proof.Machine

/-- CMD_RESERVED of a matrix core (Table 3.9), INS_RESERVED of a vector core and PACE_LATE (Table 4.4). -/
def bitCmdReserved : BitVec 8 := 0x10#8
def bitFtqWait : BitVec 8 := 0x20#8
def bitInsReserved : BitVec 8 := 0x20#8
def bitPaceLate : BitVec 8 := 0x10#8

/-- Set conditions in a matrix core's sticky word. -/
def MCore.flag (m : MCore) (f : BitVec 8) : MCore := { m with status := m.status ||| f }

/-- Clear the bits of a mask (R73). -/
def MCore.unflag (m : MCore) (f : BitVec 8) : MCore := { m with status := m.status &&& ~~~f }

/-- Set conditions in a vector core's sticky word (R140). -/
def VCore.flag (v : VCore) (f : BitVec 8) : VCore := { v with status := v.status ||| f }

def VCore.unflag (v : VCore) (f : BitVec 8) : VCore := { v with status := v.status &&& ~~~f }

/-- FORMAT_RESERVED where a code stands outside its role (R38). -/
def formatFlag (ok : Bool) : BitVec 8 := if ok then 0#8 else condFmtReserved

end Sys2Proof.Machine
end

