-- ==== Sys2Proof/Machine/Fp32.lean ====
section
/-! DEFINITION. FP32 arithmetic, comparison and conversion of the vector core (R120 to R122, R124). -/

namespace Sys2Proof.Machine

/-- The canonical FP32 NaN (Table 2.5). -/
def nan32 : W32 := 0x7FC00000#32
def inf32 : W32 := 0x7F800000#32

/-- Sign of an FP32 encoding. -/
def neg32 (a : W32) : Bool := a.msb

/-- A sign put on an encoding whose sign bit is 0. -/
def signed32 (neg : Bool) (a : W32) : W32 := if neg then a ||| 0x80000000#32 else a

/-- The value of an FP32 encoding (R40). -/
def val32 (a : W32) : Val := decodeFloat fmtFP32 a.toNat

def isNaN32 (a : W32) : Bool := decide (val32 a = .nan)
def isInf32 (a : W32) : Bool := decide (a &&& 0x7FFFFFFF#32 = inf32)
def isZero32 (a : W32) : Bool := decide (a &&& 0x7FFFFFFF#32 = 0#32)

/-- Magnitude and exponent of a finite encoding (R124, decode32). -/
def mag32 (a : W32) : Nat :=
  let f := a.toNat % 2 ^ 23
  if a.toNat / 2 ^ 23 % 256 = 0 then f else 2 ^ 23 + f

def exp32 (a : W32) : Int :=
  let e : Nat := a.toNat / 2 ^ 23 % 256
  if e = 0 then -149 else (e : Int) - 150

/-- R124, rne32: `mag * 2^e` to FP32, to nearest, ties to even, an overflow to infinity. Values beyond the
range answer without forming their shift. -/
def rne32 (neg : Bool) (mag : Nat) (e : Int) : W32 :=
  if mag = 0 then signed32 neg 0#32
  else
    let lead : Int := (leadBit mag : Int) + e
    if lead < -150 then signed32 neg 0#32
    else if 128 < lead then signed32 neg inf32
    else
      let q := max lead (-126) - 23
      let kept := roundKept mag (q - e) 0#2 0
      let raw := (q + 149).toNat * 2 ^ 23 + kept
      signed32 neg (if 0x7F800000 ≤ raw then inf32 else BitVec.ofNat 32 raw)

/-- A finite signed term: sign, magnitude, exponent. -/
structure Term where
  neg : Bool
  mag : Nat
  e : Int
deriving DecidableEq, Repr

def Term.of32 (a : W32) : Term := ⟨neg32 a, mag32 a, exp32 a⟩

def Term.int (t : Term) (e0 : Int) : Int :=
  let v : Int := t.mag * 2 ^ (t.e - e0).toNat
  if t.neg then -v else v

/-- The exact sum of two finite terms, rounded once. A zero sum is −0 only where both terms are −0 (IEEE 754,
to nearest). -/
def sumTerms (p q : Term) : W32 :=
  let e0 := min p.e q.e
  let v := p.int e0 + q.int e0
  if v = 0 then signed32 (p.neg && q.neg && decide (p.mag = 0) && decide (q.mag = 0)) 0#32
  else rne32 (decide (v < 0)) v.natAbs e0

/-- FADD (R120). -/
def fadd32 (a b : W32) : W32 :=
  if isNaN32 a || isNaN32 b then nan32
  else if isInf32 a then (if isInf32 b && neg32 a != neg32 b then nan32 else a)
  else if isInf32 b then b
  else sumTerms (Term.of32 a) (Term.of32 b)

def fneg32 (a : W32) : W32 := a ^^^ 0x80000000#32

/-- FSUB. -/
def fsub32 (a b : W32) : W32 := if isNaN32 b then nan32 else fadd32 a (fneg32 b)

/-- FMUL. -/
def fmul32 (a b : W32) : W32 :=
  let s := neg32 a != neg32 b
  if isNaN32 a || isNaN32 b then nan32
  else if isInf32 a || isInf32 b then
    (if isZero32 a || isZero32 b then nan32 else signed32 s inf32)
  else rne32 s (mag32 a * mag32 b) (exp32 a + exp32 b)

/-- FMA: `a * b + c`, one rounding. -/
def fma32 (a b c : W32) : W32 :=
  let s := neg32 a != neg32 b
  if isNaN32 a || isNaN32 b || isNaN32 c then nan32
  else if isInf32 a || isInf32 b then
    (if isZero32 a || isZero32 b then nan32
     else if isInf32 c && neg32 c != s then nan32
     else signed32 s inf32)
  else if isInf32 c then c
  else sumTerms ⟨s, mag32 a * mag32 b, exp32 a + exp32 b⟩ (Term.of32 c)

/-- FNMS: `c - a * b`, one rounding. -/
def fnms32 (a b c : W32) : W32 := fma32 (if isNaN32 a then a else fneg32 a) b c

/-- An order key in which −0 stands below +0 (R121). -/
def key32 (a : W32) : Int :=
  let m : Int := ((a.toNat % 2 ^ 31 : Nat) : Int)
  if neg32 a then -m - 1 else m

/-- FMIN and FMAX (R121). -/
def fmin32 (a b : W32) : W32 :=
  if isNaN32 a || isNaN32 b then nan32 else if key32 a ≤ key32 b then a else b

def fmax32 (a b : W32) : W32 :=
  if isNaN32 a || isNaN32 b then nan32 else if key32 b ≤ key32 a then a else b

/-- The value order of two non-NaN encodings: −0 equals +0. -/
def ord32 (a : W32) : Int := if neg32 a then -((a.toNat % 2 ^ 31 : Nat) : Int) else (a.toNat : Int)

/-- FCMP (R121): EQ, NE, LT, LE, UN, OR; 6 and 7 are false (R113). -/
def fcmp32 (cond : Nat) (a b : W32) : Bool :=
  let un := isNaN32 a || isNaN32 b
  match cond with
  | 0 => !un && decide (ord32 a = ord32 b)
  | 1 => un || decide (ord32 a ≠ ord32 b)
  | 2 => !un && decide (ord32 a < ord32 b)
  | 3 => !un && decide (ord32 a ≤ ord32 b)
  | 4 => un
  | 5 => !un
  | _ => false

/-- FSCALE: `a * 2^k`, one rounding. -/
def fscale32 (a b : W32) : W32 :=
  if isNaN32 a then nan32
  else if isInf32 a || isZero32 a then a
  else rne32 (neg32 a) (mag32 a) (exp32 a + b.toInt)

/-- `m * 2^e` rounded to an integer: 0 to nearest even, 1 toward zero, 2 toward −∞, 3 toward +∞. -/
def roundIntegral (mode : Nat) (neg : Bool) (mag : Nat) (e : Int) : Int :=
  if 0 ≤ e then
    let v : Int := mag * 2 ^ e.toNat
    if neg then -v else v
  else
    let d := 2 ^ (-e).toNat
    let near : Int := roundKept mag (-e) 0#2 0
    let x : Int := if neg then -(mag : Int) else mag
    match mode with
    | 0 => if neg then -near else near
    | 1 => if neg then -((mag / d : Nat) : Int) else ((mag / d : Nat) : Int)
    | 2 => x / (d : Int)
    | _ => -((-x) / (d : Int))

/-- FRINT. -/
def frint32 (mode : Nat) (a : W32) : W32 :=
  if isNaN32 a then nan32
  else if isInf32 a || isZero32 a then a
  else
    let v := roundIntegral mode (neg32 a) (mag32 a) (exp32 a)
    rne32 (neg32 a) v.natAbs 0

/-- CVTIF (R122). -/
def cvtif32 (a : W32) : W32 := rne32 a.msb a.toInt.natAbs 0

/-- CVTFI (R122), with OUT_SAT. -/
def cvtfi32 (mode : Nat) (a : W32) : W32 × BitVec 8 :=
  if isNaN32 a then (0#32, condOutSat)
  else if isInf32 a then ((if neg32 a then 0x80000000#32 else 0x7FFFFFFF#32), condOutSat)
  else
    let v := roundIntegral mode (neg32 a) (mag32 a) (exp32 a)
    let v' := clampInt (-2 ^ 31) (2 ^ 31 - 1) v
    (BitVec.ofInt 32 v', if v' ≠ v then condOutSat else 0#8)

/-- Conversion to a narrower float format (R122): saturating, a zero result keeps its sign. `nan` is the
target's canonical NaN. -/
def narrow32 (f : FloatFmt) (nan : Nat) (a : W32) : Nat × BitVec 8 :=
  let sgn := if neg32 a then 2 ^ (f.m + f.eBits) else 0
  if isNaN32 a then (nan, 0#8)
  else if isInf32 a then (sgn + f.maxCode, condOutSat)
  else
    let r := roundFloat f ⟨mag32 a, exp32 a⟩ 0#2 0
    (sgn + r.1, if r.2 then condOutSat else 0#8)

/-- The FP32 encoding of an element of a narrower float format; exact, the sign of a zero kept. -/
def widen32 (f : FloatFmt) (w : Nat) : W32 :=
  let neg := decide (w / 2 ^ (f.m + f.eBits) % 2 = 1)
  match decodeFloat f w with
  | .nan => nan32
  | .inf n => signed32 n inf32
  | .fin m e => rne32 neg m.natAbs e

/-- An FP32 lane as an exact value, infinities and NaN as `none` (R46, R127). -/
def exact32 (a : W32) : Option Dy :=
  match val32 a with
  | .fin m e => some ⟨m, e⟩
  | _ => none

/-- An exact value as FP32 under R120: zero is +0. -/
def ofExact32 (d : Dy) : W32 := if d.m = 0 then 0#32 else rne32 (decide (d.m < 0)) d.m.natAbs d.e

end Sys2Proof.Machine
end

