-- ==== Sys2Proof/Machine/Operands.lean ====
section
/-! DEFINITION. The operand forms of the vector core: registers, lanes, packed elements and predicates
(R109 to R111, R118). -/

namespace Sys2Proof.Machine

/-- A 1,024 B register image. -/
abbrev VReg := BitVec 8192

/-- A scalar register; s0 reads 0. -/
def VCore.sreg (v : VCore) (k : BitVec 5) : W64 := if k = 0#5 then 0#64 else SMap.get 0#64 v.s k.toNat

/-- R111: a write to s0 is discarded. -/
def VCore.setS (v : VCore) (k : BitVec 5) (x : W64) : VCore :=
  if k = 0#5 then v else { v with s := SMap.set 0#64 v.s k.toNat x }

/-- A predicate; p0 reads all ones. -/
def VCore.preg (v : VCore) (k : BitVec 3) : BitVec 256 :=
  if k = 0#3 then BitVec.allOnes 256 else SMap.get 0#256 v.p k.toNat

/-- R111: a write to p0 is discarded. -/
def VCore.setP (v : VCore) (k : BitVec 3) (x : BitVec 256) : VCore :=
  if k = 0#3 then v else { v with p := SMap.set 0#256 v.p k.toNat x }

def VCore.vreg (v : VCore) (k : BitVec 6) : VReg := SMap.get 0#8192 v.v k.toNat
def VCore.setV (v : VCore) (k : BitVec 6) (x : VReg) : VCore := { v with v := SMap.set 0#8192 v.v k.toNat x }

def VCore.esElem (v : VCore) (k : BitVec 3) (i : Nat) : Acc := SMap.get Acc.zero v.es (256 * k.toNat + i)

/-- Replace the elements of an exact-sum register. -/
def VCore.setEs (v : VCore) (k : BitVec 3) (f : Nat → Acc) : VCore :=
  { v with es := (List.range 256).foldl (fun m i => SMap.set Acc.zero m (256 * k.toNat + i) (f i)) v.es }

/-- The low bits that name SD, SA, PD or PA where the opcode says so (Table 4.2). -/
def scalarName (k : BitVec 6) : BitVec 5 := k.setWidth 5
def predName (k : BitVec 6) : BitVec 3 := k.setWidth 3

/-- The `n` lowest `w`-bit elements `f 0, f 1, …` packed, element 0 lowest. -/
def packElems (w : Nat) (f : Nat → Nat) : Nat → Nat
  | 0 => 0
  | n + 1 => packElems w f n + f n % 2 ^ w * 2 ^ (w * n)

/-- Element `i` of width `w` of a register (R109). -/
def elemOf (w : Nat) (r : VReg) (i : Nat) : Nat := r.toNat / 2 ^ (w * i) % 2 ^ w

/-- Lane `i`. -/
def lane (r : VReg) (i : Nat) : W32 := r.extractLsb' (32 * i) 32

/-- The register whose lanes are given. -/
def ofLanes (f : Nat → W32) : VReg := BitVec.ofNat 8192 (packElems 32 (fun i => (f i).toNat) 256)

/-- The register whose `w`-bit elements are given. -/
def ofElems (w : Nat) (f : Nat → Nat) : VReg := BitVec.ofNat 8192 (packElems w f (8192 / w))

/-- R118: active lanes take the new value; inactive ones are kept, or 0 where ZERO = 1. -/
def maskLanes (pred : BitVec 256) (zero : Bool) (old : VReg) (f : Nat → W32) : VReg :=
  ofLanes fun i => if pred.getLsbD i then f i else if zero then 0#32 else lane old i

/-- Write lanes of VD under a predicate (R118). -/
def VCore.writeLanes (v : VCore) (vd : BitVec 6) (pred : BitVec 3) (zero : Bool) (f : Nat → W32) : VCore :=
  v.setV vd (maskLanes (v.preg pred) zero (v.vreg vd) f)

/-- The conditions that active lanes meet; a lane that PRED makes inactive meets none, of which spec/ says nothing (DESIGN
CHOICE, log row 118). -/
def laneConds (pred : BitVec 256) (f : Nat → BitVec 8) : BitVec 8 :=
  (List.range 256).foldl (fun c i => if pred.getLsbD i then c ||| f i else c) 0#8

/-- R118 for a predicate destination. -/
def VCore.writePred (v : VCore) (pd : BitVec 3) (pred : BitVec 3) (zero : Bool) (bits : BitVec 256) : VCore :=
  let m := v.preg pred
  let old := if zero then 0#256 else v.preg pd
  v.setP pd ((bits &&& m) ||| (old &&& ~~~m))

/-- A predicate from a test of each lane. -/
def predOf (f : Nat → Bool) : BitVec 256 :=
  BitVec.ofNat 256 (packElems 1 (fun i => if f i then 1 else 0) 256)

/-- Element width of a FORM; 3 is reserved and acts as 0 (R113). -/
def formWidth (form : BitVec 2) : Nat := if form = 1#2 then 16 else if form = 2#2 then 8 else 32

/-- INS_RESERVED for a FORM: 3 is reserved, and on an FP32-only instruction every FORM but 0 is (R113). FORM 1 or 2 of another
whole-lane instruction is ignored: spec/ gives it no effect (DESIGN CHOICE, log row 119). -/
def formFlag (fp32Only : Bool) (form : BitVec 2) : BitVec 8 :=
  if form = 3#2 || (fp32Only && form != 0#2) then bitInsReserved else 0#8

/-- A lane of packed results: `op` on the `w`-bit elements of two lanes (R109). -/
def packedLane (w : Nat) (op : Nat → Nat → Nat) (a b : W32) : W32 :=
  BitVec.ofNat 32 (packElems w (fun k => op (a.toNat / 2 ^ (w * k) % 2 ^ w) (b.toNat / 2 ^ (w * k) % 2 ^ w)) (32 / w))

/-- Every packed element pair of two lanes passes a test. -/
def packedAll (w : Nat) (op : Nat → Nat → Bool) (a b : W32) : Bool :=
  (List.range (32 / w)).all fun k =>
    op (a.toNat / 2 ^ (w * k) % 2 ^ w) (b.toNat / 2 ^ (w * k) % 2 ^ w)

/-- The 1,024 bytes of a register image, in address order. -/
def regBytes (r : VReg) : List Byte := bytesLE r.toNat 1024

/-- The register that 1,024 bytes of a window spell. -/
def regOfWindow (w : Memory) : VReg := BitVec.ofNat 8192 (w.readLE 0 1024)

end Sys2Proof.Machine
end

