-- ==== Sys2Proof/Machine/Stages.lean ====
section
/-! DEFINITION. Post descriptors, posts and send stages as registers: what a PSEND leaves in its stage (spec/08). -/

namespace Sys2Proof.Machine

/-! ### The post descriptor (Table 8.2) -/

abbrev PostDesc := BitVec 256

def PostDesc.remote (d : PostDesc) : Bool := d.getLsbD 63
def PostDesc.rank (d : PostDesc) : BitVec 16 := d.extractLsb' 47 16
def PostDesc.tower (d : PostDesc) : Nat := (d.extractLsb' 45 2).toNat
def PostDesc.hall (d : PostDesc) : Nat := (d.extractLsb' 39 6).toNat
def PostDesc.core (d : PostDesc) : Nat := (d.extractLsb' 37 2).toNat
def PostDesc.post (d : PostDesc) : Nat := (d.extractLsb' 32 5).toNat
def PostDesc.tag (d : PostDesc) : BitVec 16 := d.extractLsb' 16 16
def PostDesc.wantReply (d : PostDesc) : Bool := d.getLsbD 7
def PostDesc.ackSig (d : PostDesc) : Bool := d.getLsbD 6
def PostDesc.srank (d : PostDesc) : BitVec 16 := d.extractLsb' 112 16
def PostDesc.stower (d : PostDesc) : Nat := (d.extractLsb' 110 2).toNat
def PostDesc.shall (d : PostDesc) : Nat := (d.extractLsb' 104 6).toNat
def PostDesc.score (d : PostDesc) : Nat := (d.extractLsb' 102 2).toNat
def PostDesc.rpost (d : PostDesc) : Nat := (d.extractLsb' 97 5).toNat
def PostDesc.abell (d : PostDesc) : Nat := (d.extractLsb' 84 13).toNat
def PostDesc.outcome (d : PostDesc) : BitVec 2 := d.extractLsb' 82 2

/-- D1 with the sender's fields filled and OUTCOME 0 (R235). -/
def PostDesc.stamp (d : PostDesc) (srank : BitVec 16) (stower : BitVec 2) (shall : BitVec 6) (score : BitVec 2) :
    PostDesc :=
  d.extractLsb' 128 128 ++ srank ++ stower ++ shall ++ score ++ d.extractLsb' 84 18 ++ 0#2 ++ d.extractLsb' 0 82

/-- The descriptor with an outcome (R240). -/
def PostDesc.withOutcome (d : PostDesc) (o : BitVec 2) : PostDesc :=
  d.extractLsb' 84 172 ++ o ++ d.extractLsb' 0 82

/-- Key of the destination post: 96 h + 32 c + p. -/
def PostDesc.key (d : PostDesc) : Nat := 96 * (48 * d.tower + d.hall) + 32 * d.core + d.post

/-- The destination lies in another member (R329: the own rank is local). -/
def State.away (s : State) (d : PostDesc) : Bool := d.remote && d.rank != s.ranks.myRank

/-! ### Posts and stages -/

def State.post (s : State) (k : Nat) : Post := SMap.get Post.empty s.pb.posts k
def State.setPost (s : State) (k : Nat) (p : Post) : State :=
  { s with pb := { s.pb with posts := SMap.set Post.empty s.pb.posts k p } }
def State.stage (s : State) (k : Nat) : Stage := SMap.get Stage.empty s.pb.stages k
def State.setStage (s : State) (k : Nat) (g : Stage) : State :=
  { s with pb := { s.pb with stages := SMap.set Stage.empty s.pb.stages k g } }

/-- Number of the front desk's stage. -/
def deskStage : Nat := 192

/-- Tower, tile and agent code of a stage. -/
def stageTower (g : Nat) : Nat := if g = deskStage then 0 else hallTower g
def stageTile (g : Nat) : Nat := if g = deskStage then 0 else tileOf g 2
def stageAgent (g : Nat) : Nat := if g = deskStage then 208 else tileOf g 2

/-- Occupancy (R232). -/
def Post.occupied (p : Post) : Nat := (p.sent.v - p.taken.v).toNat

/-- A slot that is neither occupied nor reserved (R235, R237). -/
def Post.hasFree (p : Post) : Bool := decide (p.occupied + p.reserved < 64)

def Post.pairsOk (p : Post) : Bool := p.sent.ok && p.taken.ok

/-- Tower and tile of post `k`. -/
def postTower (k : Nat) : Nat := hallTower (k / 96)
def postTile (k : Nat) : Nat := tileOf (k / 96) (k % 96 / 32)

/-! ### Staging a send (R235, R248) -/

/-- The cause of a post fault (R248, Table 8.10); 0 for none. -/
def State.postFault (s : State) (d : PostDesc) : Nat :=
  if d.core = 3 then 1
  else if 47 < d.hall then 4
  else if s.away d then (if s.ranks.jobSize.toNat ≤ d.rank.toNat then 3 else 0)
  else if s.hallEnabled (48 * d.tower + d.hall) then 0 else 2

/-- Record and raise a post fault. -/
def State.raisePostFault (s : State) (cause t agent : Nat) (d : PostDesc) : State :=
  let dhall := if s.away d then 255 else 48 * d.tower + d.hall
  let w : W64 := BitVec.ofNat 4 cause ++ BitVec.ofNat 8 agent ++ d.tag ++ BitVec.ofNat 8 dhall
    ++ BitVec.ofNat 7 (32 * d.core + d.post) ++ 0#21
  ({ s with pb := { s.pb with lastPostFault := SMap.set 0#64 s.pb.lastPostFault t w } }).raiseError .jobFatal
    0x3361#16 (BitVec.ofNat 8 t) w

/-- What the stage of hall `h` does with a descriptor staged at `b` (R235): the state and the status word. A reply post whose
pair fails holds back the send, and is raised (R8). -/
def State.stageSend (s : State) (h : Nat) (d : PostDesc) (granule b : Nat) : State × W64 :=
  let g := s.stage h
  let t := hallTower h
  let k := 96 * h + 64 + d.rpost
  let word (seq : BitVec 32) (n res : Nat) : W64 := seq ++ 0#16 ++ BitVec.ofNat 8 n ++ BitVec.ofNat 8 res
  let want := d.wantReply && decide (d.post < 16)
  if 8 ≤ g.entries.length then
    ({ s with pb := { s.pb with stageFull := bump s.pb.stageFull t 1 } }, word g.seq g.entries.length 1)
  else if want && decide (d.rpost < 16) then (s, word g.seq g.entries.length 3)
  else if want && !(s.post k).pairsOk then (s.mismatch t 4 (k % 96) (stageAgent h), word g.seq g.entries.length 2)
  else if want && !(s.post k).hasFree then
    ({ s with pb := { s.pb with rsvFull := bump s.pb.rsvFull t 1 } }, word g.seq g.entries.length 2)
  else
    let s := if want then s.setPost k { s.post k with reserved := (s.post k).reserved + 1 } else s
    let seq := g.seq + 1
    let d := d.stamp s.ranks.myRank (BitVec.ofNat 2 t) (BitVec.ofNat 6 (h % 48)) 2#2
    (s.setStage h { g with seq := seq, entries := g.entries ++ [⟨seq, d, granule, b, .staged⟩] },
     word seq (g.entries.length + 1) 0)

end Sys2Proof.Machine
end

