-- ==== Sys2Proof/Machine/Tile.lean ====
section
/-! DEFINITION. Weight tiles, activation vectors and what an ACC makes of them (R74 to R84, R96, R98). -/

namespace Sys2Proof.Machine

/-- Bytes as a memory that begins at 0. -/
def memOfBytes : List Byte → Nat → Memory
  | [], _ => []
  | b :: bs, k => if b = 0#8 then memOfBytes bs (k + 1) else (k, b) :: memOfBytes bs (k + 1)

/-- Rows of the element plane, and of the scale plane, that a load reads (Table 3.2). -/
def elemRows (f : Fmt) : Nat := 128 * (if f.pair then 256 else 128) * f.arrayBits / 8 / 512
def scaleRows (f : Fmt) : Nat := if f.isMx then (if f.pair then 2 else 1) else 0

/-- R96: the formats whose Larder loads may transpose. -/
def xposeFmt (f : Fmt) : Bool := f == 3#4 || f == 5#4 || f == 6#4 || f == 10#4

/-- Windows of `n` bytes, one after another. -/
def joinPieces (n : Nat) : List Memory → Nat → Memory
  | [], _ => []
  | w :: ws, k => (w.map fun e => (n * k + e.1, e.2)) ++ joinPieces n ws (k + 1)

/-- Rows, one after another. -/
def joinRows : List Memory → Nat → Memory := joinPieces 512

/-! ### ACC (R74 to R84, R98, R99) -/

/-- Columns of a slot (R77). -/
def Tile.cols (t : Tile) : Nat := if Fmt.pair t.fmt then 256 else 128

/-- Byte `k` of a plane held as a window. -/
def planeByte (p : Memory) (k : Nat) : Byte := p.read k

/-- Stored element (r, c) of a tile (R79). -/
def Tile.code (t : Tile) (r c : Nat) : Nat := planeElem t.elems 0 (Fmt.arrayBits t.fmt) (r * t.cols + c)

/-- Scale byte of the stored block that holds element (r, c). -/
def Tile.scaleAt (t : Tile) (r c : Nat) : Byte := planeByte t.scales (r * (t.cols / 32) + c / 32)

/-- Where slot element (i, j) is stored: its own place, or the transposed one (R96). -/
def Tile.place (t : Tile) (i j : Nat) : Nat × Nat := if t.xpose then (j, i) else (i, j)

/-- Slot element (i, j) as a value (R43, R96). -/
def Tile.weight (t : Tile) (i j : Nat) : Option Dy :=
  let p := t.place i j
  arrayElem t.fmt (t.code p.1 p.2) (t.scaleAt p.1 p.2)

/-- Block exponent of a block of an array operand; an operand the array does not accept has none (R55). -/
def arrayBlockExp (f : Fmt) (ws : List Nat) (scale : Byte) : Option Int :=
  if f.arraySource then blockExp f ws scale else none

/-- Block exponent of the stored block that holds slot element (i, j) (R84). -/
def Tile.weightExp (t : Tile) (i j : Nat) : Option Int :=
  let p := t.place i j
  arrayBlockExp t.fmt ((List.range 32).map fun k => t.code p.1 (p.2 / 32 * 32 + k)) (t.scaleAt p.1 p.2)

/-- One activation vector: its format and its planes (R80). -/
structure ActVec where
  fmt : BitVec 4
  elems : Memory
  scales : Memory
deriving DecidableEq, Repr

def ActVec.code (x : ActVec) (k : Nat) : Nat := planeElem x.elems 0 (Fmt.arrayBits x.fmt) k

def ActVec.value (x : ActVec) (k : Nat) : Option Dy :=
  arrayElem x.fmt (x.code k) (planeByte x.scales (k / 32))

def ActVec.exp (x : ActVec) (k : Nat) : Option Int :=
  arrayBlockExp x.fmt ((List.range 32).map fun i => x.code (k / 32 * 32 + i)) (planeByte x.scales (k / 32))

/-- The products of output position `y` and their block-exponent pairs (R78, R84): `n` inner positions. -/
def outProducts (t : Tile) (orient : Bool) (x : ActVec) (y : Nat) : List (Option Dy) :=
  if orient then (List.range 128).map fun i => mulElem (t.weight i y) (x.value i)
  else (List.range t.cols).map fun j => mulElem (t.weight y j) (x.value j)

def outPairs (t : Tile) (orient : Bool) (x : ActVec) (y : Nat) : List (Option Int × Option Int) :=
  if orient then (List.range 128).map fun i => (t.weightExp i y, x.exp i)
  else (List.range t.cols).map fun j => (t.weightExp y j, x.exp j)

/-- R83, R84: an element before its products are added. -/
def accStart (a : AccArgs) (t : Tile) (x : ActVec) (y : Nat) (old : Acc) : Acc :=
  if a.clear then Acc.anchored (if a.auto then autoAnchor (outPairs t a.orient x y) else a.anchor.toInt) else old

/-- One element after the command's products for it (R98). -/
def accElem (a : AccArgs) (t : Tile) (x : ActVec) (y : Nat) (old : Acc) : Acc × BitVec 8 :=
  (accStart a t x y old).addAll (outProducts t a.orient x y)

/-- Key of element (o, b) of bank k. -/
def bankKey (k o b : Nat) : Nat := 16384 * k + 128 * o + b

/-- Every element of a bank cleared (R85). -/
def clearBank (banks : SMap Acc) (k : Nat) : SMap Acc := banks.filter fun e => decide (e.1 / 16384 ≠ k)

/-- R82: bank and position of output `y`. -/
def outPlace (a : AccArgs) (t : Tile) (y : Nat) : Nat × Nat :=
  if a.orient && Fmt.pair t.fmt then (a.bank.toNat / 2 * 2 + y / 128, y % 128) else (a.bank.toNat, y)

/-- Outputs of a vector (R78). -/
def outCount (a : AccArgs) (t : Tile) : Nat := if a.orient then t.cols else 128

/-- The banks, and the conditions met, after one vector goes into its column. -/
def accColumn (a : AccArgs) (t : Tile) (col : Nat) (x : ActVec) (r : SMap Acc × BitVec 8) : SMap Acc × BitVec 8 :=
  (List.range (outCount a t)).foldl (fun r y =>
    let p := outPlace a t y
    let k := bankKey p.1 p.2 col
    let e := accElem a t x y (SMap.get Acc.zero r.1 k)
    (SMap.set Acc.zero r.1 k e.1, r.2 ||| e.2)) r

/-- Number of vectors, and the column of vector c (R82). -/
def accCount (a : AccArgs) : Nat := a.ncol.toNat + 1
def accCol (a : AccArgs) (c : Nat) : Nat := (a.col0.toNat + c) % 128

/-- Elements of one activation vector (R78), its bytes P (R80) and its scale bytes. -/
def vecLen (orient : Bool) (t : Tile) : Nat := if orient then 128 else t.cols
def vecBytes (f : Fmt) (len : Nat) : Nat := roundUp (len * f.arrayBits / 8) 32

end Sys2Proof.Machine
end

