-- ==== Sys2Proof/Machine/Serve.lean ====
section
/-! DEFINITION. Accesses on their beats: what each access of a run does when time passes its beat (R143, R150, R152, R160,
R197, R201, R266), and how a command lets time pass. -/

namespace Sys2Proof.Machine

/-! ### Places -/

/-- What an access to a place meets: `none` where it is performed. -/
def State.placeFault (s : State) (p : Place) (write : Bool) : Option State :=
  match p with
  | .pantry _ _ _ => none
  | .row h c k o all => s.rowFault h c k o all write
  | .logit t k o => s.logitFault t k o

/-- The bytes at a place. -/
def State.readPlace (s : State) : Place → Memory
  | .pantry key a n => s.pantryWindow key a n
  | .row h _ k o _ =>
    let e := s.handle (hallTower h) k
    s.readRow (s.coreSlice h k) e.row0 o e.grid
  | .logit t k o =>
    let e := s.handle t k
    s.readRow (s.logitSlice t k) e.row0 o e.grid

/-- Store those bytes of a list whose place in it the mask names, from byte `a` of a Pantry on, wrapping. -/
def storeMasked (size : Nat) (m : Memory) (a : Nat) (mask : BitVec 512) (bs : List Byte) : Memory :=
  bs.zipIdx.foldl (fun m e => if mask.getLsbD e.2 then m.write ((a + e.2) % size) e.1 else m) m

/-- A row with the bytes of a list over it: all of them, or those that the mask names. -/
def rowOver (old : Memory) (whole : Bool) (mask : BitVec 512) (bs : List Byte) : Memory :=
  memOfBytes ((List.range 512).map fun j => if whole || mask.getLsbD j then bs.getD j 0#8 else old.read j) 0

/-- Write at a place; a row of a row-mode region is written whole (R136, R160). Reckoners write no row. -/
def State.writePlace (s : State) (p : Place) (mask : BitVec 512) (bs : List Byte) : State :=
  match p with
  | .pantry key a _ => s.setPantry key (storeMasked (pantrySize key) (s.pantryOf key) a mask bs)
  | .row h _ k o _ =>
    let e := s.handle (hallTower h) k
    let i := s.coreSlice h k
    s.writeRow i e.row0 o e.grid (rowOver (s.readRow i e.row0 o e.grid) (!e.grid) mask bs)
  | .logit _ _ _ => s

/-! ### What a run of reads delivers -/

/-- Put a loaded tile into a slot. -/
def MCore.setSlot (m : MCore) (slot : Bool) (t : Tile) : MCore :=
  if slot then { m with slot1 := t } else { m with slot0 := t }

/-- The 128 column keys that 512 bytes spell. -/
def keysOf (w : Memory) : SMap (BitVec 32) :=
  (List.range 128).foldl (fun k i => SMap.set 0#32 k i (BitVec.ofNat 32 (w.readLE (4 * i) 4))) []

/-- Vector `i` of an ACC has been read: its products go into its column, and the conditions they meet into the status word
(R98; the beat, and that a bank which a later CLEAR has cleared stays clear, are the model's: DEDUCED, log row 113). -/
def State.accVector (s : State) (c : Nat) (a : AccArgs) (dead : List Nat) (i : Nat) (ws : List Memory) : State :=
  let m := s.mcore c
  let t := if a.slot then m.slot1 else m.slot0
  let x : ActVec := ⟨a.afmt, ws.headD [], (ws.drop 1).headD []⟩
  let r := accColumn a t (accCol a i) x (m.banks, 0#8)
  s.setMcore c ({ m with banks := dead.foldl clearBank r.1 }.flag r.2)

/-- OUTCOME, D1 [19:18], in the sender's copy of a descriptor: bits 3 and 2 of its byte 10. -/
def State.writeOutcome (s : State) (h granule : Nat) (code : BitVec 2) : State :=
  let key := vPantryKey h
  let old := s.pantryByte key (32 * granule + 10)
  s.pantryWrite key (32 * granule + 10) [(old &&& 0xF3#8) ||| (code.setWidth 8 <<< 2)]

/-- The descriptor of a PSEND has been read: a post fault comes first; else OUTCOME of the sender's copy is 0 (log row 123),
the stage answers, and the status goes to SD (R235). -/
def State.sendRead (s : State) (h granule : Nat) (sd : BitVec 5) (d : PostDesc) (staged : Nat) : State :=
  let cause := s.postFault d
  if cause ≠ 0 then s.raisePostFault cause (hallTower h) (tileOf h 2) d
  else
    let q := (s.writeOutcome h granule 0#2).stageSend h d granule staged
    q.1.setVcore h ((q.1.vcore h).setS sd q.2)

/-- Access `i` of run `r` has read `ws`; `got` is all that the run has read. -/
def State.deliver (s : State) (r : Run) (i : Nat) (ws got : List Memory) : State :=
  let last := i + 1 == r.acts.length
  let w := ws.headD []
  match r.sink with
  | .none => s
  | .slot c slot f xp n =>
    if last then s.setMcore c ((s.mcore c).setSlot slot ⟨f, xp, joinRows (got.take n) 0, joinRows (got.drop n) 0⟩) else s
  | .keys c =>
    if last then s.setMcore c { s.mcore c with keysNext := (s.mcore c).keysNext ++ [(r.due, keysOf (joinPieces 256 got 0))] }
    else s
  | .column c a dead => s.accVector c a dead i ws
  | .scalar h sd => s.setVcore h ((s.vcore h).setS sd (BitVec.ofNat 64 (w.readLE 0 8)))
  | .lanes h vd take wipe =>
    if last then
      let x := regOfWindow (joinRows got 0)
      let v := s.vcore h
      s.setVcore h (v.setV vd (ofLanes fun k =>
        if take.getLsbD k then lane x k else if wipe.getLsbD k then 0#32 else lane (v.vreg vd) k))
    else s
  | .hand k hd =>
    let p := s.porter k
    s.setPorter k { p with arriving :=
      p.arriving ++ [{ hd with desc := BitVec.ofNat 512 (w.readLE 0 64), due := max r.due hd.due }] }
  | .logits t =>
    let r := s.reckoner t
    s.setReckoner t { r with logits := r.logits ++ (w.map fun e => (512 * i + e.1, e.2)) }
  | .send h g sd stored =>
    if last then s.sendRead h g sd (BitVec.ofNat 256 ((got.headD []).readLE 0 32)) (max r.due stored) else s

/-! ### Movers' accesses -/

def State.transferAt (s : State) (k start : Nat) : Option Transfer := (s.transfers k).find? fun t => t.start == start

/-- A mover reads bytes [lo, hi) of a transfer at its source (R197, R209). -/
def State.readSource (s : State) (k start lo hi : Nat) : State :=
  match s.transferAt k start with
  | none => s
  | some t =>
    let e := PDesc.src t.desc
    match if e.space = 1 then s.rowsFault k e e.mhall lo hi false else none with
    | some s' => s'
    | none => s.updTransfer k start fun t => { s.markFwd k t lo hi with buf := s.readInto e e.mhall lo hi t.buf }

/-- A porter reads unit `u` of its Larder source into its staging (R210). The read is not checked in guarded mode (R267). -/
def State.readAhead (s : State) (k start u : Nat) : State :=
  match s.transferAt k start with
  | none => s
  | some t =>
    let e := PDesc.src t.desc
    let h := e.mhall
    let en := s.handle (h / 48) e.handle
    if !en.ok then s.mismatch (h / 48) 1 e.handle (moverAgent k)
    else
      let o := e.row + u
      let i := s.sliceAt e h
      let p := s.porter k
      s.setPorter k { p with staging :=
        p.staging ++ [⟨true, h / 48, e.handle, h, o, 16384 * i + en.row0 + o, s.readRow i en.row0 o en.grid⟩] }

/-- A mover writes bytes [lo, hi) of a transfer to a Larder region, in one access (R160). -/
def State.writeRegion (s : State) (k : Nat) (e : Endpoint) (h lo hi : Nat) (data : Memory) : State :=
  match s.rowsFault k e h lo hi true with
  | some s' => s'
  | none =>
    let en := s.handle (h / 48) e.handle
    (s.writeOut e h lo hi data).unstage k true ((e.rows lo hi).map fun o => 16384 * s.sliceAt e h + en.row0 + o)

/-! ### Serving -/

/-- Change the run of a number. -/
def State.updRun (s : State) (n : Nat) (f : Run → Run) : State :=
  { s with ld := { s.ld with runs := s.ld.runs.map fun r => if r.seq = n then f r else r } }

/-- A run whose access a check refused makes no further access. -/
def State.dropRun (s : State) (n : Nat) : State :=
  { s with ld := { s.ld with runs := s.ld.runs.filter fun r => r.seq != n } }

/-- The next access of run `r` acts. -/
def State.perform (s : State) (r : Run) : State :=
  let i := r.done
  let s := s.updRun r.seq fun r => { r with done := i + 1 }
  match r.acts[i]? with
  | none => s
  | some (.read ps) =>
    match ps.findSome? fun p => s.placeFault p false with
    | some s' => s'.dropRun r.seq
    | none =>
      let ws := ps.map s.readPlace
      let got := r.got ++ ws
      (s.updRun r.seq fun r => { r with got := got }).deliver r i ws got
  | some (.patch p mask bs) =>
    match s.placeFault p true with
    | some s' => s'.dropRun r.seq
    | none => s.writePlace p mask bs
  | some (.source k start lo hi) => s.readSource k start lo hi
  | some (.ahead k start u) => s.readAhead k start u
  | some (.line k _ e0 e1 h lo hi data srank dues) =>
    (s.writeRegion k ⟨e0, e1⟩ h lo hi data).slipCheck k srank dues s.milestone

/-- Beat of a run's next access. -/
def Run.actBeat (r : Run) : Nat := ((r.claims[r.done]?).map (·.beat)).getD 0

/-- The run whose next access stands first before beat `b`: in the order of their beats, and on one beat of R151. -/
def nextAct (rs : List Run) (b : Nat) : Option Run :=
  rs.foldl (fun best r =>
    if r.pends && decide (r.actBeat < b) then
      match best with
      | none => some r
      | some x => if decide (r.actBeat < x.actBeat) || (r.actBeat == x.actBeat && !x.before r) then some r else best
    else best) none

/-- The accesses under way that stand before beat `b` act, each on its beat, while cores and movers act. -/
def State.serve : Nat → State → Nat → State
  | 0, s, _ => s
  | n + 1, s, b =>
    if s.moving then
      match nextAct s.ld.runs b with
      | none => s
      | some r => State.serve n ((s.pass r.actBeat).perform r) b
    else s

/-- A command happens at beat `b`: accesses under way that stand before it act, beats with no command are passed over, and
the count never falls. -/
def State.toBeat (s : State) (b : Nat) : State :=
  let b := max s.milestone b
  (State.serve ((s.ld.runs.map fun r => r.acts.length - r.done).sum) s b).pass b

/-- Time passes until the accesses of the first run under way that `f` picks have acted. -/
def State.await (s : State) (f : Run → Bool) : State :=
  match s.ld.runs.find? fun r => f r && r.pends with
  | some r => s.toBeat (r.last + 1)
  | none => s

/-- Act on beat `b`, where cores and movers then still act. -/
def State.onBeat (s : State) (b : Nat) (f : State → State) : State :=
  let s := s.toBeat b
  if s.moving then f s else s

/-- Beats pass until wall time `w` has come. -/
def State.toWall (s : State) (w : Nat) : State :=
  s.toBeat (s.milestone + ceilDiv (w - s.wall) (s.wallOf 1))

/-- One idle Milestone beat: the count rises by 1 (R364). -/
def State.idle (s : State) : State := s.toBeat (s.milestone + 1)

end Sys2Proof.Machine
end

