-- ==== Sys2Proof/Machine/Cellar.lean ====
section
/-! DEFINITION. The Cellar controllers: hash, slots, refresh, streams, ECC, temperature (spec/06). -/

namespace Sys2Proof.Machine

/-! ### Slots and refresh windows (R177, R179, R182) -/

def deepStack (k : Nat) : Bool := decide (16 ≤ k)

/-- R170. -/
def stackCapacity (k : Nat) : Nat := if deepStack k then 171798691840 else 51539607552

def slotsPerFrame (k : Nat) : Nat := if deepStack k then 2 else 5

def slotOffset (k j : Nat) : Nat :=
  if deepStack k then 18 * j else match j with | 0 => 0 | 1 => 8 | 2 => 15 | 3 => 22 | _ => 29

/-- Program beat at which slot `i` begins. -/
def slotBeat (k i : Nat) : Nat := 36 * (i / slotsPerFrame k) + slotOffset k (i % slotsPerFrame k)

/-- The first slot that begins at or after a beat. -/
def slotAt (k b : Nat) : Nat :=
  slotsPerFrame k * (b / 36)
    + ((List.range (slotsPerFrame k)).filter fun j => decide (slotOffset k j < b % 36)).length

/-- First frame of the refresh window, modulo 96. -/
def refreshFrame (k : Nat) : Nat := if deepStack k then 12 * (k - 16) else 6 * k

/-- Frames since the latest window of the stack began. -/
def refreshPhase (k i : Nat) : Nat := (i / slotsPerFrame k + 96 - refreshFrame k) % 96

/-- The first slot from `i` on outside the window. -/
def skipRefresh (k i : Nat) : Nat :=
  if refreshPhase k i < 6 then slotsPerFrame k * (i / slotsPerFrame k + 6 - refreshPhase k i) else i

/-- REC of R178. -/
def recovery (k : Nat) : Nat := if deepStack k then 6 else 16

/-- Read latency of Table 6.5. -/
def readLatency (k : Nat) : Nat := if deepStack k then 108 else 80

/-! ### The hash (R176) -/

/-- Four bits of an address from bit `lo`. -/
def nibble (v lo : Nat) : Nat := v / 2 ^ lo % 16

/-- Die group, unit and bank of a stack address. -/
def placeOf (k a : Nat) : Nat × Nat × Nat :=
  if deepStack k then
    let l := a % 2 ^ 35
    (a / 2 ^ 35,
     nibble l 9 ^^^ nibble l 15 ^^^ nibble l 19 ^^^ nibble l 23 ^^^ nibble l 27 ^^^ nibble l 31,
     nibble l 13 ^^^ nibble l 21 ^^^ nibble l 25 ^^^ nibble l 29 ^^^ (l / 2 ^ 33 % 4))
  else
    let l := a % 2 ^ 34
    (a / 2 ^ 34,
     nibble l 9 ^^^ nibble l 20 ^^^ nibble l 24 ^^^ nibble l 28 ^^^ (l / 2 ^ 32 % 4),
     nibble l 13 ^^^ nibble l 22 ^^^ nibble l 26 ^^^ nibble l 30)

/-! ### Controllers -/

def State.stack (s : State) (k : Nat) : Stack := SMap.get Stack.reset s.cel.ctl k
def State.setCtl (s : State) (k : Nat) (x : Stack) : State :=
  { s with cel := { s.cel with ctl := SMap.set Stack.reset s.cel.ctl k x } }

/-- Program beat of a Milestone beat (R452). -/
def State.programBeat (s : State) (b : Nat) : Nat := b - s.integ.jobOffset

/-- Milestone beat of a slot. -/
def State.slotMilestone (s : State) (k i : Nat) : Nat := slotBeat k i + s.integ.jobOffset

/-- Assign a slot to one block (run_stream of R182): the controller and the slot. -/
def Stack.assign (x : Stack) (k : Nat) (write : Bool) (a i0 : Nat) : Stack × Nat :=
  let (g, u, b) := placeOf k a
  let unit := SMap.get 0 x.unitNext u
  let base := max i0 unit
  let i := max base (SMap.get 0 x.bankNext (256 * g + 16 * u + b))
  let dir := SMap.get 0 x.unitDir u
  let mine := if write then 2 else 1
  let j := if dir ≠ 0 ∧ dir ≠ mine then max i (unit + 1) else i
  let slot := skipRefresh k j
  ({ x with
      unitNext := SMap.set 0 x.unitNext u (slot + 1),
      bankNext := SMap.set 0 x.bankNext (256 * g + 16 * u + b) (slot + recovery k),
      unitDir := SMap.set 0 x.unitDir u mine,
      bankWait := x.bankWait + BitVec.ofNat 64 (i - base), turnSlots := x.turnSlots + BitVec.ofNat 64 (j - i),
      last := slot }, slot)

/-- Assign slots to the blocks of a stream, in stream order. -/
def Stack.assignAll (x : Stack) (k : Nat) (write : Bool) : List Nat → Nat → Stack × List Nat
  | [], _ => (x, [])
  | a :: as, i0 =>
    let r := x.assign k write a i0
    let q := r.1.assignAll k write as r.2
    (q.1, r.2 :: q.2)

/-- Address of block `b` of a stream. -/
def CellarStream.block (c : CellarStream) (b : Nat) : Nat := c.addr + c.stride * b

/-- 3130.01 for an error of stack `k` (Table 6.9). -/
def cellarErrorWord (k cause addr : Nat) (agent : BitVec 8) : W64 :=
  let sub := if deepStack k then 5 + k % 2 else 1 + k % 4
  BitVec.ofNat 3 cause ++ BitVec.ofNat 3 sub ++ BitVec.ofNat 38 addr ++ agent ++ 0#12

/-- Record an error in 3130.01 of the stack's tower. -/
def State.cellarRecord (s : State) (k cause addr : Nat) (agent : BitVec 8) : State :=
  { s with cel := { s.cel with
      lastError := SMap.set 0#64 s.cel.lastError (stackTower k) (cellarErrorWord k cause addr agent) } }

/-- Record an error, and raise it. -/
def State.cellarError (s : State) (k cause addr : Nat) (agent : BitVec 8) (cls : ErrClass) : State :=
  (s.cellarRecord k cause addr agent).raiseError cls 0x3130#16 (BitVec.ofNat 8 (stackTower k))
    (cellarErrorWord k cause addr agent)

/-- Agent code that a stack's error names for a mover: 254 for one of another tower. -/
def cellarAgent (k mover : Nat) : BitVec 8 :=
  if moverTower mover = stackTower k then BitVec.ofNat 8 (moverAgent mover) else 254#8

/-- The stream that arrives next: the earliest, ties in the order of R181. -/
def nextStream (cs : List CellarStream) : Option CellarStream :=
  cs.foldl (fun best c =>
    match best with
    | none => some c
    | some d => if c.arrive < d.arrive ∨ (c.arrive = d.arrive ∧ c.order < d.order) then some c else some d) none

/-- Stream `c` arrives at stack `k`: its blocks are checked against the capacity and get their slots. -/
def State.streamArrives (s : State) (k : Nat) (c : CellarStream) : State :=
  let x := { s.stack k with arriving := (s.stack k).arriving.erase c }
  let blocks := (List.range c.count).map c.block
  match blocks.find? fun a => decide (stackCapacity k ≤ a) with
  | some a => (s.setCtl k x).cellarError k 3 a (cellarAgent k c.porter) .jobFatal
  | none =>
    let r := x.assignAll k c.write blocks (max x.last (slotAt k (s.programBeat (c.arrive + 6))))
    s.setCtl k { r.1 with streams := r.1.streams ++ [{ c with slots := r.2 }] }

/-- The stream that arrives first at a stack (R174, R181, R182). -/
def execCellarStreamArrive (stack : Fin 24) (s : State) : Res :=
  let k := stack.val
  match nextStream (s.stack k).arriving with
  | none => .next s
  | some c => .next (if s.moving then s.onBeat c.arrive fun s => s.streamArrives k c else s)

/-! ### Blocks (R175, R177, R183, R184) -/

/-- The stream whose next block, counted by `n`, has the earliest slot; earlier streams first. -/
def earliest (n : CellarStream → Nat) (cs : List CellarStream) : Option CellarStream :=
  cs.foldl (fun best c =>
    match best, c.slots[n c]? with
    | none, some _ => some c
    | some d, some i => if i < d.slots.getD (n d) 0 then some c else some d
    | b, none => b) none

/-- The streams with one of them changed. -/
def putStream (cs : List CellarStream) (c c' : CellarStream) : List CellarStream :=
  cs.map fun x => if x = c then c' else x

/-- A stream names its blocks' bytes: the last of a write may be part of a block. -/
def CellarStream.bytesOf (c : CellarStream) (b : Nat) : Nat := min 512 (c.len - 512 * b)

/-- The block at `a` as every write that has started leaves it (R184). -/
def State.blockNow (s : State) (k a : Nat) : Memory :=
  (s.stack k).streams.foldl (fun m c =>
    if c.write then
      (List.range (c.started - c.ended)).foldl (fun m i =>
        let b := c.ended + i
        if c.block b = a then m.place 0 (c.bytesOf b) (c.data.window (512 * b) 512) else m) m
    else m) (s.stackBlock k a)

/-- A unit starts the next block at its slot beat; a read takes the block as it stands then. -/
def execCellarBlockStart (stack : Fin 24) (s : State) : Res :=
  let k := stack.val
  let x := s.stack k
  match earliest (·.started) (x.streams.filter fun c => decide (c.started < c.count)) with
  | none => .next s
  | some c =>
    let b := c.started
    .next (if s.moving then s.onBeat (s.slotMilestone k (c.slots.getD b 0)) fun s =>
        let c' := { c with started := b + 1,
                           taken := if c.write then c.taken else SMap.set [] c.taken b (s.blockNow k (c.block b)) }
        s.setCtl k { s.stack k with streams := putStream (s.stack k).streams c c' }
      else s)

/-- Count an ECC result of stack `k` (3120, 3121). -/
def Stack.countEcc (x : Stack) (corrected uncorrected : Nat) : Stack :=
  { x with corrected := x.corrected + BitVec.ofNat 64 corrected,
           uncorrected := x.uncorrected + BitVec.ofNat 64 uncorrected }

/-- Hand a read block to its transfer: the bytes, and its packets available at `ready` (R203). -/
def Transfer.takeBlock (t : Transfer) (u : Nat) (bytes : Memory) (ready : Nat) : Transfer :=
  let n := PDesc.bytes t.desc
  let hi := min n (512 * (u + 1))
  { t with
    buf := t.buf.place (512 * u) (hi - 512 * u) bytes, readBytes := hi,
    avail := (List.range (ceilDiv hi 128 - 4 * u)).foldl (fun m i => SMap.set 0 m (4 * u + i) ready) t.avail }

/-- Stage a read-ahead block, if its descriptor is still the latest that the porter started (R210). -/
def State.stageBlock (s : State) (c : CellarStream) (k a : Nat) (bytes : Memory) : State :=
  let p := s.porter c.porter
  if p.active.any fun t => decide (c.ident < t.start) then s
  else s.setPorter c.porter { p with
    staging := p.staging ++ [⟨false, 0, k, 0, a, 2 ^ 38 * k + a, bytes⟩] }

/-- A stream whose next block has ended. -/
def CellarStream.ends (c : CellarStream) : CellarStream :=
  { c with ended := c.ended + 1, taken := SMap.erase c.taken c.ended }

/-- The controller after the next block of stream `c` has ended. -/
def Stack.blockEnds (x : Stack) (c : CellarStream) : Stack :=
  { x with streams := if c.ended + 1 = c.count then x.streams.erase c else putStream x.streams c c.ends }

/-- Block `u` of transfer `t` is handed over, and its packets are available at `ready` (R203). -/
def State.handBlock (s : State) (k : Nat) (t : Transfer) (u : Nat) (bytes : Memory) (ready : Nat) : Transfer :=
  (s.markFwd k t (512 * u) (min (PDesc.bytes t.desc) (512 * (u + 1)))).takeBlock u bytes ready

/-- The last byte of the next block of read stream `c` reaches the porter port at `ready`. -/
def State.blockRead (s : State) (k : Nat) (c : CellarStream) (ecc : Ecc) (ready : Nat) : State :=
  let b := c.ended
  let bytes := SMap.get [] c.taken b
  let x := (s.stack k).blockEnds c
  if ecc = .uncorrectable then
    (s.setCtl k (x.countEcc 0 1)).cellarError k 1 (c.block b) (cellarAgent k c.porter) .transient
  else
    let s := s.setCtl k (if ecc = .corrected then x.countEcc 1 0 else x)
    if b < c.count - c.ahead then
      s.updTransfer c.porter c.ident fun t =>
        s.handBlock c.porter t (ceilDiv (PDesc.bytes t.desc) 512 - (c.count - c.ahead) + b) bytes (ready + 2)
    else s.stageBlock c k (c.block b) bytes

/-- A read block's last byte reaches the porter port. -/
def execCellarReadDone (stack : Fin 24) (ecc : Ecc) (s : State) : Res :=
  let k := stack.val
  match earliest (·.ended) ((s.stack k).streams.filter fun c => !c.write && decide (c.ended < c.started)) with
  | none => .next s
  | some c =>
    let ready := s.slotMilestone k (c.slots.getD c.ended 0) + readLatency k
    .next (if s.moving then s.onBeat ready fun s => s.blockRead k c ecc ready else s)

/-- The next block of write stream `c` becomes visible at `at_`: stored, a staged copy dropped (R210), its packets checked
against their due beats (R269). -/
def State.blockWritten (s : State) (k : Nat) (c : CellarStream) (at_ : Nat) : State :=
  let b := c.ended
  let s := (s.setCtl k ((s.stack k).blockEnds c)).storeBlock k (c.block b) 0 (c.bytesOf b) (c.data.window (512 * b) 512)
  let s := (s.unstage c.porter false [2 ^ 38 * k + c.block b]).updTransfer c.porter c.ident fun t =>
    { t with blocksLeft := t.blocksLeft.map (· - 1), lastWrite := max t.lastWrite at_ }
  match s.transferAt c.porter c.ident with
  | some t => s.slipCheck c.porter t.srank (s.duesOf t (512 * b) (512 * (b + 1))) at_
  | none => s

/-- A written block becomes visible. -/
def execCellarWriteVisible (stack : Fin 24) (s : State) : Res :=
  let k := stack.val
  match earliest (·.ended) ((s.stack k).streams.filter fun c => c.write && decide (c.ended < c.started)) with
  | none => .next s
  | some c =>
    let at_ := s.slotMilestone k (c.slots.getD c.ended 0) + 10
    .next (if s.moving then s.onBeat at_ fun s => s.blockWritten k c at_ else s)

/-! ### Refresh, scrubbing and temperature (R179, R187, R188) -/

/-- The first beat from `b` on at which a window of the stack begins. -/
def State.windowStart (s : State) (k b : Nat) : Nat :=
  let p := s.programBeat b
  let f := ceilDiv p 36
  36 * (f + (refreshFrame k + 96 - f % 96) % 96) + s.integ.jobOffset

/-- Units of a mask, in ascending order. -/
def unitsOf (m : BitVec 16) : List Nat := (List.range 16).filter fun u => m.getLsbD u

/-- A refresh window begins; one block per unit is scrubbed, in ascending order: unit by unit, `bad` blocks are uncorrectable
and the others of `corrected` were corrected. -/
def execRefreshWindow (stack : Fin 24) (corrected bad : BitVec 16) (s : State) : Res :=
  let k := stack.val
  if s.boot.phase = .ready then
    let b := s.windowStart k (max s.milestone (s.stack k).windowAt)
    let s := s.toBeat b
    let x := s.stack k
    let s := s.setCtl k { x.countEcc (unitsOf (corrected &&& ~~~bad)).length (unitsOf bad).length with
                          windowAt := b + 1, scrub := (x.scrub + 8192) % stackCapacity k }
    .next ((unitsOf bad).foldl (fun s u => s.cellarError k 2 (x.scrub + 512 * u) 255#8 .jobFatal) s)
  else .next s

/-- The window that runs has a HOT stack (R286). -/
def State.sawHot (s : State) : State := { s with clock := { s.clock with hotSeen := true } }

/-- A stack reaches 105 °C: the job ends, and no stack holds valid contents until a load writes it (R188). The record's ADDR
and AGENT are free, as spec/ states neither. -/
def State.stackLimit (s : State) (k : Nat) (temp : BitVec 32) : State :=
  let s := (s.setCtl k { s.stack k with temp := temp, hot := true, limit := true }).sawHot
  let s := { s with cel := { s.cel with invalid := some s.draws, rewritten := [] }, draws := s.draws + 2 ^ 41 }
  let r := s.draw
  r.1.cellarError k 5 (r.2.extractLsb' 0 38).toNat (r.2.extractLsb' 38 8) .jobFatal

/-- 105 °C in 1/65,536 °C. -/
def limitTemp : Int := 105 * 65536

/-- A stack's sensor reads 100 °C or more: HOT, and the governor lowers the point; from 105 °C on, as STACK_LIMIT. Below, HOT
clears. -/
def execStackHot (stack : Fin 24) (temp : BitVec 32) (s : State) : Res :=
  let k := stack.val
  .next (if limitTemp ≤ temp.toInt then s.stackLimit k temp
    else
      let hot := decide (100 * 65536 ≤ temp.toInt)
      let s := s.setCtl k { s.stack k with temp := temp, hot := hot }
      if hot then s.sawHot else s)

/-- A stack's sensor reads 105 °C or more; a lower reading is none of this command's. -/
def execStackLimit (stack : Fin 24) (temp : BitVec 32) (s : State) : Res :=
  .next (if limitTemp ≤ temp.toInt then s.stackLimit stack temp else s)

end Sys2Proof.Machine
end

