-- ==== Sys2Proof/Machine/Hash.lean ====
section
/-! DEFINITION. SHAKE256 (FIPS 202), which spec/ names for digests (R21, R252, R413, R524); the function itself
is taken from that standard (PRESUMED, log row 17). -/

namespace Sys2Proof.Machine

/-- Rotation offsets of lane x + 5 y. -/
def keccakRot : List Nat :=
  [0, 1, 62, 28, 27, 36, 44, 6, 55, 20, 3, 10, 43, 25, 39, 41, 45, 15, 21, 8, 18, 2, 61, 56, 14]

/-- Round constants. -/
def keccakRc : List (BitVec 64) :=
  [0x0000000000000001#64, 0x0000000000008082#64, 0x800000000000808A#64, 0x8000000080008000#64,
   0x000000000000808B#64, 0x0000000080000001#64, 0x8000000080008081#64, 0x8000000000008009#64,
   0x000000000000008A#64, 0x0000000000000088#64, 0x0000000080008009#64, 0x000000008000000A#64,
   0x000000008000808B#64, 0x800000000000008B#64, 0x8000000000008089#64, 0x8000000000008003#64,
   0x8000000000008002#64, 0x8000000000000080#64, 0x000000000000800A#64, 0x800000008000000A#64,
   0x8000000080008081#64, 0x8000000000008080#64, 0x0000000080000001#64, 0x8000000080008008#64]

/-- Lane `i` of a state of 25 lanes. -/
def lane25 (a : List (BitVec 64)) (i : Nat) : BitVec 64 := a.getD i 0#64

/-- θ: every lane is mixed with the parities of two columns. -/
def keccakTheta (a : List (BitVec 64)) : List (BitVec 64) :=
  let c := (List.range 5).map fun x =>
    lane25 a x ^^^ lane25 a (x + 5) ^^^ lane25 a (x + 10) ^^^ lane25 a (x + 15) ^^^ lane25 a (x + 20)
  (List.range 25).map fun i =>
    lane25 a i ^^^ lane25 c ((i + 4) % 5) ^^^ (lane25 c ((i + 1) % 5)).rotateLeft 1

/-- ρ and π: lane (x, y) goes, rotated, to (y, 2 x + 3 y). -/
def keccakRhoPi (a : List (BitVec 64)) : List (BitVec 64) :=
  (List.range 25).map fun j =>
    let x' := j % 5
    let y' := j / 5
    let x := (x' + 3 * y') % 5
    let i := x + 5 * x'
    (lane25 a i).rotateLeft (keccakRot.getD i 0)

/-- χ: each lane with its two neighbours of the row. -/
def keccakChi (a : List (BitVec 64)) : List (BitVec 64) :=
  (List.range 25).map fun i =>
    let y := 5 * (i / 5)
    lane25 a i ^^^ (~~~(lane25 a (y + (i + 1) % 5)) &&& lane25 a (y + (i + 2) % 5))

/-- The permutation: 24 rounds, with ι at the end of each. -/
def keccakF (a : List (BitVec 64)) : List (BitVec 64) :=
  keccakRc.foldl (fun a rc =>
    match keccakChi (keccakRhoPi (keccakTheta a)) with
    | l :: ls => (l ^^^ rc) :: ls
    | [] => []) a

/-- Mix a block of 136 bytes in. -/
def absorbBlock (a : List (BitVec 64)) (block : List Byte) : List (BitVec 64) :=
  keccakF ((List.range 25).map fun i =>
    lane25 a i ^^^ (if i < 17 then BitVec.ofNat 64 (numLE ((block.drop (8 * i)).take 8)) else 0#64))

def absorb (a : List (BitVec 64)) (msg : List Byte) : Nat → List (BitVec 64)
  | 0 => a
  | n + 1 => absorb (absorbBlock a (msg.take 136)) (msg.drop 136) n

/-- Output blocks. -/
def squeeze (a : List (BitVec 64)) : Nat → List Byte
  | 0 => []
  | n + 1 => (a.take 17).flatMap (fun l => bytesLE l.toNat 8) ++ squeeze (keccakF a) n

/-- The message with SHAKE's suffix and padding. -/
def shakePad (msg : List Byte) : List Byte :=
  let gap := 135 - msg.length % 136
  if gap = 0 then msg ++ [0x9F#8] else msg ++ [0x1F#8] ++ List.replicate (gap - 1) 0#8 ++ [0x80#8]

/-- The first `n` bytes of SHAKE256. -/
def shake256 (msg : List Byte) (n : Nat) : List Byte :=
  let p := shakePad msg
  (squeeze (absorb (List.replicate 25 0#64) p (p.length / 136)) (ceilDiv n 136)).take n

/-- A 32 B digest as a little-endian number. -/
def digest32 (msg : List Byte) : BitVec 256 := BitVec.ofNat 256 (numLE (shake256 msg 32))

end Sys2Proof.Machine
end

