-- ==== Sys2Proof/Machine/Links.lean ====
section
/-! DEFINITION. Ranks, signposts and the logical grid: how a rank is resolved (spec/12). -/

namespace Sys2Proof.Machine

/-! ### Signposts (R332 to R337) -/

/-- Row-wise (0xFFFE) or column-wise (0xFFFF) axis of a multicast rank. -/
def isMulticast (d : BitVec 16) : Bool := decide (0xFFFE ≤ d.toNat)

def State.signpost (s : State) (k : Nat) : Pair64 := SMap.get Ranks.noEntry s.ranks.signposts k

def spValid (w : W64) : Bool := w.getLsbD 63
def spPlen (w : W64) : Nat := (w.extractLsb' 58 5).toNat
def spPrefix (w : W64) : BitVec 16 := w.extractLsb' 42 16
def spPort0 (w : W64) : Nat := (w.extractLsb' 37 5).toNat
def spWidth (w : W64) : Nat := 2 ^ (w.extractLsb' 35 2).toNat
def spDvalid (w : W64) : Bool := w.getLsbD 34
def spDport0 (w : W64) : Nat := (w.extractLsb' 29 5).toNat
def spDwidth (w : W64) : Nat := 2 ^ (w.extractLsb' 27 2).toNat

/-- R334: the top PLEN bits agree. -/
def spMatches (w : W64) (d : BitVec 16) : Bool :=
  spValid w && (d >>> (16 - spPlen w) == spPrefix w >>> (16 - spPlen w))

/-- The entry used for a rank: the longest prefix, then the lowest index. -/
def bestEntry (d : BitVec 16) : SMap Pair64 → Option (Nat × Pair64)
  | [] => none
  | (k, e) :: m =>
    match bestEntry d m with
    | none => if spMatches e.v d then some (k, e) else none
    | some (k', e') =>
      if spMatches e.v d && decide (spPlen e'.v ≤ spPlen e.v) then some (k, e) else some (k', e')

/-- R335. -/
def groupPort (port0 width : Nat) (srank drank tag : BitVec 16) : Nat :=
  port0 + (srank ^^^ drank ^^^ tag).toNat % width

/-- The lowest entry whose pair fails its check: every lookup checks every entry, and a word that fails is never compared
(R8, R337; DEDUCED, log row 127). -/
def badEntry (m : SMap Pair64) : Option Nat := (m.find? fun e => !e.2.ok).map (·.1)

/-- How a rank is resolved (R329, R336): an output port, or the cause of a route fault. -/
inductive RouteTo where
  | port (p : Nat)
  | fault (cause : Nat)
  /-- The entry's pair fails its check (R337). -/
  | mismatch (k : Nat)
deriving DecidableEq, Repr

/-- R329 items 2 to 4, R336 and R340, for a flit that no multicast carries: a multicast rank is refused where a grid is
declared and, without one, where no member has it. -/
def State.routeRank (s : State) (srank drank tag : BitVec 16) : RouteTo :=
  if isMulticast drank && s.ranks.gridCols != 0#16 then .fault 3
  else if s.ranks.jobSize.toNat ≤ drank.toNat then .fault (if isMulticast drank then 3 else 2)
  else
    match badEntry s.ranks.signposts, bestEntry drank s.ranks.signposts with
    | some k, _ => .mismatch k
    | none, none => .fault 1
    | none, some (_, e) =>
      let p := groupPort (spPort0 e.v) (spWidth e.v) srank drank tag
      if (s.port p).carriesJob then .port p
      else if !spDvalid e.v then .fault 4
      else
        let q := groupPort (spDport0 e.v) (spDwidth e.v) srank drank tag
        if (s.port q).carriesJob then .port q else .fault 4

/-- The word of 4130.01 LAST_ROUTE_FAULT (Table 12.9). `arrived` is 63 for a local injection. -/
def routeWord (cause : Nat) (drank srank : BitVec 16) (arrived : Nat) (tag : BitVec 16) : W64 :=
  BitVec.ofNat 4 cause ++ drank ++ srank ++ BitVec.ofNat 6 arrived ++ tag ++ 0#6

/-- Record a route fault. -/
def State.routeRecord (s : State) (w : W64) : State := { s with ranks := { s.ranks with lastRouteFault := w } }

/-- Record and raise a route fault (R330). -/
def State.routeFault (s : State) (cause : Nat) (drank srank : BitVec 16) (arrived : Nat) (tag : BitVec 16) :
    State :=
  let w := routeWord cause drank srank arrived tag
  (s.routeRecord w).raiseError .jobFatal 0x4130#16 0#8 w

/-- Answer a failed route: the fault, or the mismatch of a signpost held during a job. Outside a job the flit is discarded
and 4130.01 records it (R445), with cause 1, as no entry routes it (DEDUCED, log row 127). -/
def State.routeFailed (s : State) (r : RouteTo) (drank srank : BitVec 16) (arrived : Nat) (tag : BitVec 16) :
    State :=
  match r with
  | .port _ => s
  | .fault c => s.routeFault c drank srank arrived tag
  | .mismatch k =>
    if s.jobActive then s.mismatch 0 2 k 0 else s.routeRecord (routeWord 1 drank srank arrived tag)

/-! ### Circuits (R319, R321, Table 11.12) -/

/-- The circuit word carries a class. -/
def circuitCarries (w : BitVec 32) (cls : BitVec 3) : Bool :=
  w.getLsbD 31 && ((cls == clsSched && w.getLsbD 16) || (cls == clsColl && w.getLsbD 17))

def circuitIn (w : BitVec 32) : Nat := (w.extractLsb' 26 5).toNat
def circuitOut (w : BitVec 32) : Nat := (w.extractLsb' 21 5).toNat

/-- An installed circuit claims a class at output port `p`. -/
def State.claimed (s : State) (p : Nat) (cls : BitVec 3) : Bool :=
  s.eo.installed.any fun w => circuitCarries w cls && circuitOut w == p

/-- Record a link error of port `p` and raise it in a class. -/
def State.linkError (s : State) (p : Nat) (w : W64) (cls : ErrClass) : State :=
  (s.setPort p { s.port p with lastError := w }).raiseError cls 0x4030#16 (BitVec.ofNat 8 p) w

/-! ### Logical grid (R339 to R342) -/

/-- Members, own position and the sender's position on the axis of multicast rank `d`. -/
structure Axis where
  n : Nat
  pos : Nat
  wrapped : Bool
deriving DecidableEq, Repr

def State.gridRows (s : State) : Nat :=
  if s.ranks.gridCols = 0#16 then 0 else ceilDiv s.ranks.jobSize.toNat s.ranks.gridCols.toNat

/-- The axis of rank `r` for multicast rank `d`. -/
def State.axisOf (s : State) (d r : BitVec 16) : Axis :=
  let c := s.ranks.gridCols.toNat
  let size := s.ranks.jobSize.toNat
  let row := r.toNat / c
  let col := r.toNat % c
  if d = 0xFFFE#16 then
    let n := min c (size - row * c)
    ⟨n, col, s.ranks.gridWrap.getLsbD 0 && n == c⟩
  else
    let n := (size - col - 1) / c + 1
    ⟨n, row, s.ranks.gridWrap.getLsbD 1 && n == s.gridRows⟩

/-- A byte of AXIS_PORTS for an axis and a direction: [7] valid, [6:5] width, [4:0] first port. -/
def State.axisGroup (s : State) (d : BitVec 16) (plus : Bool) : BitVec 8 :=
  s.ranks.axisPorts.extractLsb' ((if d = 0xFFFE#16 then 0 else 16) + (if plus then 0 else 8)) 8

/-- The port of an axis group that a multicast takes (R342), if the group is valid. -/
def State.axisPort (s : State) (d : BitVec 16) (plus : Bool) (srank tag : BitVec 16) : Option Nat :=
  let g := s.axisGroup d plus
  if g.getLsbD 7 then some (groupPort (g.extractLsb' 0 5).toNat (2 ^ (g.extractLsb' 5 2).toNat) srank d tag)
  else none

/-- A port lies in an axis group. -/
def inGroup (g : BitVec 8) (p : Nat) : Bool :=
  let p0 := (g.extractLsb' 0 5).toNat
  g.getLsbD 7 && decide (p0 ≤ p ∧ p < p0 + 2 ^ (g.extractLsb' 5 2).toNat)

/-- Directions in which a sender injects a multicast (R341). -/
def Axis.sends (a : Axis) (plus : Bool) : Bool :=
  if a.wrapped then (if plus then decide (1 ≤ ceilDiv (a.n - 1) 2) else decide (1 ≤ (a.n - 1) / 2))
  else (if plus then decide (a.pos + 1 < a.n) else decide (0 < a.pos))

/-- A member at position `p` forwards a flit of a sender at position `a.pos` (R342). -/
def Axis.forwards (a : Axis) (p : Nat) (plus : Bool) : Bool :=
  if a.wrapped then
    (if plus then decide ((p + a.n - a.pos) % a.n < ceilDiv (a.n - 1) 2)
     else decide ((a.pos + a.n - p) % a.n < (a.n - 1) / 2))
  else (if plus then decide (p + 1 < a.n) else decide (0 < p))

/-- Send a SINGLE to a member: routed under R329 and R335 with TAG 0. -/
def State.sendSingle (s : State) (cls : BitVec 3) (kind : BitVec 8) (drank : BitVec 16) (body : BitVec 960) :
    State :=
  let me := s.ranks.myRank
  match s.routeRank me drank 0#16 with
  | .port p => s.enqueue p [ownSingle s p cls (singleOf kind drank me body)]
  | r => s.routeFailed r drank me 63 0#16


end Sys2Proof.Machine
end

