-- ==== Sys2Proof/Machine/KLink.lean ====
section
/-! DEFINITION. The Kloder link's shared operations: frames, channels, credits and sending (spec/18, R497 to
R501). -/

namespace Sys2Proof.Machine

/-! ### Channels (R497, Table 18.2) -/

def chDict : Nat := 0
def chSubmit : Nat := 1
def chToken : Nat := 2
def chBulk : Nat := 3
def chEvent : Nat := 4

def State.chan (s : State) (c : Nat) : KChan := SMap.get KChan.reset s.kl.chans c
def State.setChan (s : State) (c : Nat) (x : KChan) : State :=
  { s with kl := { s.kl with chans := SMap.set KChan.reset s.kl.chans c x } }

/-- Word H0 of a frame. -/
def kHeader0 (ch : BitVec 4) (first last nak : Bool) (len8 : Nat) (ach : BitVec 4) (seq : BitVec 32) : W64 :=
  ch ++ BitVec.ofBool first ++ BitVec.ofBool last ++ BitVec.ofBool nak ++ 0#1 ++ BitVec.ofNat 8 len8 ++ ach ++ 0#12
    ++ seq

/-- Word H1. -/
def kHeader1 (aseq : BitVec 32) (cch : BitVec 4) (cfreed : BitVec 28) : W64 := aseq ++ cch ++ cfreed

def KFrame.ch (f : KFrame) : BitVec 4 := f.h0.extractLsb' 60 4
def KFrame.first (f : KFrame) : Bool := f.h0.getLsbD 59
def KFrame.last (f : KFrame) : Bool := f.h0.getLsbD 58
def KFrame.nak (f : KFrame) : Bool := f.h0.getLsbD 57
def KFrame.len8 (f : KFrame) : Nat := (f.h0.extractLsb' 48 8).toNat
def KFrame.ach (f : KFrame) : BitVec 4 := f.h0.extractLsb' 44 4
def KFrame.seq (f : KFrame) : BitVec 32 := f.h0.extractLsb' 0 32
def KFrame.aseq (f : KFrame) : BitVec 32 := f.h1.extractLsb' 32 32
def KFrame.cch (f : KFrame) : BitVec 4 := f.h1.extractLsb' 28 4
def KFrame.cfreed (f : KFrame) : BitVec 28 := f.h1.setWidth 28

/-- The channel whose expected SEQ and freed credits a frame reports: the lowest with a change unreported, 15
where none has (R499 leaves the choice; log row 13). -/
def State.reportChan (s : State) : Option Nat := (List.range 5).find? fun c => (s.chan c).unreported

/-- Fields of a frame that report a channel's receiving side. -/
def State.reportWords (s : State) : BitVec 4 × BitVec 32 × BitVec 28 :=
  match s.reportChan with
  | some c => (BitVec.ofNat 4 c, (s.chan c).expect, (s.chan c).freed)
  | none => (15#4, 0#32, 0#28)

/-- The report has left. -/
def State.reported (s : State) : State :=
  match s.reportChan with
  | some c => s.setChan c { s.chan c with unreported := false }
  | none => s

/-- Put a frame on the lanes. -/
def State.kEmit (s : State) (f : KFrame) : State := { s with kl := { s.kl with pins := s.kl.pins ++ [f] } }

/-- Credits left on channel `c` (R498). -/
def KChan.credit (x : KChan) : Nat := x.granted.toNat - (x.sentFirst - x.peerFreed).toNat

/-- Send one waiting frame of channel `c`. -/
def State.kSendFrame (s : State) (c : Nat) (w : KWait) : State :=
  let x := s.chan c
  let r := s.reportWords
  let f : KFrame := ⟨kHeader0 (BitVec.ofNat 4 c) w.first w.last false (w.payload.length / 8) r.1 x.nextSeq,
    kHeader1 r.2.1 r.1 r.2.2, w.payload⟩
  let s := s.setChan c { x with
    nextSeq := x.nextSeq + 1, replay := x.replay ++ [⟨f, 1, s.wall⟩], outq := x.outq.tail,
    sentFirst := if w.first then x.sentFirst + 1 else x.sentFirst }
  (s.kEmit f).reported

/-- Send what waits on channel `c` while the link is up, its replay buffer has room and, for a frame that begins
a record, a credit is held (R498, R499). -/
def State.kPump (s : State) (c : Nat) : Nat → State
  | 0 => s
  | fuel + 1 =>
    let x := s.chan c
    match x.outq with
    | [] => s
    | w :: _ =>
      if s.kl.up && decide (x.replay.length < 256) && (!w.first || decide (0 < x.credit)) then
        (s.kSendFrame c w).kPump c fuel
      else s

/-- Hand a frame to channel `c`. -/
def State.kSend (s : State) (c : Nat) (w : KWait) : State :=
  let x := s.chan c
  (s.setChan c { x with outq := x.outq ++ [w] }).kPump c (x.outq.length + 1)

/-- A CTRL frame that acknowledges channel `a`, with NAK or without, and reports its freed credits. -/
def State.kCtrl (s : State) (nak : Bool) (a : Nat) : State :=
  let x := s.chan a
  let f : KFrame := ⟨kHeader0 15#4 false false nak 0 (BitVec.ofNat 4 a) 0#32,
    kHeader1 x.expect (BitVec.ofNat 4 a) x.freed, []⟩
  (s.setChan a { x with unreported := false }).kEmit f

/-- Free one credit of channel `c` (Table 18.3). -/
def State.kFree (s : State) (c : Nat) : State :=
  let x := s.chan c
  s.setChan c { x with freed := x.freed + 1, unreported := true }

/-- Pad bytes to a multiple of 8. -/
def pad8 (bs : List Byte) : List Byte := bs ++ List.replicate (roundUp bs.length 8 - bs.length) 0#8

/-- A record cut into payloads of at most 1,040 B. -/
def kChunks (bs : List Byte) : Nat → List (List Byte)
  | 0 => []
  | n + 1 => if bs.length ≤ 1040 then [bs] else bs.take 1040 :: kChunks (bs.drop 1040) n

/-- Send one record on channel `c`, in as many frames as it needs (R498). -/
def State.kRecord (s : State) (c : Nat) (bs : List Byte) : State :=
  let cs := kChunks (pad8 bs) (bs.length / 1040 + 2)
  (List.range cs.length).foldl (fun s i =>
    s.kSend c ⟨i == 0, i + 1 == cs.length, cs.getD i []⟩) s

end Sys2Proof.Machine
end

