-- ==== Sys2Proof/Machine/Objects.lean ====
section
/-! DEFINITION. The objects of the dictionary, as the chapters' object tables list them (R493, Table 17.12):
where each lies, its type, access class, instance kind and size. -/

namespace Sys2Proof.Machine

/-- One row of an object table. `lo` and `hi` are 256 × index + subindex of its first and last object; type
code of Table 17.2, class of Table 17.3, kind of Table 17.1; PAIR and DESK_ONLY of Table 17.6. -/
structure ObjRow where
  lo : Nat
  hi : Nat
  type : Nat
  access : Nat
  kind : Nat
  size : Nat
  pair : Bool
  deskOnly : Bool
deriving DecidableEq, Repr

def objRows1 : List ObjRow :=
  [⟨0x100001, 0x100001, 8, 0, 0, 7, false, false⟩,
   ⟨0x100002, 0x100002, 8, 0, 0, 7, false, false⟩,
   ⟨0x100003, 0x100003, 2, 0, 0, 1, false, false⟩,
   ⟨0x100004, 0x100004, 8, 0, 0, 16, false, false⟩,
   ⟨0x100005, 0x100005, 3, 0, 0, 2, false, false⟩,
   ⟨0x100006, 0x100006, 2, 0, 0, 1, false, false⟩,
   ⟨0x100007, 0x100007, 5, 0, 0, 8, false, false⟩,
   ⟨0x100008, 0x100008, 2, 0, 0, 1, false, false⟩,
   ⟨0x101001, 0x101001, 5, 0, 2, 8, false, false⟩,
   ⟨0x101002, 0x101002, 2, 0, 2, 1, false, false⟩,
   ⟨0x102001, 0x102001, 4, 1, 0, 4, false, false⟩,
   ⟨0x110001, 0x110001, 2, 2, 0, 1, false, false⟩,
   ⟨0x110002, 0x110002, 2, 1, 0, 1, false, false⟩,
   ⟨0x110003, 0x110003, 2, 1, 0, 1, false, false⟩,
   ⟨0x110004, 0x110004, 2, 1, 0, 1, false, false⟩,
   ⟨0x110005, 0x110005, 4, 1, 0, 4, false, false⟩,
   ⟨0x110006, 0x110006, 2, 1, 0, 1, false, false⟩,
   ⟨0x110007, 0x110007, 10, 1, 0, 8, true, false⟩,
   ⟨0x110008, 0x110008, 1, 4, 0, 1, false, false⟩]

def objRows2 : List ObjRow :=
  [⟨0x200001, 0x200001, 4, 0, 0, 4, false, false⟩,
   ⟨0x200002, 0x200002, 2, 0, 0, 1, false, false⟩,
   ⟨0x200003, 0x200003, 2, 0, 0, 1, false, false⟩,
   ⟨0x200004, 0x200004, 3, 0, 0, 2, false, false⟩,
   ⟨0x200101, 0x200110, 4, 0, 0, 4, false, false⟩,
   ⟨0x201000, 0x201097, 4, 1, 0, 4, false, false⟩,
   ⟨0x201100, 0x20118F, 5, 1, 0, 8, false, false⟩,
   ⟨0x202001, 0x202001, 2, 1, 0, 1, false, false⟩,
   ⟨0x202002, 0x202002, 2, 1, 0, 1, false, false⟩,
   ⟨0x202003, 0x202003, 2, 2, 0, 1, false, false⟩,
   ⟨0x202004, 0x202004, 4, 1, 0, 4, false, false⟩,
   ⟨0x202005, 0x202005, 4, 1, 0, 4, false, false⟩,
   ⟨0x203001, 0x203001, 7, 1, 0, 4, false, false⟩,
   ⟨0x203002, 0x203002, 7, 1, 0, 4, false, false⟩,
   ⟨0x203003, 0x203003, 3, 2, 0, 2, false, false⟩,
   ⟨0x203004, 0x203004, 3, 2, 0, 2, false, false⟩,
   ⟨0x203005, 0x203005, 3, 1, 0, 2, false, false⟩,
   ⟨0x203006, 0x203006, 6, 1, 0, 4, false, false⟩,
   ⟨0x203007, 0x203007, 7, 1, 0, 4, false, false⟩,
   ⟨0x204001, 0x204001, 7, 1, 0, 4, false, false⟩,
   ⟨0x204002, 0x204002, 7, 1, 0, 4, false, false⟩,
   ⟨0x204003, 0x204003, 7, 1, 0, 4, false, false⟩,
   ⟨0x204004, 0x204004, 7, 2, 0, 4, false, false⟩,
   ⟨0x204005, 0x204005, 2, 2, 0, 1, false, false⟩,
   ⟨0x204101, 0x204101, 7, 1, 2, 4, false, false⟩]

def objRows2_1 : List ObjRow :=
  [⟨0x204102, 0x204102, 7, 1, 2, 4, false, false⟩,
   ⟨0x205001, 0x205001, 4, 1, 0, 4, false, false⟩,
   ⟨0x205002, 0x205002, 4, 1, 0, 4, false, false⟩,
   ⟨0x205003, 0x205003, 4, 1, 0, 4, false, false⟩,
   ⟨0x206001, 0x206001, 4, 1, 0, 4, false, false⟩,
   ⟨0x206002, 0x206002, 2, 1, 0, 1, false, false⟩,
   ⟨0x210001, 0x210001, 4, 1, 0, 4, false, false⟩,
   ⟨0x210002, 0x210002, 5, 1, 0, 8, false, false⟩,
   ⟨0x210003, 0x210003, 9, 1, 0, 32, false, false⟩,
   ⟨0x210004, 0x210004, 1, 3, 0, 1, false, false⟩,
   ⟨0x210005, 0x210005, 4, 1, 0, 4, false, false⟩,
   ⟨0x210006, 0x210006, 9, 1, 0, 24, false, false⟩,
   ⟨0x211001, 0x211001, 9, 4, 0, 1793, false, false⟩,
   ⟨0x211002, 0x211002, 9, 4, 0, 1793, false, false⟩,
   ⟨0x211003, 0x211003, 9, 1, 0, 64, false, false⟩,
   ⟨0x212001, 0x212001, 9, 0, 0, 1793, false, false⟩,
   ⟨0x212002, 0x212002, 9, 0, 0, 3136, false, false⟩,
   ⟨0x212003, 0x212003, 2, 0, 0, 1, false, false⟩,
   ⟨0x213001, 0x213001, 9, 3, 0, 32, false, false⟩,
   ⟨0x213002, 0x213002, 9, 1, 0, 1648, false, false⟩,
   ⟨0x213003, 0x213003, 4, 1, 0, 4, false, false⟩,
   ⟨0x214001, 0x214001, 4, 3, 0, 4, false, false⟩]

def objRows3 : List ObjRow :=
  [⟨0x300001, 0x300001, 4, 0, 0, 4, false, false⟩,
   ⟨0x300002, 0x300002, 4, 0, 0, 4, false, false⟩,
   ⟨0x300003, 0x300003, 4, 0, 0, 4, false, false⟩,
   ⟨0x300004, 0x300004, 3, 0, 0, 2, false, false⟩,
   ⟨0x300005, 0x300005, 3, 0, 0, 2, false, false⟩,
   ⟨0x301001, 0x301001, 3, 1, 2, 2, false, false⟩,
   ⟨0x301002, 0x301002, 4, 1, 2, 4, false, false⟩,
   ⟨0x301003, 0x301003, 5, 1, 2, 8, false, false⟩,
   ⟨0x302001, 0x302001, 5, 1, 1, 8, false, false⟩,
   ⟨0x302002, 0x302002, 5, 1, 1, 8, false, false⟩,
   ⟨0x302003, 0x302003, 5, 1, 1, 8, false, false⟩,
   ⟨0x304000, 0x304FFF, 9, 1, 2, 32, true, false⟩,
   ⟨0x310001, 0x310001, 5, 0, 0, 8, false, false⟩,
   ⟨0x310002, 0x310002, 5, 0, 0, 8, false, false⟩,
   ⟨0x310003, 0x310003, 3, 0, 0, 2, false, false⟩,
   ⟨0x310004, 0x310004, 3, 0, 0, 2, false, false⟩,
   ⟨0x310005, 0x310005, 2, 0, 0, 1, false, false⟩,
   ⟨0x310006, 0x310006, 2, 0, 0, 1, false, false⟩,
   ⟨0x310007, 0x310007, 2, 0, 0, 1, false, false⟩,
   ⟨0x310008, 0x310008, 2, 0, 0, 1, false, false⟩,
   ⟨0x311001, 0x311006, 4, 1, 2, 4, false, false⟩,
   ⟨0x311101, 0x311106, 7, 1, 2, 4, false, false⟩,
   ⟨0x312001, 0x312006, 5, 1, 2, 8, false, false⟩,
   ⟨0x312101, 0x312106, 5, 1, 2, 8, false, false⟩,
   ⟨0x312201, 0x312206, 5, 1, 2, 8, false, false⟩]

def objRows3_1 : List ObjRow :=
  [⟨0x312301, 0x312306, 5, 1, 2, 8, false, false⟩,
   ⟨0x313001, 0x313001, 5, 1, 2, 8, false, false⟩,
   ⟨0x320001, 0x320001, 2, 0, 0, 1, false, false⟩,
   ⟨0x320002, 0x320002, 2, 0, 0, 1, false, false⟩,
   ⟨0x320003, 0x320003, 2, 0, 0, 1, false, false⟩,
   ⟨0x320004, 0x320004, 3, 0, 0, 2, false, false⟩,
   ⟨0x321001, 0x321010, 4, 1, 2, 4, false, false⟩,
   ⟨0x321101, 0x321101, 4, 1, 1, 4, false, false⟩,
   ⟨0x322001, 0x322001, 5, 1, 2, 8, false, false⟩,
   ⟨0x322002, 0x322002, 5, 1, 2, 8, false, false⟩,
   ⟨0x322003, 0x322003, 5, 1, 2, 8, false, false⟩,
   ⟨0x322004, 0x322004, 5, 1, 2, 8, false, false⟩,
   ⟨0x323001, 0x323010, 9, 4, 0, 24, false, false⟩,
   ⟨0x324001, 0x324001, 5, 1, 2, 8, false, false⟩,
   ⟨0x330001, 0x330001, 2, 0, 0, 1, false, false⟩,
   ⟨0x330002, 0x330002, 2, 0, 0, 1, false, false⟩,
   ⟨0x330003, 0x330003, 3, 0, 0, 2, false, false⟩,
   ⟨0x330004, 0x330004, 2, 0, 0, 1, false, false⟩,
   ⟨0x330005, 0x330005, 2, 0, 0, 1, false, false⟩,
   ⟨0x330101, 0x330101, 4, 4, 0, 4, false, false⟩,
   ⟨0x330102, 0x330102, 4, 1, 0, 4, false, false⟩,
   ⟨0x330201, 0x330204, 3, 1, 2, 2, false, false⟩,
   ⟨0x331001, 0x331060, 5, 1, 1, 8, false, false⟩,
   ⟨0x331101, 0x331160, 9, 1, 1, 32, false, false⟩,
   ⟨0x332001, 0x332001, 5, 1, 2, 8, false, false⟩]

def objRows3_2 : List ObjRow :=
  [⟨0x332002, 0x332002, 5, 1, 2, 8, false, false⟩,
   ⟨0x332003, 0x332003, 5, 1, 2, 8, false, false⟩,
   ⟨0x332004, 0x332004, 5, 1, 2, 8, false, false⟩,
   ⟨0x332005, 0x332005, 5, 1, 2, 8, false, false⟩,
   ⟨0x333001, 0x333040, 3, 4, 2, 2, false, false⟩,
   ⟨0x333101, 0x333140, 9, 1, 2, 32, false, false⟩,
   ⟨0x333201, 0x333240, 5, 1, 2, 8, false, false⟩,
   ⟨0x333301, 0x333340, 5, 1, 2, 8, false, false⟩,
   ⟨0x334000, 0x335FFF, 5, 1, 2, 8, false, false⟩,
   ⟨0x336001, 0x336001, 9, 1, 0, 80, false, false⟩,
   ⟨0x336101, 0x336101, 5, 1, 2, 8, false, false⟩]

def objRows4 : List ObjRow :=
  [⟨0x400001, 0x400001, 2, 0, 0, 1, false, false⟩,
   ⟨0x400002, 0x400002, 4, 0, 0, 4, false, false⟩,
   ⟨0x400003, 0x400003, 2, 0, 0, 1, false, false⟩,
   ⟨0x400004, 0x400004, 3, 0, 0, 2, false, false⟩,
   ⟨0x400005, 0x400005, 2, 0, 0, 1, false, false⟩,
   ⟨0x400006, 0x400006, 2, 0, 0, 1, false, false⟩,
   ⟨0x401001, 0x401001, 2, 4, 3, 1, false, false⟩,
   ⟨0x401002, 0x401002, 4, 1, 3, 4, false, false⟩,
   ⟨0x401003, 0x401003, 2, 4, 3, 1, false, false⟩,
   ⟨0x401004, 0x401004, 2, 4, 3, 1, false, false⟩,
   ⟨0x401101, 0x401101, 5, 1, 3, 8, false, false⟩,
   ⟨0x401102, 0x401102, 5, 1, 3, 8, false, false⟩,
   ⟨0x401103, 0x401103, 5, 1, 3, 8, false, false⟩,
   ⟨0x401104, 0x401104, 5, 1, 3, 8, false, false⟩,
   ⟨0x401105, 0x401105, 5, 1, 3, 8, false, false⟩,
   ⟨0x401106, 0x401106, 5, 1, 3, 8, false, false⟩,
   ⟨0x401107, 0x401107, 5, 1, 3, 8, false, false⟩,
   ⟨0x402002, 0x402002, 2, 3, 3, 1, false, false⟩,
   ⟨0x402101, 0x402108, 4, 1, 0, 4, false, false⟩,
   ⟨0x403001, 0x403001, 5, 1, 3, 8, false, false⟩,
   ⟨0x404001, 0x404010, 4, 4, 0, 4, false, false⟩,
   ⟨0x410001, 0x410001, 3, 4, 0, 2, false, false⟩,
   ⟨0x410002, 0x410002, 4, 4, 0, 4, false, false⟩,
   ⟨0x410003, 0x410003, 3, 4, 0, 2, false, false⟩,
   ⟨0x411001, 0x411001, 3, 4, 0, 2, false, false⟩]

def objRows4_1 : List ObjRow :=
  [⟨0x411002, 0x411002, 3, 1, 0, 2, false, false⟩,
   ⟨0x411003, 0x411003, 2, 4, 0, 1, false, false⟩,
   ⟨0x411004, 0x411004, 4, 4, 0, 4, false, false⟩,
   ⟨0x412001, 0x412001, 2, 4, 3, 1, false, false⟩,
   ⟨0x413001, 0x413001, 5, 1, 0, 8, false, false⟩,
   ⟨0x414001, 0x414001, 2, 2, 0, 1, false, false⟩,
   ⟨0x414002, 0x414002, 2, 1, 0, 1, false, false⟩,
   ⟨0x415000, 0x415FFF, 9, 4, 0, 16, true, false⟩,
   ⟨0x416001, 0x416001, 5, 1, 3, 8, false, false⟩,
   ⟨0x416002, 0x416002, 5, 1, 3, 8, false, false⟩,
   ⟨0x416003, 0x416003, 5, 1, 0, 8, false, false⟩,
   ⟨0x416004, 0x416004, 5, 1, 0, 8, false, false⟩,
   ⟨0x420001, 0x420001, 5, 1, 0, 8, false, false⟩,
   ⟨0x420002, 0x420002, 3, 0, 0, 2, false, false⟩,
   ⟨0x420003, 0x420003, 2, 4, 0, 1, false, false⟩,
   ⟨0x420004, 0x420004, 1, 4, 0, 1, false, false⟩,
   ⟨0x421001, 0x421001, 9, 1, 3, 120, false, false⟩,
   ⟨0x421002, 0x421002, 4, 1, 3, 4, false, false⟩,
   ⟨0x422001, 0x422001, 5, 1, 0, 8, false, false⟩,
   ⟨0x422002, 0x422002, 2, 4, 0, 1, false, false⟩,
   ⟨0x422003, 0x422003, 2, 4, 0, 1, false, false⟩,
   ⟨0x422004, 0x422004, 4, 1, 0, 4, false, false⟩,
   ⟨0x422005, 0x422005, 6, 1, 0, 4, false, false⟩,
   ⟨0x422006, 0x422006, 4, 1, 0, 4, false, false⟩,
   ⟨0x422007, 0x422007, 7, 1, 0, 4, false, false⟩]

def objRows4_2 : List ObjRow :=
  [⟨0x422008, 0x422008, 1, 4, 0, 1, false, false⟩,
   ⟨0x422009, 0x422009, 4, 1, 0, 4, false, false⟩,
   ⟨0x423001, 0x423001, 5, 1, 0, 8, false, false⟩,
   ⟨0x423002, 0x423002, 5, 1, 0, 8, false, false⟩,
   ⟨0x423003, 0x423003, 2, 2, 0, 1, false, false⟩,
   ⟨0x423004, 0x423004, 2, 1, 0, 1, false, false⟩]

def objRows5 : List ObjRow :=
  [⟨0x500001, 0x500001, 3, 0, 0, 2, false, false⟩,
   ⟨0x500002, 0x500002, 4, 0, 0, 4, false, false⟩,
   ⟨0x500003, 0x500003, 3, 0, 0, 2, false, false⟩,
   ⟨0x500004, 0x500004, 3, 0, 0, 2, false, false⟩,
   ⟨0x500005, 0x500005, 4, 0, 0, 4, false, false⟩,
   ⟨0x501001, 0x501001, 2, 1, 0, 1, false, false⟩,
   ⟨0x501002, 0x501002, 2, 4, 0, 1, false, false⟩,
   ⟨0x501003, 0x501003, 4, 1, 0, 4, false, false⟩,
   ⟨0x501004, 0x501004, 5, 1, 0, 8, false, false⟩,
   ⟨0x502001, 0x502001, 3, 1, 0, 2, false, false⟩,
   ⟨0x502002, 0x502002, 4, 1, 0, 4, false, false⟩,
   ⟨0x502003, 0x502003, 3, 4, 0, 2, false, false⟩,
   ⟨0x502004, 0x502004, 4, 4, 0, 4, false, false⟩,
   ⟨0x502101, 0x502105, 5, 1, 0, 8, false, false⟩,
   ⟨0x503001, 0x503001, 5, 4, 0, 8, false, false⟩,
   ⟨0x503002, 0x503002, 4, 4, 0, 4, false, false⟩,
   ⟨0x503003, 0x503003, 3, 4, 0, 2, false, false⟩,
   ⟨0x503004, 0x503004, 3, 4, 0, 2, false, false⟩,
   ⟨0x503005, 0x503005, 4, 1, 0, 4, false, false⟩,
   ⟨0x503101, 0x503101, 3, 4, 0, 2, false, false⟩,
   ⟨0x503102, 0x503102, 3, 4, 0, 2, false, false⟩,
   ⟨0x503103, 0x503103, 3, 4, 0, 2, false, false⟩,
   ⟨0x503104, 0x503104, 3, 4, 0, 2, false, false⟩,
   ⟨0x503105, 0x503105, 3, 4, 0, 2, false, false⟩,
   ⟨0x503106, 0x503106, 2, 4, 0, 1, false, false⟩]

def objRows5_1 : List ObjRow :=
  [⟨0x503107, 0x503107, 4, 4, 0, 4, false, false⟩,
   ⟨0x504001, 0x504001, 9, 1, 4, 256, false, false⟩,
   ⟨0x504101, 0x504101, 2, 1, 4, 1, false, false⟩,
   ⟨0x505001, 0x505001, 5, 1, 2, 8, false, false⟩,
   ⟨0x505002, 0x505002, 5, 1, 2, 8, false, false⟩,
   ⟨0x506001, 0x506001, 5, 1, 0, 8, false, false⟩,
   ⟨0x506002, 0x506002, 5, 1, 0, 8, false, false⟩,
   ⟨0x506003, 0x506003, 5, 1, 0, 8, false, false⟩,
   ⟨0x507001, 0x507001, 5, 1, 0, 8, false, false⟩]

def objRows6 : List ObjRow :=
  [⟨0x600001, 0x600001, 2, 0, 0, 1, false, false⟩,
   ⟨0x600002, 0x600002, 4, 0, 0, 4, false, false⟩,
   ⟨0x600003, 0x600003, 4, 0, 0, 4, false, false⟩,
   ⟨0x600004, 0x600004, 2, 0, 0, 1, false, false⟩,
   ⟨0x600005, 0x600005, 3, 0, 0, 2, false, false⟩,
   ⟨0x601001, 0x601001, 2, 3, 0, 1, false, true⟩,
   ⟨0x601002, 0x601002, 9, 2, 0, 16, false, false⟩,
   ⟨0x601003, 0x601003, 1, 3, 0, 1, false, true⟩,
   ⟨0x601004, 0x601004, 1, 2, 0, 1, false, true⟩,
   ⟨0x601101, 0x601101, 5, 1, 0, 8, false, false⟩,
   ⟨0x601102, 0x601102, 5, 1, 0, 8, false, false⟩,
   ⟨0x601201, 0x601201, 2, 1, 0, 1, false, false⟩,
   ⟨0x601202, 0x601202, 2, 1, 0, 1, false, false⟩,
   ⟨0x601203, 0x601203, 3, 1, 0, 2, false, false⟩,
   ⟨0x601204, 0x601204, 5, 1, 0, 8, false, false⟩,
   ⟨0x601205, 0x601205, 2, 1, 0, 1, false, false⟩,
   ⟨0x601301, 0x601302, 9, 1, 0, 32, false, false⟩,
   ⟨0x602001, 0x602010, 5, 4, 0, 8, false, false⟩,
   ⟨0x603001, 0x603001, 2, 2, 0, 1, false, false⟩,
   ⟨0x603002, 0x603002, 2, 2, 0, 1, false, false⟩,
   ⟨0x603003, 0x603003, 2, 2, 0, 1, false, false⟩,
   ⟨0x603004, 0x603004, 3, 2, 0, 2, false, false⟩,
   ⟨0x603101, 0x603101, 5, 1, 0, 8, false, false⟩,
   ⟨0x603102, 0x603102, 4, 1, 0, 4, false, false⟩,
   ⟨0x603103, 0x603103, 4, 1, 0, 4, false, false⟩]

def objRows6_1 : List ObjRow :=
  [⟨0x603104, 0x603104, 5, 1, 0, 8, false, false⟩,
   ⟨0x604001, 0x604001, 1, 3, 5, 1, false, false⟩,
   ⟨0x604002, 0x604002, 5, 1, 5, 8, false, false⟩,
   ⟨0x604101, 0x604101, 5, 4, 0, 8, false, false⟩,
   ⟨0x604102, 0x604102, 4, 4, 0, 4, false, false⟩,
   ⟨0x604103, 0x604103, 2, 2, 0, 1, false, false⟩]

def objRows7 : List ObjRow :=
  [⟨0x700001, 0x700001, 2, 0, 0, 1, false, false⟩,
   ⟨0x700002, 0x700002, 2, 0, 0, 1, false, false⟩,
   ⟨0x701001, 0x701001, 4, 1, 0, 4, false, false⟩,
   ⟨0x701101, 0x701140, 9, 1, 0, 32, false, false⟩,
   ⟨0x701201, 0x701201, 5, 1, 2, 8, false, false⟩,
   ⟨0x701202, 0x701202, 5, 1, 2, 8, false, false⟩,
   ⟨0x701203, 0x701203, 5, 1, 2, 8, false, false⟩,
   ⟨0x702001, 0x702001, 5, 1, 0, 8, false, false⟩,
   ⟨0x702002, 0x702002, 5, 1, 0, 8, false, false⟩,
   ⟨0x702003, 0x702003, 5, 1, 0, 8, false, false⟩,
   ⟨0x702004, 0x702004, 5, 1, 0, 8, false, false⟩,
   ⟨0x702101, 0x702101, 4, 1, 0, 4, false, false⟩,
   ⟨0x702102, 0x702102, 5, 1, 0, 8, false, false⟩,
   ⟨0x702103, 0x702103, 7, 1, 0, 4, false, false⟩,
   ⟨0x702104, 0x702104, 4, 1, 0, 4, false, false⟩,
   ⟨0x703001, 0x703001, 5, 1, 2, 8, false, false⟩,
   ⟨0x704000, 0x7040FE, 5, 1, 0, 8, false, false⟩,
   ⟨0x704101, 0x704101, 5, 1, 0, 8, false, false⟩,
   ⟨0x704102, 0x704102, 2, 2, 0, 1, false, false⟩,
   ⟨0x705001, 0x705001, 2, 1, 0, 1, false, false⟩,
   ⟨0x706001, 0x706001, 9, 4, 0, 24, false, false⟩]

def objRows8 : List ObjRow :=
  [⟨0x800001, 0x800001, 2, 0, 0, 1, false, false⟩,
   ⟨0x800002, 0x800002, 4, 0, 0, 4, false, false⟩,
   ⟨0x800003, 0x800003, 3, 0, 0, 2, false, false⟩,
   ⟨0x800004, 0x800004, 3, 0, 0, 2, false, false⟩,
   ⟨0x800005, 0x800005, 4, 0, 0, 4, false, false⟩,
   ⟨0x801001, 0x801001, 4, 1, 0, 4, false, false⟩,
   ⟨0x801002, 0x801002, 5, 1, 0, 8, false, false⟩,
   ⟨0x801101, 0x801105, 5, 1, 0, 8, false, false⟩,
   ⟨0x801201, 0x801201, 5, 1, 0, 8, false, false⟩,
   ⟨0x801202, 0x801202, 5, 1, 0, 8, false, false⟩,
   ⟨0x801203, 0x801203, 5, 1, 0, 8, false, false⟩,
   ⟨0x801204, 0x801204, 5, 1, 0, 8, false, false⟩,
   ⟨0x801205, 0x801205, 4, 1, 0, 4, false, false⟩,
   ⟨0x802001, 0x802001, 4, 1, 0, 4, false, false⟩,
   ⟨0x802002, 0x802002, 4, 1, 0, 4, false, false⟩,
   ⟨0x803001, 0x803001, 4, 1, 0, 4, false, false⟩,
   ⟨0x810001, 0x810001, 2, 4, 0, 1, false, false⟩,
   ⟨0x810101, 0x810102, 4, 1, 0, 4, false, false⟩,
   ⟨0x810201, 0x810202, 4, 1, 0, 4, false, false⟩,
   ⟨0x820001, 0x820001, 4, 0, 0, 4, false, false⟩,
   ⟨0x820002, 0x820002, 2, 1, 0, 1, false, false⟩,
   ⟨0x820003, 0x820003, 2, 1, 0, 1, false, false⟩,
   ⟨0x820004, 0x820004, 4, 1, 0, 4, false, false⟩]

def objRows9 : List ObjRow :=
  [⟨0x900001, 0x900001, 9, 3, 2, 16, true, false⟩,
   ⟨0x900002, 0x900002, 2, 3, 1, 1, false, false⟩]

def objRowsa : List ObjRow :=
  [⟨0xA00001, 0xA00001, 3, 0, 0, 2, false, false⟩,
   ⟨0xA00002, 0xA00002, 2, 0, 0, 1, false, false⟩,
   ⟨0xA00003, 0xA00003, 2, 0, 0, 1, false, false⟩,
   ⟨0xA00004, 0xA00004, 5, 0, 0, 8, false, false⟩,
   ⟨0xA00005, 0xA00005, 5, 0, 0, 8, false, false⟩,
   ⟨0xA01001, 0xA01001, 5, 4, 0, 8, false, false⟩,
   ⟨0xA01002, 0xA01002, 2, 1, 0, 1, false, false⟩,
   ⟨0xA01003, 0xA01003, 5, 1, 0, 8, false, false⟩,
   ⟨0xA01004, 0xA01004, 1, 3, 0, 1, false, false⟩,
   ⟨0xA01005, 0xA01005, 5, 1, 0, 8, false, false⟩,
   ⟨0xA02001, 0xA02001, 2, 1, 0, 1, false, false⟩,
   ⟨0xA02002, 0xA02002, 2, 1, 0, 1, false, false⟩,
   ⟨0xA02003, 0xA02003, 9, 1, 0, 192, false, false⟩,
   ⟨0xA02004, 0xA02004, 9, 1, 0, 32, false, false⟩,
   ⟨0xA03001, 0xA03001, 3, 1, 0, 2, false, false⟩,
   ⟨0xA03002, 0xA03002, 3, 1, 0, 2, false, false⟩,
   ⟨0xA03003, 0xA03003, 2, 1, 0, 1, false, false⟩,
   ⟨0xA03004, 0xA03004, 3, 1, 0, 2, false, false⟩,
   ⟨0xA03101, 0xA03110, 5, 1, 0, 8, false, false⟩,
   ⟨0xA03201, 0xA03201, 5, 1, 0, 8, false, false⟩,
   ⟨0xA03202, 0xA03202, 5, 1, 0, 8, false, false⟩,
   ⟨0xA03203, 0xA03203, 2, 1, 0, 1, false, false⟩,
   ⟨0xA04001, 0xA04001, 4, 1, 0, 4, false, false⟩,
   ⟨0xA04002, 0xA04002, 5, 1, 0, 8, false, false⟩,
   ⟨0xA05001, 0xA05001, 5, 1, 0, 8, false, false⟩]

/-- Every object of Table 17.12. -/
def objRows : List ObjRow :=
  objRows1 ++ objRows2 ++ objRows2_1 ++ objRows3 ++ objRows3_1 ++ objRows3_2
    ++ objRows4 ++ objRows4_1 ++ objRows4_2 ++ objRows5 ++ objRows5_1 ++ objRows6
    ++ objRows6_1 ++ objRows7 ++ objRows8 ++ objRows9 ++ objRowsa

/-- The row of an object. -/
def objRow (index sub : Nat) : Option ObjRow :=
  objRows.find? fun r => decide (r.lo ≤ 256 * index + sub) && decide (256 * index + sub ≤ r.hi)

end Sys2Proof.Machine
end

