-- ==== Sys2Proof/Machine/Answer.lean ====
section
/-! DEFINITION. How the Steward answers the dictionary: messages, the checks in their order, pending
operations (spec/17). -/

namespace Sys2Proof.Machine

/-! ### Messages (R475, Table 17.4) -/

def stOk : BitVec 8 := 0#8
def stNotReady : BitVec 8 := 1#8
def stNoObject : BitVec 8 := 2#8
def stDenied : BitVec 8 := 3#8
def stType : BitVec 8 := 4#8
def stRange : BitVec 8 := 5#8
def stLocked : BitVec 8 := 6#8
def stComplement : BitVec 8 := 7#8
def stBusy : BitVec 8 := 8#8
def stPending : BitVec 8 := 9#8

/-- Words M0 and M1 and the value, padded. -/
def dictBytes (inst index : BitVec 16) (sub opcode status : BitVec 8) (tag : BitVec 16) (type : BitVec 8)
    (length : BitVec 16) (offset : BitVec 24) (value : List Byte) : List Byte :=
  let m0 : W64 := inst ++ index ++ sub ++ opcode ++ status ++ 4#8
  let m1 : W64 := tag ++ type ++ length ++ offset
  bytesLE m0.toNat 8 ++ bytesLE m1.toNat 8 ++ pad8 value

def DictReply.bytes (r : DictReply) : List Byte :=
  dictBytes r.inst r.index r.sub r.opcode r.status r.tag r.type r.length r.offset r.value

/-- A message as the body of an Eothar frame (R489). -/
def dictBody (bs : List Byte) : BitVec 960 := BitVec.ofNat 960 (numLE (bs.take 120))

/-- Bring-up has failed or the module is quiet: nothing answers (R443, R483). -/
def State.answers (s : State) : Bool := !s.integ.quiet && !s.tap.landsTaken && !(s.boot.phase == .off)
  && !(s.boot.phase == .held)

/-- Put a reply or a COMPLETE on its path (R485, R487 to R489). -/
def State.sendReply (s : State) (r : DictReply) : State :=
  if !s.answers then s
  else
    let s := { s with dict := { s.dict with replies := s.dict.replies ++ [r] } }
    match r.path with
    | .kloder => (s.kSend chDict ⟨true, true, r.bytes⟩)
    | .i3c =>
      { s with i3c := { s.i3c with sent := s.i3c.sent ++
          [0x7F#8 :: (bytesLE 32473 4).reverse ++ r.bytes] } }
    | .eothar rank => s.sendSingle clsMgt 5#8 rank (dictBody r.bytes)

/-- A Kloder request's credit is freed when its reply is sent (Table 18.3), and a waiting copy of the request is
taken. -/
def State.finish (s : State) (path : DictPath) (message : List Byte) : State :=
  let held := s.dict.waiting.contains (path, message)
  let s := { s with dict := { s.dict with waiting := s.dict.waiting.erase (path, message) } }
  if held && path == .kloder then s.kFree chDict else s

/-- The member keeps its last reply to the desk rank for each TAG (R490). -/
def State.storeReply (s : State) (r : DictReply) : State :=
  match r.path with
  | .eothar _ =>
    let old := s.dict.stored.filter fun e => e.1 != r.tag && decide (s.wall < e.2.1 + wallOfUs 100000)
    { s with dict := { s.dict with stored := old ++ [(r.tag, s.wall, [r])] } }
  | _ => s

/-- The stored reply that a repeated Eothar request is answered with (R490). -/
def State.repeated (s : State) (path : DictPath) (tag : BitVec 16) : Option (List DictReply) :=
  match path with
  | .eothar _ => (s.dict.stored.find? fun e => e.1 == tag && decide (s.wall < e.2.1 + wallOfUs 100000)).map (·.2.2)
  | _ => none

/-- A request from I3C or Eothar that the Steward has no room for: it holds 64 (R485). -/
def State.full (s : State) (path : DictPath) (message : List Byte) : Bool :=
  path != .kloder && !s.dict.waiting.contains (path, message)
    && decide (64 ≤ (s.dict.waiting.filter fun e => e.1 != .kloder).length)

/-! ### Checks (R478, Table 17.8) -/

/-- The dictionary is open (R481). -/
def State.dictOpen (s : State) : Bool := s.boot.phase == .opened || s.boot.phase == .ready

/-- A hall that dictionary accesses reach (R468). -/
def State.hallUp (s : State) (h : Nat) : Bool := s.hallEnabled h && !s.integ.hallsOff.getLsbD h

/-- Instances that a selector covers; none where Table 17.1 does not accept it (R467 to R470). -/
def State.covers (s : State) (kind : Nat) (inst : BitVec 16) : Option (List Nat) :=
  let n := inst.toNat
  let all (m : Nat) : Option (List Nat) :=
    if n = 0xFFFF then some (List.range m) else if n < m then some [n] else none
  match kind with
  | 0 => if n = 0 then some [0] else none
  | 1 =>
    if n = 0xFFFF then some ((List.range 192).filter s.hallUp)
    else if 0xFF00 ≤ n ∧ n < 0xFF10 then
      some ((List.range 192).filter fun h => s.hallUp h
        && (SMap.get 0#192 s.por.hallGroup (n - 0xFF00)).getLsbD h)
    else if s.hallUp n then some [n] else none
  | 2 => all 4
  | 3 => all 32
  | 4 => all 8192
  | _ => all 512

/-- A selector of several instances. -/
def isGroup (inst : BitVec 16) : Bool := inst == 0xFFFF#16 || (decide (0xFF00 ≤ inst.toNat) && decide (inst.toNat < 0xFF10))

/-- A selector that Table 17.1 accepts for a kind only in writes (R469). -/
def groupSelector (kind : Nat) (inst : BitVec 16) : Bool :=
  decide (kind ≠ 0) && (inst == 0xFFFF#16 || (kind == 1 && isGroup inst))

/-- The Eothar path is served only from the desk rank of a job of several (R489). -/
def State.pathOk (s : State) (path : DictPath) : Bool :=
  match path with
  | .eothar r => r == s.ranks.deskRank && decide (1 < s.ranks.jobSize.toNat)
  | _ => true

/-- R491: at a member other than the desk rank these objects are written only over Eothar. -/
def State.deskOk (s : State) (row : ObjRow) (path : DictPath) : Bool :=
  !(row.deskOnly && s.job.placement == 1#8 && s.ranks.myRank != s.ranks.deskRank)
    || (match path with | .eothar _ => true | _ => false)

/-- Value bytes that a path carries (Table 17.10). -/
def pathLimit : DictPath → Nat
  | .eothar _ => 96
  | _ => 1024

/-- Bytes that a write may carry. The keys, at 1,793 B, are written whole over Kloder, as R522 has the host do, although
they pass the path's limit (DEDUCED, log row 21). -/
def writeLimit (index : Nat) (path : DictPath) : Nat :=
  if index = 0x2110 ∧ path = .kloder then 1793 else pathLimit path

/-- What an object's own rule asks of a write: whether the value is a good pair and in range, whether its own
conditions stand, whether it needs full readiness (R482), whether its module state forbids it. -/
structure WriteRule where
  denied : Bool
  notReady : Bool
  pairBad : Bool
  rangeOk : Nat → Bool
  /-- Exempt from the lock of R492. -/
  unlocked : Bool
  busy : Nat → Bool

def WriteRule.plain (rangeOk : Nat → Bool) : WriteRule := ⟨false, false, false, rangeOk, false, fun _ => false⟩

/-- A BOOL's byte is 0 or 1 (Table 17.2). -/
def boolOk (row : ObjRow) (v : List Byte) : Bool := row.type != 1 || v == [0#8] || v == [1#8]

/-- The status of a write, and the lowest instance that refuses it (R470, R478). -/
def State.writeStatus (s : State) (index sub : Nat) (w : DictWrite) (rule : WriteRule) : BitVec 8 × Option Nat :=
  match objRow index sub with
  | none => (if s.dictOpen then stNoObject else stNotReady, none)
  | some row =>
    if !s.dictOpen || (rule.notReady && !(s.boot.phase == .ready)) then (stNotReady, none)
    else
      match s.covers row.kind w.inst with
      | none => (stNoObject, none)
      | some is =>
        if row.access < 2 || s.integ.fatalState == 1#8 || !s.pathOk w.path || !s.deskOk row w.path || rule.denied
            || (index == 0x9000 && s.part.debugClose) then (stDenied, is.head?)
        else if w.type.toNat ≠ row.type ∨ w.offset ≠ 0#24 ∨ w.length.toNat ≠ row.size
            ∨ w.value.length ≠ row.size ∨ writeLimit index w.path < row.size then (stType, is.head?)
        else if row.access = 4 && s.jobLoaded && !rule.unlocked then (stLocked, is.head?)
        else if rule.pairBad then (stComplement, is.head?)
        else
          match is.find? fun i => !(boolOk row w.value && rule.rangeOk i) with
          | some i => (stRange, some i)
          | none =>
            match is.find? rule.busy with
            | some i => (stBusy, some i)
            | none => (stOk, none)

/-- The type that a reply states. -/
def rowType (index sub : Nat) : BitVec 8 :=
  match objRow index sub with | some r => BitVec.ofNat 8 r.type | none => 0#8

/-- The reply to a write (Table 17.5, R470). -/
def writeReply (index sub : Nat) (w : DictWrite) (status : BitVec 8) (refusing : Option Nat) : DictReply :=
  let value := match refusing with
    | some i => if isGroup w.inst then bytesLE i 2 else []
    | none => []
  ⟨w.path, w.inst, BitVec.ofNat 16 index, BitVec.ofNat 8 sub, 0x82#8, status, w.tag, rowType index sub,
   BitVec.ofNat 16 value.length, w.offset, value⟩

/-- The request as it stands in a message. -/
def writeMessage (index sub : Nat) (w : DictWrite) : List Byte :=
  dictBytes w.inst (BitVec.ofNat 16 index) (BitVec.ofNat 8 sub) 2#8 0#8 w.tag w.type w.length w.offset w.value

/-! ### Pending operations (R486, R549) -/

/-- Record that a COMPLETE is owed. -/
def State.owe (s : State) (index sub : Nat) (w : DictWrite) : State :=
  { s with dict := { s.dict with owed := s.dict.owed ++
      [⟨w.path, w.inst, BitVec.ofNat 16 index, BitVec.ofNat 8 sub, w.tag, none⟩] } }

/-- The operation of a pending write ends: `inst` narrows it to one instance where given. -/
def State.endOwed (s : State) (index sub : Nat) (inst : Option Nat) (ok : Bool) : State :=
  { s with dict := { s.dict with owed := s.dict.owed.map fun o =>
      if o.index.toNat == index && o.sub.toNat == sub && o.ended.isNone
          && (match inst with | some i => o.inst.toNat == i || isGroup o.inst | none => true) then
        { o with ended := some (ok, s.milestone) }
      else o } }

/-- Every operation in progress but UNLOAD fails (R486, R549). -/
def State.failOwed (s : State) : State :=
  { s with dict := { s.dict with owed := s.dict.owed.map fun o =>
      if o.ended = none ∧ ¬ (o.index = 0xA010#16 ∧ o.sub = 4#8) then { o with ended := some (false, s.milestone) } else o } }

/-! ### Serving a write (R484) -/

/-- Serve a write: check it, apply it to every instance it covers, and answer. A pending one is answered PENDING
and owed a COMPLETE. -/
def State.serveWrite (s : State) (index sub : Nat) (w : DictWrite) (rule : WriteRule) (pending : Bool)
    (apply : State → Nat → State) : State :=
  if !s.answers then s
  else
    match s.repeated w.path w.tag with
    | some rs => (rs.foldl (fun s r => s.sendReply r) s).finish w.path (writeMessage index sub w)
    | none =>
      if s.full w.path (writeMessage index sub w) then s.sendReply (writeReply index sub w stBusy none) else
      let st := s.writeStatus index sub w rule
      let s := s.finish w.path (writeMessage index sub w)
      if st.1 = stOk then
        let is := match objRow index sub with
          | some row => (s.covers row.kind w.inst).getD []
          | none => []
        let r := writeReply index sub w (if pending then stPending else stOk) none
        let s := (s.sendReply r).storeReply r
        let s := if pending then s.owe index sub w else s
        is.foldl apply s
      else
        let r := writeReply index sub w st.1 st.2
        (s.sendReply r).storeReply r

/-- The number that a written value spells. -/
def wnum (w : DictWrite) : Nat := numLE w.value

/-- The two words of a CPAIR64 value (R7). -/
def wpair (w : DictWrite) : Pair64 :=
  ⟨BitVec.ofNat 64 (numLE (w.value.take 8)), BitVec.ofNat 64 (numLE (w.value.drop 8))⟩

end Sys2Proof.Machine
end

