-- ==== Sys2Proof/Machine/Loader.lean ====
section
/-! DEFINITION. The loader's request in progress: the image in the landing buffer, the manifest's checks, failed
attempts, and the end of a load (spec/15 R412 to R426, R437). -/

namespace Sys2Proof.Machine

/-- Porter 13 of a tower, which is the loader's (R418). -/
def isLoaderPorter (k : Nat) : Bool := decide (k < 64) && k % 16 == 13

/-! ### Adapter handles (R436, Table 15.6) -/

def State.adapter (s : State) (a : Nat) : Adapter := SMap.get Adapter.empty s.loader.gens.adapters a
def State.setAdapter (s : State) (a : Nat) (x : Adapter) : State :=
  { s with loader := { s.loader with gens := { s.loader.gens with
      adapters := SMap.set Adapter.empty s.loader.gens.adapters a x } } }

def Adapter.pin (x : Adapter) (z : Bool) : BitVec 16 := if z then x.pin1 else x.pin0
def Adapter.st (x : Adapter) (z : Bool) : BitVec 2 := if z then x.st1 else x.st0
def Adapter.setPin (x : Adapter) (z : Bool) (n : BitVec 16) : Adapter :=
  if z then { x with pin1 := n } else { x with pin0 := n }
def Adapter.setSt (x : Adapter) (z : Bool) (n : BitVec 2) : Adapter :=
  if z then { x with st1 := n } else { x with st0 := n }

def adapterEmpty : BitVec 2 := 0#2
def adapterLoading : BitVec 2 := 1#2
def adapterReady : BitVec 2 := 2#2

/-! ### Landed runs -/

/-- Add the bytes [lo, hi) to rising runs that do not touch. -/
def addRun (lo hi : Nat) : List (Nat × Nat) → List (Nat × Nat)
  | [] => if lo < hi then [(lo, hi)] else []
  | (a, b) :: rs =>
    if hi < a then (if lo < hi then (lo, hi) :: (a, b) :: rs else (a, b) :: rs)
    else if b < lo then (a, b) :: addRun lo hi rs
    else addRun (min lo a) (max hi b) rs

/-- Take the bytes [lo, hi) out of such runs. -/
def cutRun (lo hi : Nat) (rs : List (Nat × Nat)) : List (Nat × Nat) :=
  rs.flatMap fun r =>
    (if r.1 < min r.2 lo then [(r.1, min r.2 lo)] else []) ++ (if max r.1 hi < r.2 then [(max r.1 hi, r.2)] else [])

def runsHave (lo hi : Nat) (rs : List (Nat × Nat)) : Bool :=
  decide (hi ≤ lo) || rs.any fun r => decide (r.1 ≤ lo ∧ hi ≤ r.2)

def runBytes (rs : List (Nat × Nat)) : Nat := (rs.map fun r => r.2 - r.1).sum

/-! ### The image (Tables 15.1 and 15.2) -/

/-- The SHARD number of the manifest and signature (Tables 15.5 and 15.10). -/
def manifestShard : Nat := 0xFFFFFFF

def ActiveLoad.num (a : ActiveLoad) (at_ n : Nat) : Nat := a.buf.readLE at_ n
def ActiveLoad.word (a : ActiveLoad) (at_ : Nat) : W64 := BitVec.ofNat 64 (a.num at_ 8)
/-- Word WMk. -/
def ActiveLoad.wm (a : ActiveLoad) (k : Nat) : W64 := a.word (8 * k)
def ActiveLoad.nshards (a : ActiveLoad) : Nat := ((a.wm 1).extractLsb' 32 32).toNat
def ActiveLoad.tableAt (a : ActiveLoad) : Nat := 4096 * ((a.wm 4).extractLsb' 32 32).toNat
/-- Bytes of the manifest, and of the manifest and signature. -/
def ActiveLoad.manifestLen (a : ActiveLoad) : Nat := 4096 * ((a.wm 4).extractLsb' 0 32).toNat
def ActiveLoad.headLen (a : ActiveLoad) : Nat := a.manifestLen + ((a.wm 5).extractLsb' 48 16).toNat
def ActiveLoad.programDigest (a : ActiveLoad) : BitVec 256 := BitVec.ofNat 256 (a.num 48 32)
def ActiveLoad.source (a : ActiveLoad) : Nat := (a.req.loc.extractLsb' 60 4).toNat
def ActiveLoad.ctrl (a : ActiveLoad) : Nat := (a.req.loc.extractLsb' 59 1).toNat
def ActiveLoad.nsid (a : ActiveLoad) : BitVec 32 := a.req.loc.extractLsb' 0 32
def ActiveLoad.isAdapter (a : ActiveLoad) : Bool := a.req.form == 3#2

/-- The header has landed; the manifest and signature have landed. -/
def ActiveLoad.haveHeader (a : ActiveLoad) : Bool := runsHave 0 128 a.got
def ActiveLoad.haveManifest (a : ActiveLoad) : Bool := a.haveHeader && runsHave 0 a.headLen a.got

/-- A shard entry. -/
structure ShardEntry where
  rank : BitVec 16
  space : BitVec 2
  lhall : Nat
  handle0 : Nat
  handle1 : Nat
  row : Nat
  layer : BitVec 16
  ca0 : BitVec 43
  ca1 : BitVec 43
  at_ : Nat
  units : Nat
  set1 : Bool
  set0 : Bool
  digest : BitVec 256
deriving DecidableEq, Repr

def ActiveLoad.shard (a : ActiveLoad) (i : Nat) : ShardEntry :=
  let t := a.tableAt + 64 * i
  let h0 := a.word t
  let h1 := a.word (t + 8)
  let h3 := a.word (t + 24)
  { rank := h0.extractLsb' 48 16, space := h0.extractLsb' 46 2, lhall := (h0.extractLsb' 38 8).toNat,
    handle0 := (h0.extractLsb' 26 12).toNat, handle1 := (h0.extractLsb' 14 12).toNat,
    row := (h0.extractLsb' 0 14).toNat, layer := h1.extractLsb' 48 16, ca0 := h1.extractLsb' 0 43,
    ca1 := (a.word (t + 16)).extractLsb' 0 43, at_ := 4096 * (h3.extractLsb' 32 32).toNat,
    units := (h3.extractLsb' 8 24).toNat, set1 := h3.getLsbD 1, set0 := h3.getLsbD 0,
    digest := BitVec.ofNat 256 (a.num (t + 32) 32) }

def ShardEntry.stop (e : ShardEntry) : Nat := e.at_ + 512 * e.units

/-- Shards that the member keeps (R421), in table order. -/
def State.keptShards (s : State) (a : ActiveLoad) : List Nat :=
  (List.range a.nshards).filter fun i => (a.shard i).rank == s.ranks.myRank

def ActiveLoad.landing (a : ActiveLoad) (i : Nat) : Landing :=
  if i = manifestShard then a.manifest else SMap.get Landing.empty a.shards i

def ActiveLoad.setLanding (a : ActiveLoad) (i : Nat) (x : Landing) : ActiveLoad :=
  if i = manifestShard then { a with manifest := x } else { a with shards := SMap.set Landing.empty a.shards i x }

/-- First byte and end of a part; the manifest's end is known once its header has landed. -/
def ActiveLoad.part (a : ActiveLoad) (i : Nat) : Nat × Nat :=
  if i = manifestShard then (0, if a.haveHeader then a.headLen else 4096) else ((a.shard i).at_, (a.shard i).stop)

def ActiveLoad.complete (a : ActiveLoad) (i : Nat) : Bool :=
  if i = manifestShard then a.haveManifest else runsHave (a.part i).1 (a.part i).2 a.got

/-- Bytes that the landing buffer holds. -/
def ActiveLoad.held (a : ActiveLoad) : Nat := runBytes a.got - a.released

def landingBytes : Nat := 67108864

def State.setActive (s : State) (a : ActiveLoad) : State := { s with loader := { s.loader with active := some a } }

/-! ### Targets (R411, R413, R418) -/

/-- Tower, tile and endpoint words of a shard's unit `u` in the target set: Larder handle and row, or Cellar address.
`none` where R413 refuses the target. -/
structure ShardTarget where
  tower : Nat
  tile : Nat
  e0 : W64
  cellar : Bool
deriving DecidableEq, Repr

def State.larderTarget (s : State) (a : ActiveLoad) (e : ShardEntry) (u : Nat) : Option ShardTarget :=
  if s.job.logicalHalls.toNat ≤ e.lhall then none
  else
    let mh := (SMap.get 0xFF#8 s.job.hallMap e.lhall).toNat
    let t := hallTower mh
    let k := if a.set then e.handle1 else e.handle0
    let h := s.handle t k
    if !h.valid || decide (h.lenm1 + 1 < e.row + e.units) then none
    else
      let e0 : W64 := 1#2 ++ 0#17 ++ BitVec.ofNat 2 t ++ BitVec.ofNat 6 (mh % 48) ++ 0#2 ++ BitVec.ofNat 12 k ++ 0#9
        ++ BitVec.ofNat 14 (e.row + u)
      some ⟨t, h.sliceFor mh, e0, false⟩

/-- Capacity of a stack by its code (R170). -/
def capacityOf (k : Nat) : Nat := if 16 ≤ k then 171798691840 else 51539607552

/-- A Cellar address of 43 bits is a stack and a byte address (R173). -/
def cellarTarget (ca : BitVec 43) (units u : Nat) : Option ShardTarget :=
  let k := (ca.extractLsb' 38 5).toNat
  let at_ := (ca.extractLsb' 0 38).toNat
  if 24 ≤ k ∨ capacityOf k < at_ + 512 * units then none
  else
    let e0 : W64 := 2#2 ++ 0#19 ++ BitVec.ofNat 5 k ++ BitVec.ofNat 38 (at_ + 512 * u)
    some ⟨stackTower k, stackTile k, e0, true⟩

/-- Cellar address of slot `z` of an adapter handle (R435). -/
def State.slotAddr (s : State) (adapter : Nat) (z : Bool) : BitVec 43 :=
  BitVec.ofNat 43 (s.loader.adapterCa.toNat + (2 * adapter + z.toNat) * s.loader.slotBytes.toNat)

/-- Where unit `u` of a kept shard goes. -/
def State.shardTarget (s : State) (a : ActiveLoad) (e : ShardEntry) (u : Nat) : Option ShardTarget :=
  if e.units = 0 ∨ 32768 < e.units then none
  else if a.isAdapter then
    if e.space ≠ 2#2 ∨ s.loader.slotBytes.toNat < e.ca0.toNat + 512 * e.units then none
    else cellarTarget (s.slotAddr a.req.adapter a.set + e.ca0) e.units u
  else if !(if a.set then e.set1 else e.set0) then none
  else if e.space = 1#2 then s.larderTarget a e u
  else if e.space = 2#2 then cellarTarget (if a.set then e.ca1 else e.ca0) e.units u
  else none

/-! ### Failure and success (R426, R428, R437) -/

/-- 6011.02 FAILED_SHARD (Table 15.10). -/
def failedWord (cause shard : Nat) : W64 := BitVec.ofNat 4 cause ++ BitVec.ofNat 28 shard ++ 0#32

/-- The pending write that began a request ends. -/
def State.endRequest (s : State) (r : LoadReq) (ok : Bool) : State :=
  if r.form = 3#2 then s.endOwed 0x6040 1 (some r.adapter) ok else s.endOwed 0x6010 1 none ok

/-- A failed load. -/
def State.failLoad (s : State) (a : ActiveLoad) (cause shard : Nat) : State :=
  let w := failedWord cause shard
  let s : State := { s with loader := { s.loader with active := none, state := 4#4, failed := w } }
  let s := if a.isAdapter then
      s.setAdapter a.req.adapter ((s.adapter a.req.adapter).setSt a.set adapterEmpty) else s
  let s := (s.endRequest a.req false).event 0x0B#16 (bytesLE w.toNat 8)
  if a.wrote then s.raiseError .jobFatal 0x6011#16 0#8 w else s

/-- The whole image has gone where it must: nothing is left to send down a chain or to let pass. -/
def State.imagePassed (s : State) (a : ActiveLoad) : Bool :=
  if a.source = 3 then a.passed || (a.manifest.checked && a.nshards == 0)
  else a.source != 1 || s.loader.downPort == 0xFF#8 || decide (a.nshards < a.sent)

/-- Every kept shard is written: the load is READY. -/
def State.loadReady (s : State) (a : ActiveLoad) : State :=
  let d := digest32 (a.buf.readBytes 0 a.manifestLen)
  let s : State :=
    if a.isAdapter then
      s.setAdapter a.req.adapter { (s.adapter a.req.adapter).setSt a.set adapterReady with fresh := true }
    else
      { s with loader := { s.loader with
          ready := some (a.req.form == 2#2, a.gen),
          digest0 := if a.set then s.loader.digest0 else d, digest1 := if a.set then d else s.loader.digest1 } }
  let s := { s with loader := { s.loader with state := 3#4 } }
  (s.setActive { a with ready := true }).endRequest a.req true

/-- The request leaves the loader once it is READY and the image has passed. -/
def State.closeLoad (s : State) : State :=
  match s.loader.active with
  | some a => if a.ready && s.imagePassed a then { s with loader := { s.loader with active := none } } else s
  | none => s

/-- READY is due when the manifest is checked and every kept shard is written. -/
def State.settleReady (s : State) : State :=
  match s.loader.active with
  | some a =>
    if a.manifest.checked && !a.ready && (s.keptShards a).all (fun i => (a.landing i).units == (a.shard i).units) then
      (s.loadReady a).closeLoad
    else s.closeLoad
  | none => s

/-- A descriptor of porter 13 of tower `t` has completed: its units are written. -/
def State.loaderWritten (s : State) (t : Nat) : State :=
  match s.loader.active with
  | none => s
  | some a =>
    match a.writing.find? fun w => w.2.1 == t with
    | none => s
    | some w =>
      let x := a.landing w.1
      let n := x.units + w.2.2
      let whole := n == (a.shard w.1).units
      let gone := whole && (a.source != 1 || s.loader.downPort == 0xFF#8 || decide (w.1 + 1 < a.sent))
      let a := { a.setLanding w.1 { x with units := n } with
        writing := a.writing.erase w, released := if gone then a.released + 512 * n else a.released }
      let s : State := { s with loader := { s.loader with
        shardsDone := if whole then s.loader.shardsDone + 1#28 else s.loader.shardsDone } }
      (s.setActive a).settleReady

/-! ### The manifest (R412, R413) -/

/-- The first check that the manifest fails: cause and shard. -/
def State.manifestFault (s : State) (a : ActiveLoad) : Option (Nat × Nat) :=
  let n := a.manifestLen
  let key := s.boot.weightKey.readBytes 0 1793
  let signed := !(s.boot.weightKey == []) && Config.falconVerify key (shake256 (a.buf.readBytes 0 n) 64)
    (a.buf.readBytes n (a.headLen - n))
  let kind : BitVec 8 := if a.isAdapter then 2#8 else 1#8
  if !signed then some (1, manifestShard)
  else if (a.wm 0).extractLsb' 32 32 ≠ 0x57474D46#32 ∨ (a.wm 0).extractLsb' 16 16 ≠ 1#16
      ∨ (a.wm 0).extractLsb' 8 8 ≠ kind ∨ n < a.tableAt + 64 * a.nshards then some (2, manifestShard)
  else if a.programDigest ≠ s.job.digest ∨ (a.wm 1).setWidth 32 ≠ s.ranks.jobSize then some (3, manifestShard)
  else ((s.keptShards a).find? fun i => (s.shardTarget a (a.shard i) 0).isNone).map fun i => (4, i)

/-! ### Ports of a pass-along chain (R422 to R424) -/

/-- Pass-along frames may be sent on a port now. -/
def State.mayPass (s : State) (p : Nat) : Bool :=
  decide (p < 32) && (s.port p).carriesJob
    && (s.job.placement != 1#8 || !(s.job.loadState == 5#8) || !(match s.job.stepRunning with
          | some (l, q) => decide (s.milestone - s.integ.jobOffset < l + ((SMap.get Shape.absent s.job.shapes q.toNat).se0.extractLsb' 0 32).toNat)
          | none => false) && s.desk.decided.all (·.done)
        && s.desk.latched.all fun l => decide (l.at_ < s.milestone - s.integ.jobOffset))

/-- Body of Table 15.5. -/
def passBody (ptype : BitVec 4) (shard chunk len : Nat) (data : List Byte) : BitVec 960 :=
  let w : W64 := ptype ++ BitVec.ofNat 28 shard ++ BitVec.ofNat 24 chunk ++ BitVec.ofNat 8 len
  BitVec.ofNat 960 (w.toNat + 2 ^ 64 * numLE data)

def State.sendPass (s : State) (p : Nat) (bodies : List (BitVec 960)) : State :=
  s.enqueue p (bodies.map fun b => { ownSingle s p clsColl (singleOf 6#8 0#16 0#16 b) with vc := false })

/-- The data frames of `bs`, from chunk `n` on; `fuel` bounds them. -/
def dataFrames (shard n : Nat) (bs : List Byte) : Nat → List (BitVec 960)
  | 0 => []
  | fuel + 1 =>
    if bs = [] then []
    else passBody 1#4 shard n (min 112 bs.length) (bs.take 112) :: dataFrames shard (n + 1) (bs.drop 112) fuel

/-! ### Flash reads (R415, R421) -/

/-- log2 of a namespace's logical block size. -/
def State.blockLog (s : State) (ctrl : Nat) (nsid : BitVec 32) : Nat := SMap.get 0 s.flash.lba (2 * nsid.toNat + ctrl)

/-- The controller is up and the namespace has blocks that the port accepts. -/
def State.flashReady (s : State) (ctrl : Nat) (nsid : BitVec 32) : Bool :=
  (SMap.get 0#32 s.flash.state ctrl).getLsbD 0 && (s.blockLog ctrl nsid == 9 || s.blockLog ctrl nsid == 12)

/-- Bytes of the largest Read (R415); MDTS 0 sets no limit. -/
def State.readLimit (s : State) (ctrl : Nat) : Nat :=
  let m := SMap.get 0 s.flash.mdts ctrl
  if m = 0 then 131072 else min 131072 m

/-- Issue Reads for the runs still wanted: at most 16 are outstanding, and the landing buffer has room. -/
def State.fillReads (s : State) (a : ActiveLoad) : Nat → ActiveLoad
  | 0 => a
  | fuel + 1 =>
    match a.want with
    | [] => a
    | w :: ws =>
      let n := min w.len (s.readLimit a.ctrl)
      if 16 ≤ a.reads.length ∨ landingBytes < a.held + (a.reads.map (·.len)).sum + n then a
      else
        let x := a.landing w.shard
        let a := a.setLanding w.shard { x with since := if x.since.isNone then some s.wall else x.since }
        s.fillReads { a with
          reads := a.reads ++ [{ w with len := n }],
          want := if n = w.len then ws else ⟨w.shard, w.at_ + n, w.len - n⟩ :: ws } fuel

/-! ### Failed attempts (R425) -/

/-- Flash may be tried: the source is flash, or the request names a namespace. -/
def State.flashTry (s : State) (a : ActiveLoad) : Bool :=
  s.flashReady a.ctrl a.nsid && (a.source == 1 || a.nsid != 0#32)

/-- Send a shard request if the peer's port may send now; otherwise the request waits. -/
def State.askPeer (s : State) (a : ActiveLoad) (i : Nat) : State :=
  let p := s.loader.peerPort.toNat
  let x := a.landing i
  if s.mayPass p then
    let d := digest32 (a.buf.readBytes 0 a.manifestLen)
    (s.setActive (a.setLanding i { x with asks := false, since := some s.wall })).sendPass p
      [passBody 2#4 i 0 0 (bytesLE d.toNat 8)]
  else s.setActive (a.setLanding i { x with asks := true, since := none })

/-- An attempt at a part has failed with a cause: the next source is tried, or the load fails. -/
def State.failAttempt (s : State) (a : ActiveLoad) (i cause : Nat) : State :=
  let x := { a.landing i with cause := cause, checked := false, asks := false }
  let (lo, hi) := a.part i
  let a := { a with
    got := cutRun lo hi a.got, reads := a.reads.filter fun r => r.shard != i,
    want := a.want.filter fun r => r.shard != i }
  if x.tried = 0 ∧ s.flashTry a then
    let a := a.setLanding i { x with tried := 1, since := some s.wall }
    let s : State := { s with loader := { s.loader with retries := s.loader.retries + 1#32 } }
    s.setActive (s.fillReads { a with want := ⟨i, lo, hi - lo⟩ :: a.want } 16)
  else if x.tried < 2 ∧ i ≠ manifestShard ∧ s.loader.peerPort ≠ 0xFF#8 then
    let s : State := { s with loader := { s.loader with peerFetches := s.loader.peerFetches + 1#32 } }
    s.askPeer (a.setLanding i { x with tried := 2 }) i
  else s.failLoad a cause i

/-! ### Bytes enter the landing buffer (R416) -/

/-- Once the manifest has been checked: what the loader still wants, and bytes of shards that it does not keep go. -/
def State.beginShards (s : State) (a : ActiveLoad) : ActiveLoad :=
  let all := a.source == 1 && s.loader.downPort != 0xFF#8
  let kept := s.keptShards a
  let wanted := if all then List.range a.nshards else kept
  let runs := wanted.map fun i => (⟨i, (a.shard i).at_, 512 * (a.shard i).units⟩ : ImageRun)
  let got := if a.source = 1 then a.got
    else a.got.flatMap fun r =>
      ((0, a.headLen) :: kept.map fun i => ((a.shard i).at_, (a.shard i).stop)).filterMap fun q =>
        if max r.1 q.1 < min r.2 q.2 then some (max r.1 q.1, min r.2 q.2) else none
  { a with
    manifest := { a.manifest with checked := true, since := none },
    got := got.foldl (fun m r => addRun r.1 r.2 m) [], want := if a.source = 1 then runs else [] }

/-- The part whose bytes come next from BULK or a chain: its time-out runs from now (R425). -/
def State.expectNext (s : State) (a : ActiveLoad) : ActiveLoad :=
  if a.source = 1 then a
  else
    match (s.keptShards a).find? fun i => !a.complete i with
    | some i =>
      let x := a.landing i
      if x.since.isNone && x.tried == 0 then a.setLanding i { x with since := some s.wall } else a
    | none => a

/-- After bytes have landed: the header tells the manifest's length, a whole manifest is checked, and the next Reads go
out. -/
def State.afterLanding (s : State) (a : ActiveLoad) : State :=
  if a.manifest.checked then s.setActive (s.fillReads (s.expectNext a) 16)
  else if a.haveManifest then
    match s.manifestFault a with
    | some f => s.failLoad a f.1 f.2
    | none =>
      let a := s.beginShards a
      let s : State := { s with loader := { s.loader with state := 2#4 } }
      (s.setActive (s.fillReads (s.expectNext a) 16)).settleReady
  else if a.haveHeader && a.reads == [] && a.want == [] && a.source == 1 then
    let have_ := (a.got.find? fun r => r.1 == 0).map (·.2)
    let n := have_.getD 0
    s.setActive (s.fillReads { a with want := [⟨manifestShard, n, a.headLen - n⟩] } 16)
  else s.setActive a

/-- Land `bs` at byte `at_` of the image, and count them. -/
def ActiveLoad.land (a : ActiveLoad) (at_ : Nat) (bs : List Byte) : ActiveLoad :=
  { a with buf := a.buf.writeBytes at_ bs, got := addRun at_ (at_ + bs.length) a.got }

def State.countLanded (s : State) (n : Nat) : State :=
  { s with loader := { s.loader with bytesLanded := s.loader.bytesLanded + BitVec.ofNat 64 n } }

end Sys2Proof.Machine
end

