-- ==== Sys2Proof/Machine/Matrix.lean ====
section
/-! DEFINITION. The matrix core (spec/03): the sequencer, weight loads, accumulation, drains and the
finished-tile queue. -/

namespace Sys2Proof.Machine

/-! ### Issue (R86 to R90) -/

/-- The command word at the core's command address (R86). -/
def State.mcFetch (s : State) (c : Nat) : W64 :=
  BitVec.ofNat 64 (s.pantryLE (mPantryKey c) (8 * (s.mcore c).pc) 8)

/-- The sequencer of core `c` issues command `i` next. -/
def State.mcIssues (s : State) (c : MCoreId) (i : Instr) : Bool :=
  let m := s.mcore c
  s.active && m.running && decide (m.hold = .free) && m.drainWait.isNone
    && decide (decodeMatrix c (s.mcFetch c) = i)

/-- Run a command of a matrix core that starts on beat `start`: on a disabled hall there is no core (R13); a command
that the sequencer does not issue on its beat does not occur (log row 7). -/
def mcRun (c : MCoreId) (i : Instr) (s : State) (start : Nat) (f : State → MCore → State) : Res :=
  if s.hallEnabled (c.val / 2) then
    if (s.toBeat (s.mcore c).nextIssue).mcIssues c i then
      .next (s.onBeat start fun s => f s (s.mcore c))
    else .next s
  else .fault .disabledHall

/-- R90: where the sequencer goes after a command, closing the loop bodies that end there. -/
def closeLoops (pc : Nat) : List LoopFrame → Nat × List LoopFrame
  | [] => (pc, [])
  | f :: fs =>
    if pc = f.stop then
      if 1 < f.remaining then (f.start, { f with remaining := f.remaining - 1 } :: fs) else closeLoops pc fs
    else (pc, f :: fs)

/-- Move past a command that started at `start` (R86, R90). -/
def MCore.advance (m : MCore) (start : Nat) : MCore :=
  let r := closeLoops (m.pc + 1) m.loops
  { m with pc := r.1, loops := r.2, nextIssue := start + 1,
           times := { m.times with busyUntil := max m.times.busyUntil (start + 1) } }

/-- Write the core back after a command that started on beat `start`. -/
def State.mcDone (s : State) (c : MCoreId) (start : Nat) (m : MCore) : State := s.setMcore c (m.advance start)

/-- First beat at which core `c` may issue. -/
def State.mcNext (s : State) (c : MCoreId) : Nat := (s.mcore c).nextIssue

/-- Tower of a matrix core, and its agent code (Table 5.7). -/
def mcTower (c : MCoreId) : Nat := c.val / 96
def mcAgent (c : MCoreId) : Nat := tileOf (c.val / 2) (c.val % 2)

/-! ### Address registers (R87) -/

def MCore.areg (m : MCore) (k : BitVec 3) : AddrReg := SMap.get AddrReg.zero m.ar k.toNat

/-- Step an address register whose increment bit is 1. -/
def MCore.stepAreg (m : MCore) (k : BitVec 3) (inc : Bool) : MCore :=
  if inc then
    let r := m.areg k
    { m with ar := SMap.set AddrReg.zero m.ar k.toNat { r with base := r.base + r.step.signExtend 24 } }
  else m

/-- R88: the Pantry byte address of a BASE. -/
def granuleByte (base : BitVec 24) : Nat := 32 * (base.toNat % 32768)

/-! ### Control commands -/

/-- NOP (R86). -/
def execMcNop (c : MCoreId) (s : State) : Res :=
  mcRun c (.mcNop c) s (s.mcNext c) fun s m => s.mcDone c m.nextIssue m

/-- END (R86): the sequencer stops; everything else keeps its contents. -/
def execMcEnd (c : MCoreId) (s : State) : Res :=
  mcRun c (.mcEnd c) s (s.mcNext c) fun s m => s.setMcore c { m with running := false }

/-- The frame that a LOOP whose COUNT is not 0 pushes, and the condition it meets (R89, R90). -/
def loopFrame (m : MCore) (a : LoopArgs) : LoopFrame × BitVec 8 :=
  let start := m.pc + 1
  if m.loops.length = 4 then (⟨start, start + a.body.toNat, 1⟩, bitCmdReserved)
  else (⟨start, start + a.body.toNat, a.count.toNat⟩, 0#8)

/-- LOOP (R89, R90). -/
def execMcLoop (c : MCoreId) (a : LoopArgs) (s : State) : Res :=
  mcRun c (.mcLoop c a) s (s.mcNext c) fun s m =>
    let m' := { m with nextIssue := m.nextIssue + 1 }
    if a.count = 0#24 then s.setMcore c { m' with pc := m.pc + 1 + a.body.toNat }
    else
      let r := loopFrame m a
      s.setMcore c ({ m' with pc := m.pc + 1, loops := r.1 :: m.loops }.flag r.2)

/-- A met WAIT on STEP_BELL was met by a launch: at a count of 0 it was not met (R260; DEDUCED, log row 8). -/
def State.launchWait (s : State) (bell : BitVec 13) (target : BitVec 48) : Bool :=
  s.job.stepBell == bell.setWidth 16 && s.job.launches != 0#64 && !bellMet 0#48 target

/-- The beat from which the 3 beats of R260 count, for a WAIT found met at issue beat `b`. -/
def State.launchMet (s : State) (b : Nat) : Nat := max s.job.lastLaunchBeat (b - 2)

/-- WAIT (R91): the wait register advances, then the sequencer is held until the bell meets it. -/
def execMcWait (c : MCoreId) (a : MWaitArgs) (s : State) : Res :=
  mcRun c (.mcWait c a) s (s.mcNext c) fun s m =>
    let b := m.nextIssue
    let target := SMap.get 0#48 m.wt a.wreg.toNat + a.step.setWidth 48
    let m := { m with wt := SMap.set 0#48 m.wt a.wreg.toNat target }
    let p := s.bell (mcTower c) a.bell.toNat
    if !p.ok then
      (s.setMcore c { m with hold := .bell a.bell target b none }).mismatch (mcTower c) 3 a.bell.toNat (mcAgent c)
    else if bellMet p.count target then
      if s.launchWait a.bell target then
        s.setMcore c { m with hold := .entry (s.job.lastShape.setWidth 4) (s.launchMet b) }
      else s.setMcore c (m.advance b)
    else s.setMcore c { m with hold := .bell a.bell target b none }

/-- Free core `c` of its hold and start the held command on beat `b`. -/
def State.mcResume (s : State) (c : MCoreId) (b : Nat) : State :=
  s.onBeat b fun s => s.mcDone c b { s.mcore c with hold := .free }

/-- A held WAIT whose bell has met its target starts 3 beats later, or at once where the bell met it on the beat of issue
(R91, R223). -/
def execMcWaitResume (c : MCoreId) (s : State) : Res :=
  if s.hallEnabled (c.val / 2) then
    match (s.mcore c).hold with
    | .bell _ _ since (some met) =>
      if s.active && (s.mcore c).running then .next (s.mcResume c (waitEnds since met)) else .next s
    | _ => .next s
  else .fault .disabledHall

/-- Where a matrix core resumes for a shape. -/
def State.entryOf (s : State) (core shape : Nat) : Nat := SMap.get 0 s.job.entries (16 * core + shape)

/-- R260 for a matrix core: resume at ENTRY, the loop stack emptied, the first command 3 beats after the
launch. -/
def State.resumeMatrix (s : State) (c : MCoreId) : State :=
  match (s.mcore c).hold with
  | .entry shape met =>
    if s.active && (s.mcore c).running then
      s.onBeat (met + 3) fun s => s.setMcore c { s.mcore c with
        hold := .free, loops := [], shape := shape, nextIssue := met + 3,
        pc := s.entryOf (mPantryKey c) shape.toNat }
    else s
  | _ => s

/-- SIGNAL (R92): its beat waits for the reads of earlier commands, and for the entries of earlier drains. -/
def execMcSignal (c : MCoreId) (a : MSignalArgs) (s : State) : Res :=
  mcRun c (.mcSignal c a) s (s.mcNext c) fun s m =>
    let b := m.nextIssue
    let q := s.queue c
    let mark := q.written + m.pieces.length
    let reads := max b m.times.readsDone
    let due := (if 0 < mark ∧ mark ≤ q.seen then max reads q.seenAt else reads) + 4
    s.mcDone c b (if a.inc = 0#16 then m else
      { m with signals := m.signals ++ [⟨a.bell, a.inc, due, mark⟩],
               times := { m.times with busyUntil := max m.times.busyUntil due } })

/-- The bell of the oldest SIGNAL changes, 4 beats after reads are done and drains visible (R92). -/
def execMcSignalBellChange (c : MCoreId) (s : State) : Res :=
  if s.hallEnabled (c.val / 2) then
    match (s.mcore c).signals with
    | g :: gs =>
      if s.active && decide (g.mark ≤ (s.queue c).seen) then
        .next (s.onBeat g.due fun s =>
          (s.setMcore c { s.mcore c with signals := gs }).addBell (mcTower c) g.bell.toNat g.inc.toNat (mcAgent c) 0)
      else .next s
    | [] => .next s
  else .fault .disabledHall

/-- SETA (R87). -/
def execMcSeta (c : MCoreId) (a : SetaArgs) (s : State) : Res :=
  mcRun c (.mcSeta c a) s (s.mcNext c) fun s m =>
    s.mcDone c m.nextIssue { m with ar := SMap.set AddrReg.zero m.ar a.areg.toNat ⟨a.base, a.step⟩ }

/-- SETW (R91). -/
def execMcSetw (c : MCoreId) (a : SetwArgs) (s : State) : Res :=
  mcRun c (.mcSetw c a) s (s.mcNext c) fun s m =>
    s.mcDone c m.nextIssue { m with wt := SMap.set 0#48 m.wt a.wreg.toNat a.value }

/-- SETR (Table 3.4, R89): a reserved selector changes no register. -/
def execMcSetr (c : MCoreId) (a : SetrArgs) (s : State) : Res :=
  mcRun c (.mcSetr c a) s (s.mcNext c) fun s m =>
    let m :=
      if a.sel = 0x01#8 then { m with streamTag := a.value }
      else if a.sel = 0x02#8 then { m with outBase := a.value }
      else if a.sel = 0x03#8 then { m with tileIndex := a.value }
      else m.flag bitCmdReserved
    s.mcDone c m.nextIssue m

/-- STATUS (R73, Table 3.4). -/
def execMcStatus (c : MCoreId) (clrmask : BitVec 8) (s : State) : Res :=
  mcRun c (.mcStatus c clrmask) s (s.mcNext c) fun s m => s.mcDone c m.nextIssue (m.unflag clrmask)

/-- A reserved opcode executes as NOP (R89). -/
def execMcReservedOpcode (c : MCoreId) (op : BitVec 6) (s : State) : Res :=
  mcRun c (.mcReservedOpcode c op) s (s.mcNext c) fun s m => s.mcDone c m.nextIssue (m.flag bitCmdReserved)

/-! ### Reads by the load and stream ports (Table 5.2, R143, R547) -/

/-- SETKEYS (R102, Table 3.11): the 512 B key map is in force for drains that start once it has been read. It waits for
nothing (R108). -/
def execMcSetkeys (c : MCoreId) (a : SetkeysArgs) (s : State) : Res :=
  mcRun c (.mcSetkeys c a) s (s.mcNext c) fun s m =>
    let start := m.nextIssue
    let base := granuleByte (m.areg a.areg).base
    let key := mPantryKey c
    let r := s.planActs rankOwn (start + 4) (start + 1) (.keys c)
      (pantryClaims (portLoad c) key 8 [(base / 32, start), (base / 32 + 8, start + 1)])
      [.read [.pantry key base 256], .read [.pantry key (base + 256) 256]] (.keys c)
    let m := (r.1.mcore c).stepAreg a.areg a.ainc
    r.1.mcDone c start { m with
      times := { m.times with
        loadFree := max m.times.loadFree (r.2.due - 2), readsDone := max m.times.readsDone r.2.last,
        busyUntil := max m.times.busyUntil r.2.due } }

/-! ### LOADW (R93 to R97, R158, Table 3.2) -/

/-- Row offsets of the element plane and of the scale plane of a Larder load, in turn (R95). -/
def loadwRows (m : MCore) (a : LoadwArgs) : List Nat :=
  let stride := if 1 < a.rstride.toNat then a.rstride.toNat else 1
  ((List.range (elemRows a.wfmt)).map fun k => (m.areg a.areg).base.toNat + k * stride)
    ++ (List.range (scaleRows a.wfmt)).map fun k => (m.areg a.sreg).base.toNat + k

/-- Pantry bytes at which the rows of a Pantry load begin, in turn. -/
def loadwBytes (m : MCore) (a : LoadwArgs) : List Nat :=
  ((List.range (elemRows a.wfmt)).map fun k => granuleByte (m.areg a.areg).base + 512 * k)
    ++ (List.range (scaleRows a.wfmt)).map fun k => granuleByte (m.areg a.sreg).base + 512 * k

/-- The beat a LOADW starts (R108 item 1). -/
def loadwStart (m : MCore) (a : LoadwArgs) : Nat :=
  max m.nextIssue (max m.times.loadFree (if a.slot then m.times.slotAcc1 else m.times.slotAcc0))

/-- After a load whose run is `r`: registers stepped, and the load path taken until `ahead` beats before the slot is ready
(Table 3.11). A register that is both AREG and SREG, with both increment bits 1, steps twice: spec/ does not say whether it
steps once or twice (DESIGN CHOICE, log row 116). -/
def MCore.loaded (m : MCore) (a : LoadwArgs) (r : Run) (ahead : Nat) : MCore :=
  let m := (m.stepAreg a.areg a.ainc).stepAreg a.sreg (a.sinc && Fmt.isMx a.wfmt)
  { m with times := { m.times with
      slotReady0 := if a.slot then m.times.slotReady0 else r.due,
      slotReady1 := if a.slot then r.due else m.times.slotReady1,
      loadFree := r.due - ahead, readsDone := max m.times.readsDone r.last,
      busyUntil := max m.times.busyUntil r.due } }

/-- Claims of a core's accesses to rows of a handle's region; a handle that the access faults on names no slice. -/
def State.rowClaims (s : State) (port h c k : Nat) (rows beats : List Nat) : List Claim :=
  let e := s.handle (hallTower h) k
  if e.ok && (s.coreHandleFault (hallTower h) (tileOf h c) e h rows).isNone then sliceClaims port (s.coreSlice h k) beats
  else chainClaims (beats.map fun b => ([port], b))

/-- Reads of rows of a handle's region by core `c` of hall `h`, all of them checked on the first access (R164). -/
def rowReads (h c k : Nat) (rows : List Nat) : List Act :=
  rows.zipIdx.map fun e => .read [.row h c k e.1 (if e.2 = 0 then rows else [])]

/-- LOADW: rows are read on their beats, and the last of them fills the slot (R97, R150); a handle access that fails a check
writes no slot and is raised (R94, R164). A format that the array does not accept sets no bit here: FORMAT_RESERVED is set
by the ACC that uses the slot, since spec/ does not say which of the two commands sets it (DESIGN CHOICE, log row 114). -/
def execMcLoadw (c : MCoreId) (a : LoadwArgs) (s : State) : Res :=
  mcRun c (.mcLoadw c a) s (loadwStart (s.mcore c) a) fun s m =>
    let f : Fmt := a.wfmt
    let start := loadwStart m a
    let n := elemRows f + scaleRows f
    if a.src then
      let rows := loadwRows m a
      let h := c.val / 2
      let xp := a.xpose && xposeFmt f
      let ahead := 12 + (if xp then 4 else 0)
      let r := s.planActs (rankCore (s.coreSlice h a.handle.toNat) (tileOf h (c.val % 2))) (start + n + ahead)
        (start + 3 + n) (.load c a.slot ahead)
        (s.rowClaims (portLarder c) h (c.val % 2) a.handle.toNat rows ((List.range n).map fun i => start + 4 + i))
        (rowReads h (c.val % 2) a.handle.toNat rows) (.slot c a.slot f xp (elemRows f))
      r.1.mcDone c start ((r.1.mcore c).loaded a r.2 ahead)
    else
      let at_ := loadwBytes m a
      let r := s.planActs rankOwn (start + n + 6) (start + 1 + n) (.load c a.slot 6)
        (pantryClaims (portLoad c) (mPantryKey c) 16 (at_.zipIdx.map fun e => (e.1 / 32, start + 2 + e.2)))
        (at_.map fun x => .read [.pantry (mPantryKey c) x 512]) (.slot c a.slot f false (elemRows f))
      r.1.mcDone c start ((r.1.mcore c).loaded a r.2 6)

/-! ### ACC (R74 to R84, R98, R99) -/

/-- R76, Table 3.1: the stream interval I; an operand the array does not accept counts as 8-bit (R543). -/
def streamInterval (w x : Fmt) : Nat :=
  if w.pair then (if x = 1#4 then 8 else if x.pair then 1 else 2)
  else if w = 1#4 ∨ x = 1#4 then 4 else 1

/-- Banks that an ACC against a slot of weight format `f` writes (R82). -/
def accBankList (a : AccArgs) (f : Fmt) : List Nat :=
  if a.orient && f.pair then [a.bank.toNat / 2 * 2, a.bank.toNat / 2 * 2 + 1] else [a.bank.toNat]

/-- The weight format of a slot's latest LOADW, which may still be under way. -/
def State.slotFmt (s : State) (c : MCoreId) (slot : Bool) : Fmt :=
  s.ld.runs.foldl (fun f r => match r.sink with
      | .slot c' slot' g _ _ => if r.pends && c' == c.val && slot' == slot then g else f
      | _ => f)
    (if slot then (s.mcore c).slot1.fmt else (s.mcore c).slot0.fmt)

/-- The beat an ACC starts (R108 items 2 and 4). -/
def accBegin (m : MCore) (a : AccArgs) (f : Fmt) : Nat :=
  let ready := if a.slot then m.times.slotReady1 else m.times.slotReady0
  let turn := match m.times.lastAcc with
    | some p => if p = (a.slot, a.orient) then m.times.arrayFree else m.times.arrayFree + 2
    | none => m.times.arrayFree
  (accBankList a f).foldl (fun b k => max b (SMap.get 0 m.times.bankRead k)) (max m.nextIssue (max ready turn))

/-- Places of the elements and the scales of activation vector `k` (R80, R543). -/
def accPlaces (m : MCore) (key : Nat) (a : AccArgs) (len k : Nat) : List Place :=
  let p := vecBytes a.afmt len
  .pantry key (granuleByte (m.areg a.areg).base + k * p) p ::
    if Fmt.isMx a.afmt then [.pantry key (granuleByte (m.areg a.sreg).base + k * (len / 32)) (len / 32)] else []

/-- Pantry banks that a place lies in (R142). -/
def Place.banks : Place → List Nat
  | .pantry key x n => banksOf key (x / 32 % (pantrySize key / 32)) (ceilDiv (x % 32 + n) 32)
  | .row _ _ _ _ _ => []
  | .logit _ _ _ => []

/-- ACC: vector by vector, on the beat on which the stream port reads its elements and scales (R150). -/
def execMcAcc (c : MCoreId) (a : AccArgs) (s : State) : Res :=
  mcRun c (.mcAcc c a) s (accBegin (s.mcore c) a (s.slotFmt c a.slot)) fun s m =>
    let t := if a.slot then m.slot1 else m.slot0
    let start := accBegin m a t.fmt
    let i := streamInterval t.fmt a.afmt
    let tail := 142 + (if a.clear && a.auto then 4 else 0)
    let vs := (List.range (accCount a)).map (accPlaces m (mPantryKey c) a (vecLen a.orient t))
    let r := s.planActs rankOwn (start + accCount a * i) (start + (accCount a - 1) * i)
      (.acc c (accBankList a t.fmt) tail)
      (chainClaims (vs.zipIdx.map fun e => (portStream c :: (e.1.flatMap Place.banks).eraseDups, start + e.2 * i)))
      (vs.map fun v => .read v) (.column c a [])
    let stop := r.2.due
    let m := ((r.1.mcore c).stepAreg a.areg a.ainc).stepAreg a.sreg (a.sinc && Fmt.isMx a.afmt)
    let m := m.flag (formatFlag (Fmt.arraySource t.fmt && Fmt.arraySource a.afmt))
    r.1.mcDone c start { m with
      times := { m.times with
        arrayFree := stop, lastAcc := some (a.slot, a.orient),
        slotAcc0 := if a.slot then m.times.slotAcc0 else stop,
        slotAcc1 := if a.slot then stop else m.times.slotAcc1,
        bankWritten := (accBankList a t.fmt).foldl (fun w k => SMap.set 0 w k (max (SMap.get 0 w k) (stop + tail)))
          m.times.bankWritten,
        readsDone := max m.times.readsDone r.2.last, busyUntil := max m.times.busyUntil (stop + tail) } }

/-! ### CLEAR and DRAIN (R85, R100 to R106) -/

/-- A cleared bank keeps nothing of what an ACC of core `c` still adds to it. -/
def Sink.clears (c k : Nat) : Sink → Sink
  | .column c' a dead => .column c' a (if c' = c then k :: dead else dead)
  | x => x

/-- CLEAR (R85, R108 item 4). -/
def execMcClear (c : MCoreId) (bank : BitVec 2) (s : State) : Res :=
  let k := bank.toNat
  let start := max (s.mcNext c) (SMap.get 0 (s.mcore c).times.bankRead k)
  mcRun c (.mcClear c bank) s start fun s m =>
    let s : State := { s with ld := { s.ld with runs := s.ld.runs.map fun r => { r with sink := r.sink.clears c k } } }
    s.mcDone c start { m with
      banks := clearBank m.banks k,
      times := { m.times with
        bankWritten := SMap.set 0 m.times.bankWritten k (max (SMap.get 0 m.times.bankWritten k) (start + 2)),
        busyUntil := max m.times.busyUntil (start + 2) } }

/-- The rows and columns that a drain converts, in order (R100). -/
def drainRows (a : DrainArgs) : List Nat :=
  (List.range (32 * (a.nrowq.toNat + 1))).map fun k => (32 * a.row0q.toNat + k) % 128
def drainCount (a : DrainArgs) : Nat := a.ncol.toNat + 1
def drainColumnOf (a : DrainArgs) (c : Nat) : Nat := (a.col0.toNat + c) % 128

/-- Element bytes and scale bytes of one column (R103). -/
def drainElemBytes (a : DrainArgs) : Nat :=
  if Fmt.reserved a.ofmt then 0 else 32 * (a.nrowq.toNat + 1) * Fmt.bits a.ofmt / 8
def drainScaleBytes (a : DrainArgs) : Nat := if Fmt.isMx a.ofmt then a.nrowq.toNat + 1 else 0
def drainColBytes (a : DrainArgs) : Nat := (drainElemBytes a) + (drainScaleBytes a)

/-- Beats per column, cpb of Table 3.10. -/
def drainCpb (a : DrainArgs) : Nat := max 1 (ceilDiv (drainColBytes a) 512)

/-- What a drain takes from the core when it starts (R102). -/
structure DrainKeys where
  outBase : BitVec 32
  tileIndex : BitVec 32
  streamTag : BitVec 32
  keys : SMap (BitVec 32)
  seed : W64
deriving DecidableEq, Repr

/-- R69, R102: the random value of element (row, column), 0 where the rounding uses none. -/
def DrainKeys.random (k : DrainKeys) (rnd : BitVec 2) (row col : Nat) : Nat :=
  if rnd = 2#2 then
    drainRandom k.seed (k.outBase + BitVec.ofNat 32 row) (SMap.get 0#32 k.keys col) k.streamTag 0#32
  else if rnd = 3#2 then
    drainRandom k.seed (BitVec.ofNat 32 (row * 128 + col)) k.tileIndex k.streamTag 0x80000000#32
  else 0

/-- The element codes, scale bytes and conditions of one drained column (R62 to R71, R101). -/
def drainColumn (banks : SMap Acc) (a : DrainArgs) (k : DrainKeys) (col : Nat) :
    List Nat × List Byte × BitVec 8 :=
  let el := fun row => SMap.get Acc.zero banks (bankKey a.bank.toNat row col)
  let sh := a.outShift.toInt
  if a.ofmt = 0xB#4 then ((drainRows a).map fun r => (el r).toRecord.toNat, [], 0#8)
  else if Fmt.isMx a.ofmt then
    (List.range (a.nrowq.toNat + 1)).foldl (fun acc g =>
      let rows := ((drainRows a).drop (32 * g)).take 32
      let vals := rows.map fun r => (el r).drainValue sh
      let b := mxBlock a.ofmt (vals.map Prod.fst) a.rnd (rows.map fun r => k.random a.rnd r col)
      (acc.1 ++ b.2.1, acc.2.1 ++ [b.1], acc.2.2 ||| b.2.2 ||| vals.foldl (fun c v => c ||| v.2) 0#8))
      ([], [], 0#8)
  else
    let vs := (drainRows a).map fun r => drainElem a.ofmt (el r) sh a.rnd (k.random a.rnd r col)
    (vs.map Prod.fst, [], vs.foldl (fun c v => c ||| v.2) 0#8)

/-- Elements packed little-endian into a plane (R45). -/
def packCodes (bits : Nat) : List Nat → Nat
  | [] => 0
  | w :: ws => w % 2 ^ bits + 2 ^ bits * packCodes bits ws

/-- An entry's payload: element plane padded to 32 B, then the scale plane, padded to 32 B (R104). -/
def entryPayload (a : DrainArgs) (cols : List (List Nat × List Byte × BitVec 8)) : Memory × Nat :=
  let codes := cols.flatMap fun c => c.1
  let eb := cols.length * (drainElemBytes a)
  let plane := bytesLE (packCodes (Fmt.bits a.ofmt) codes) eb
  let scales := cols.flatMap fun c => c.2.1
  let sat := roundUp eb 32
  (memOfBytes plane 0 ++ memOfBytes scales sat, roundUp (sat + scales.length) 32 / 32)

/-- Entry header (Table 3.8), STATUS left 0. -/
def entryHeader (a : DrainArgs) (last : Bool) (index col0 ncol len : Nat) : W64 :=
  a.tag ++ 0#6 ++ BitVec.ofBool last ++ BitVec.ofBool (last && a.last) ++ BitVec.ofNat 4 index ++ a.bank
    ++ a.ofmt ++ a.row0q ++ a.nrowq ++ BitVec.ofNat 7 col0 ++ BitVec.ofNat 7 (ncol - 1) ++ BitVec.ofNat 12 len

/-- Columns per entry (R103). -/
def drainPerEntry (a : DrainArgs) : Nat := max 1 (32768 / max 1 (drainColBytes a))

/-- Beats that stochastic rounding adds (Table 3.11); a drain to the ACC record rounds nothing (R63). -/
def drainExtra (a : DrainArgs) : Nat := if 2 ≤ a.rnd.toNat ∧ a.ofmt ≠ 0xB#4 then 6 else 0

/-- The entries of a drain that starts at `start`, from column index `c0` on; `fuel` bounds their number, and `addr` is the
drain's command address. -/
def drainPieces (banks : SMap Acc) (a : DrainArgs) (k : DrainKeys) (start addr : Nat) :
    Nat → Nat → Nat → List DrainPiece
  | 0, _, _ => []
  | fuel + 1, index, c0 =>
    if (drainCount a) ≤ c0 then []
    else
      let n := min (drainPerEntry a) ((drainCount a) - c0)
      let cols := (List.range n).map fun c => drainColumn banks a k (drainColumnOf a (c0 + c))
      let last := decide ((drainCount a) ≤ c0 + n)
      let pl := entryPayload a cols
      let due := start + 8 + (c0 + n) * (drainCpb a) + drainExtra a
      ⟨entryHeader a last index (drainColumnOf a c0) n pl.2, pl.1, cols.foldl (fun st c => st ||| c.2.2) 0#8,
        due + 1 - n * drainCpb a, due, last && a.stclr, addr⟩ ::
          drainPieces banks a k start addr fuel (index + 1) (c0 + n)

/-- The elements a drain has read, cleared where CLR = 1 (R100). -/
def drainCleared (banks : SMap Acc) (a : DrainArgs) : SMap Acc :=
  if a.clr then
    (List.range (drainCount a)).foldl (fun b c =>
      (drainRows a).foldl (fun b r => SMap.erase b (bankKey a.bank.toNat r (drainColumnOf a c))) b) banks
  else banks

/-- The column-key map in force for a drain that starts at `start` (Table 3.11). -/
def MCore.keysAt (m : MCore) (start : Nat) : SMap (BitVec 32) :=
  (m.keysNext.foldl (fun b e => if e.1 ≤ start then e.2 else b) m.keys)

/-- The beat a DRAIN starts (R108 item 3). -/
def drainStart (m : MCore) (a : DrainArgs) : Nat :=
  max m.nextIssue (max m.times.drainFree (SMap.get 0 m.times.bankWritten a.bank.toNat))

/-- DRAIN: the bank is converted when the drain starts; its entries are written one by one, each on the beat
of its last byte (R103, R105). A reserved target writes nothing and sets FORMAT_RESERVED (R38); STCLR then clears nothing,
as no last entry is written (Table 3.7; DESIGN CHOICE, log row 115). -/
def execMcDrain (c : MCoreId) (a : DrainArgs) (s : State) : Res :=
  mcRun c (.mcDrain c a) s (drainStart (s.mcore c) a) fun s m =>
    let start := drainStart m a
    let keys := m.keysAt start
    let k : DrainKeys := ⟨m.outBase, m.tileIndex, m.streamTag, keys, s.job.seed⟩
    let occ := (drainCount a) * (drainCpb a)
    let pieces := if Fmt.reserved a.ofmt then [] else drainPieces m.banks a k start m.pc 128 0 0
    let m := m.flag (formatFlag !(Fmt.reserved a.ofmt))
    let seen := start + 10 + occ + drainExtra a
    s.mcDone c start { m with
      keys := keys, keysNext := m.keysNext.filter fun e => decide (start < e.1),
      banks := drainCleared m.banks a, pieces := m.pieces ++ pieces,
      times := { m.times with
        drainFree := start + occ, bankRead := SMap.set 0 m.times.bankRead a.bank.toNat (start + occ),
        readsDone := max m.times.readsDone (start + occ), busyUntil := max m.times.busyUntil seen } }

/-- R464: the Ledger term of a written entry. -/
def ledgerTerm (hdr : W64) (payload : Memory) (lhall core : Nat) : W64 :=
  let len := 32 * (hdr.extractLsb' 0 12).toNat
  let t := lhall * 2 ^ 13 + core * 2 ^ 12 + (hdr.extractLsb' 36 4).toNat * 2 ^ 8 + (hdr.extractLsb' 48 8).toNat
  crc64 (bytesLE hdr.toNat 8 ++ payload.readBytes 0 len) ^^^ BitVec.ofNat 64 (t * 0x9E3779B97F4A7C15)

/-- Add an entry's term to its layer's accumulator; layer 0xFF adds nothing (R464). -/
def State.ledgerAdd (s : State) (c : Nat) (hdr : W64) (payload : Memory) : State :=
  let layer := (hdr.extractLsb' 56 8).toNat
  if layer = 255 then s
  else
    let t := ledgerTerm hdr payload ((s.logicalHall (c / 2)).getD 0) (c % 2)
    { s with integ := { s.integ with
        ledgerAcc := SMap.modify 0#64 s.integ.ledgerAcc layer (· + t),
        ledgerTouched := if s.integ.ledgerTouched.contains layer then s.integ.ledgerTouched
          else s.integ.ledgerTouched ++ [layer] } }

/-- Write the oldest converted entry of core `c` at beat `b`: its header carries the status word after its
elements are converted (Table 3.8). -/
def State.writePiece (s : State) (c : MCoreId) (p : DrainPiece) (rest : List DrainPiece) (b : Nat) : State :=
  let m := (s.mcore c).flag p.conds
  let hdr := p.hdr ||| ((m.status.extractLsb' 0 6).setWidth 64 <<< 42)
  let m := { m with pieces := rest, status := if p.stclr then 0#8 else m.status }
  let q := s.queue c
  ((s.setMcore c m).setQueue c { q with entries := q.entries ++ [⟨hdr, p.payload, b⟩], written := q.written + 1 }).ledgerAdd
    c hdr p.payload

/-- A SIGNAL whose last awaited entry is number `n` of the queue waits for the beat it becomes visible (R92). -/
def PendSignal.seen (n at_ : Nat) (g : PendSignal) : PendSignal :=
  if g.mark = n then { g with due := max g.due (at_ + 4) } else g

/-- The oldest written and unseen entry becomes visible (R105). -/
def State.seeEntry (s : State) (c : MCoreId) (at_ : Nat) : State :=
  let q := s.queue c
  let m := s.mcore c
  (s.setMcore c { m with signals := m.signals.map (PendSignal.seen (q.seen + 1) at_) }).setQueue c
    { q with seen := q.seen + 1, seenAt := at_ }

/-- Entries written and not released on beat `b`. -/
def Ftq.standing (q : Ftq) (b : Nat) : Nat := q.entries.length + (q.releases.filter fun r => decide (b < r)).length

/-- On beat `b` the drain that finds the queue full waits (trusting mode), or the error is raised, which names the drain's
command address (guarded mode) (R106). -/
def State.drainFull (s : State) (c : MCoreId) (p : DrainPiece) : State :=
  if s.guarded then s.guardRaiseAt 4 (mcTower c) (mcAgent c) p.addr
  else s.setMcore c { s.mcore c with drainWait := some p.first }

/-- An entry becomes visible 2 beats after its last byte is written (R105). The entry is written only where fewer than
eight stand in the queue on the beat of its first byte. -/
def execFtqEntryVisible (c : MCoreId) (s : State) : Res :=
  if s.hallEnabled (c.val / 2) then
    if s.active then
      let q := s.queue c
      let m := s.mcore c
      if q.seen < q.written then
        let at_ := ((q.entries[q.seen - q.released]?).map (·.writtenAt)).getD 0 + 2
        .next (s.onBeat at_ fun s => s.seeEntry c at_)
      else
        match m.pieces, m.drainWait with
        | p :: rest, none =>
          if q.standing p.first < 8 then
            .next (s.onBeat p.due fun s =>
              (s.writePiece c p rest p.due).onBeat (p.due + 2) fun s => s.seeEntry c (p.due + 2))
          else .next (s.onBeat p.first fun s => s.drainFull c p)
        | _, _ => .next s
    else .next s
  else .fault .disabledHall

/-- A beat after `since` falls `late` beats later. -/
def later (since late b : Nat) : Nat := if since < b then b + late else b

/-- A wait of `late` beats that began on `since` delays everything after it in the core, after `written` entries (R106). -/
def MCore.waited (m : MCore) (written since late : Nat) : MCore :=
  { m.flag bitFtqWait with
    drainWait := none, waitCount := m.waitCount + late, nextIssue := max m.nextIssue (since + late),
    pieces := m.pieces.map fun p => { p with first := p.first + late, due := p.due + late },
    signals := m.signals.map fun g => if written < g.mark then { g with due := later (since + 4) late g.due } else g,
    times := { m.times with
      drainFree := later since late m.times.drainFree,
      bankRead := m.times.bankRead.map fun e => (e.1, later since late e.2),
      readsDone := later since late m.times.readsDone, busyUntil := later since late m.times.busyUntil } }

/-- A drain that waits goes on once the vector core has released an entry (R106). -/
def execDrainQueueResume (c : MCoreId) (s : State) : Res :=
  if s.hallEnabled (c.val / 2) then
    match (s.mcore c).drainWait with
    | some since =>
      match ((s.queue c).releases.filter fun r => decide (since < r)).getLast? with
      | some now =>
        if s.active then
          .next (s.onBeat now fun s => s.setMcore c ((s.mcore c).waited (s.queue c).written since (now - since)))
        else .next s
      | none => .next s
    | none => .next s
  else .fault .disabledHall

end Sys2Proof.Machine
end

