-- ==== Sys2Proof/Machine/Transc.lean ====
section
/-! DEFINITION. EXP2, LOG2, RCP, RSQRT, TANH and SIGM, bit for bit (R125). -/

namespace Sys2Proof.Machine

/-- floor (ln 2 × 2^64). -/
def ln2Fix : Nat := 0xB17217F7D1CF79AB

/-- Integer square root by bits: the largest `r` below `2^n` above `r0` with `r^2 ≤ x`. -/
def isqrtBits (x : Nat) : Nat → Nat → Nat
  | 0, r => r
  | n + 1, r => isqrtBits x n (if (r + 2 ^ n) * (r + 2 ^ n) ≤ x then r + 2 ^ n else r)

/-- exp_fix of R125: `e^(y / 2^64) * 2^64` for `0 ≤ y < 2^64`. -/
def expFix (y : Nat) : Nat :=
  ((List.range 23).foldl (fun p i =>
    let t := p.1 * y / ((i + 1) * 2 ^ 64)
    (t, p.2 + t)) ((2 ^ 64 : Nat), (2 ^ 64 : Nat))).2

/-- fix64 of R125. -/
def fix64 (m : Nat) (e : Int) : Nat :=
  if -64 ≤ e then m * 2 ^ (e + 64).toNat else m / 2 ^ (-(e + 64)).toNat

/-- Place of the leading bit of a finite non-zero FP32 value. -/
def lead32 (a : W32) : Int := (leadBit (mag32 a) : Int) + exp32 a

def exp2of (a : W32) : W32 :=
  if isNaN32 a then nan32
  else if isZero32 a then 0x3F800000#32
  else if isInf32 a || decide (8 ≤ lead32 a) then (if neg32 a then 0#32 else inf32)
  else
    let f : Int := fix64 (mag32 a) (exp32 a)
    let v := if neg32 a then -f else f
    let n := v / 2 ^ 64
    rne32 false (expFix ((v - n * 2 ^ 64).toNat * ln2Fix / 2 ^ 64)) (n - 64)

def log2of (a : W32) : W32 :=
  if isNaN32 a || (neg32 a && !isZero32 a) then nan32
  else if isZero32 a then 0xFF800000#32
  else if isInf32 a then inf32
  else
    let up := 23 - leadBit (mag32 a)
    let m := mag32 a * 2 ^ up
    let e := exp32 a - up
    let z := (m - 2 ^ 23) * 2 ^ 64 / (m + 2 ^ 23)
    let z2 := z * z / 2 ^ 64
    let total := ((List.range 24).foldl (fun p k => (p.1 * z2 / 2 ^ 64, p.2 + p.1 / (2 * k + 1)))
      (z, (0 : Nat))).2
    let v : Int := (e + 23) * 2 ^ 64 + ((2 * total * 2 ^ 64 / ln2Fix : Nat) : Int)
    rne32 (decide (v < 0)) v.natAbs (-64)

def rcpOf (a : W32) : W32 :=
  if isNaN32 a then nan32
  else if isZero32 a then signed32 (neg32 a) inf32
  else if isInf32 a then signed32 (neg32 a) 0#32
  else
    let q := 2 ^ 80 / mag32 a
    let r := 2 ^ 80 % mag32 a
    rne32 (neg32 a) (2 * q + (if r = 0 then 0 else 1)) (-81 - exp32 a)

def rsqrtOf (a : W32) : W32 :=
  if isNaN32 a || (neg32 a && !isZero32 a) then nan32
  else if isZero32 a then signed32 (neg32 a) inf32
  else if isInf32 a then 0#32
  else
    let odd := exp32 a % 2 = 1
    let m := if odd then 2 * mag32 a else mag32 a
    let e := if odd then exp32 a - 1 else exp32 a
    let y := isqrtBits (2 ^ 120 / m) 64 0
    rne32 false (2 * y + (if y * y * m = 2 ^ 120 then 0 else 1)) (-61 - e / 2)

def tanhOf (a : W32) : W32 :=
  if isNaN32 a then nan32
  else if isZero32 a then a
  else if isInf32 a || decide (4 ≤ lead32 a) then signed32 (neg32 a) 0x3F800000#32
  else if lead32 a < -32 then a
  else
    let w := mag32 a * 2 ^ (exp32 a + 129).toNat
    let big := ((List.range 158).foldl (fun p i =>
      let t := p.1 * w / ((i + 2) * 2 ^ 128)
      (t, p.2 + t)) (w, w)).2
    let q := big * 2 ^ 96 / (big + 2 * 2 ^ 128)
    let r := big * 2 ^ 96 % (big + 2 * 2 ^ 128)
    rne32 (neg32 a) (2 * q + (if r = 0 then 0 else 1)) (-97)

def sigmOf (a : W32) : W32 :=
  if isNaN32 a then nan32
  else if isZero32 a then 0x3F000000#32
  else if isInf32 a || decide (8 ≤ lead32 a) then (if neg32 a then 0#32 else 0x3F800000#32)
  else
    let v : Int := -((fix64 (mag32 a) (exp32 a) * 2 ^ 64 / ln2Fix : Nat) : Int)
    let n := v / 2 ^ 64
    let p := expFix ((v - n * 2 ^ 64).toNat * ln2Fix / 2 ^ 64)
    let d := 2 ^ (64 - n).toNat + p
    if neg32 a then
      let x := p * 2 ^ (96 - n).toNat
      rne32 false (2 * (x / d) + (if x % d = 0 then 0 else 1)) (n - 97)
    else
      let x := 2 ^ (160 - n).toNat
      rne32 false (2 * (x / d) + (if x % d = 0 then 0 else 1)) (-97)

end Sys2Proof.Machine
end

