-- ==== Sys2Proof/Machine/Vector.lean ====
section
/-! DEFINITION. The vector core's issue rule (R112 to R117) and every instruction whose effect lies in its own
registers: scalar, integer, logic, moves, predicates, FP32, conversions, MX blocks, transcendentals and exact
sums (R118 to R131). -/

namespace Sys2Proof.Machine

/-! ### Issue (R112 to R115) -/

/-- The instruction word at the core's word address. -/
def State.vcFetch (s : State) (h : Nat) : W64 :=
  BitVec.ofNat 64 (s.pantryLE (vPantryKey h) (8 * (s.vcore h).pc.toNat) 8)

/-- The vector core of hall `h` issues instruction `i` next. -/
def State.vcIssues (s : State) (h : HallId) (i : Instr) : Bool :=
  let v := s.vcore h
  s.active && v.running && decide (v.hold = .free) && decide (decodeVector h (s.vcFetch h) = i)

/-- What R114 needs of an instruction: its unit, the registers it reads and writes, its latency and interval,
and whether it is one of XADD, XMAC and XREC (R115). -/
structure VTiming where
  unit : Nat
  srcs : List Nat
  dsts : List Nat
  lat : Nat
  ivl : Nat
  acc : Bool
deriving DecidableEq, Repr

/-- Units of Table 4.3. -/
def unitA : Nat := 0
def unitF : Nat := 1
def unitT : Nat := 2
def unitL : Nat := 3
def unitX : Nat := 4
def unitS : Nat := 5
def unitC : Nat := 6

/-- Scoreboard keys of the registers. -/
def vKey (k : BitVec 6) : Nat := k.toNat
def sKey (k : BitVec 5) : Nat := 64 + k.toNat
def pKey (k : BitVec 3) : Nat := 96 + k.toNat
def esKey (k : BitVec 3) : Nat := 104 + k.toNat
def markKey : Nat := 112

/-- The first beat that meets conditions 1 to 3 of R114, with R115. -/
def vcBeat (v : VCore) (t : VTiming) : Nat :=
  let b := max v.nextIssue (SMap.get 0 v.times.unitFree t.unit)
  let b := t.srcs.foldl (fun b r => max b (SMap.get 0 v.times.ready r)) b
  t.dsts.foldl (fun b r =>
    if t.acc then max b (SMap.get 0 v.times.readyClr r)
    else max b (SMap.get 0 v.times.ready r + 1 - t.lat)) b

/-- s0 and p0 have no writer (R111). -/
def realDst (r : Nat) : Bool := r != 64 && r != 96

/-- The scoreboard after an issue at beat `b` whose result is written at `landing`. -/
def VCore.note (v : VCore) (t : VTiming) (b landing : Nat) : VCore :=
  let ds := t.dsts.filter realDst
  { v with nextIssue := b + 1, times := { v.times with
      unitFree := SMap.set 0 v.times.unitFree t.unit (b + t.ivl),
      ready := ds.foldl (fun m r => SMap.set 0 m r (max landing (SMap.get 0 m r))) v.times.ready,
      readyClr := if t.acc then v.times.readyClr
        else ds.foldl (fun m r => SMap.set 0 m r landing) v.times.readyClr,
      readsDone := max v.times.readsDone b,
      busyUntil := max v.times.busyUntil (max (b + 1) landing) } }

/-- Past an instruction: the next word, and the scoreboard. -/
def VCore.retire (v : VCore) (t : VTiming) (b landing : Nat) : VCore :=
  { (v.note t b landing) with pc := v.pc + 1 }

/-- Run an instruction of a vector core on its issue beat. A disabled hall has no core (R13); an instruction that the core
does not issue then does not occur (log row 7). `f` takes the core and the issue beat. -/
def vcRun (h : HallId) (i : Instr) (t : VTiming) (s : State) (f : State → VCore → Nat → State) : Res :=
  if s.hallEnabled h.val then
    let b := vcBeat (s.vcore h) t
    if (s.toBeat b).vcIssues h i then .next (f (s.toBeat b) ((s.toBeat b).vcore h) b) else .next s
  else .fault .disabledHall

/-- A register that an instruction writes keeps that write: what a load or PSEND of hall `h` still brings to it came before
(R114). `mask` names the lanes written. -/
def Sink.overtaken (h : Nat) (dsts : List Nat) (mask : BitVec 6 → BitVec 256) : Sink → Sink
  | .scalar g sd => .scalar g (if g = h ∧ dsts.contains (sKey sd) then 0#5 else sd)
  | .send g gr sd st => .send g gr (if g = h ∧ dsts.contains (sKey sd) then 0#5 else sd) st
  | .lanes g vd take wipe =>
    if g = h ∧ dsts.contains (vKey vd) then .lanes g vd (take &&& ~~~mask vd) (wipe &&& ~~~mask vd)
    else .lanes g vd take wipe
  | x => x

/-- The lanes of `vd` that an instruction writes: those whose new value does not hang on the old one. -/
def writtenLanes (v : VCore) (f : VCore → VCore) (vd : BitVec 6) : BitVec 256 :=
  let x := (f v).vreg vd
  let y := (f (v.setV vd (~~~v.vreg vd))).vreg vd
  predOf fun k => lane x k == lane y k

def State.overtake (s : State) (h : HallId) (dsts : List Nat) (v : VCore) (f : VCore → VCore) : State :=
  { s with ld := { s.ld with runs := s.ld.runs.map fun r =>
      { r with sink := r.sink.overtaken h dsts (writtenLanes v f) } } }

/-- An instruction whose effect lies in its own core. A condition's status bit is set on the issue beat, so that a STATUS of the
next beat reads it: spec/ gives no beat (DESIGN CHOICE, log row 121). -/
def vcReg (h : HallId) (i : Instr) (t : VTiming) (s : State) (f : VCore → VCore) : Res :=
  vcRun h i t s fun s v b => (s.overtake h t.dsts v f).setVcore h ((f v).retire t b (b + t.lat))

/-! ### Timing records of the formats -/

/-- A unit-A or unit-F instruction on vector registers. Issue does not wait for the old value of a destination that it merges
into (VD with ZERO = 0, VSETL, CVTF8): Table 4.3 names no such source, where SLIH's SD is one (DESIGN CHOICE, log row 117). -/
def timeR (unit : Nat) (a : RArgs) (srcs : List (BitVec 6)) (lat ivl : Nat) : VTiming :=
  ⟨unit, pKey a.pred :: srcs.map vKey, [vKey a.vd], lat, ivl, false⟩

/-- A scalar instruction. -/
def timeS (a : SArgs) (lat : Nat) : VTiming :=
  ⟨unitS, sKey a.sa :: (if a.uimm then [] else [sKey a.sb]), [sKey a.sd], lat, 1, false⟩

/-! ### NOP, reserved opcodes and branches (R113, R116) -/

/-- NOP. -/
def execVcNop (h : HallId) (s : State) : Res :=
  vcReg h (.vcNop h) ⟨unitS, [], [], 1, 1, false⟩ s id

/-- A reserved opcode executes as NOP and sets INS_RESERVED (R113). -/
def execVcReservedOpcode (h : HallId) (op : BitVec 8) (s : State) : Res :=
  vcReg h (.vcReservedOpcode h op) ⟨unitS, [], [], 1, 1, false⟩ s fun v => v.flag bitInsReserved

/-- BR's conditions (Table 4.2); `none` is reserved. -/
def brTaken (cond : BitVec 4) (x y : W64) : Option Bool :=
  match cond.toNat with
  | 0 => some true
  | 1 => some (decide (x = y))
  | 2 => some (decide (x ≠ y))
  | 3 => some (decide (x.toInt < y.toInt))
  | 4 => some (decide (y.toInt ≤ x.toInt))
  | 5 => some (decide (x.toNat < y.toNat))
  | 6 => some (decide (y.toNat ≤ x.toNat))
  | _ => none

/-- BRP's conditions. -/
def brpTaken (cond : BitVec 4) (p : BitVec 256) : Option Bool :=
  match cond.toNat with
  | 0 => some (decide (p ≠ 0#256))
  | 1 => some (decide (p = 0#256))
  | 2 => some (decide (p = BitVec.allOnes 256))
  | _ => none

/-- A branch: a taken one issues its target 3 beats later; a reserved condition is not taken (R113, R116). -/
def VCore.branch (v : VCore) (t : VTiming) (b : Nat) (taken : Option Bool) (offset : BitVec 24) : VCore :=
  match taken with
  | some true =>
    { (v.note t b (b + 1)) with pc := v.pc + offset.setWidth 16, nextIssue := b + 3 }
  | some false => v.retire t b (b + 1)
  | none => (v.flag bitInsReserved).retire t b (b + 1)

/-- BR. -/
def execBr (h : HallId) (a : BArgs) (s : State) : Res :=
  let t : VTiming := ⟨unitS, [sKey a.sa, sKey a.sb], [], 1, 1, false⟩
  vcRun h (.br h a) t s fun s v b =>
    s.setVcore h (v.branch t b (brTaken a.cond (v.sreg a.sa) (v.sreg a.sb)) a.offset)

/-- BRP: the low 3 bits of SB name the predicate. -/
def execBrp (h : HallId) (a : BArgs) (s : State) : Res :=
  let p : BitVec 3 := a.sb.setWidth 3
  let t : VTiming := ⟨unitS, [pKey p], [], 1, 1, false⟩
  vcRun h (.brp h a) t s fun s v b =>
    s.setVcore h (v.branch t b (brpTaken a.cond (v.preg p)) a.offset)

/-! ### Scalar unit (Table 4.3) -/

/-- The second scalar operand (UIMM). -/
def VCore.sop2 (v : VCore) (a : SArgs) : W64 := if a.uimm then a.imm.signExtend 64 else v.sreg a.sb

/-- SADD: 64-bit add, wrapping. -/
def execSadd (h : HallId) (a : SArgs) (s : State) : Res :=
  vcReg h (.sadd h a) (timeS a 1) s fun v => v.setS a.sd (v.sreg a.sa + v.sop2 a)

/-- SSUB: 64-bit subtract, wrapping. -/
def execSsub (h : HallId) (a : SArgs) (s : State) : Res :=
  vcReg h (.ssub h a) (timeS a 1) s fun v => v.setS a.sd (v.sreg a.sa - v.sop2 a)

/-- SAND: bitwise AND. -/
def execSand (h : HallId) (a : SArgs) (s : State) : Res :=
  vcReg h (.sand h a) (timeS a 1) s fun v => v.setS a.sd (v.sreg a.sa &&& v.sop2 a)

/-- SOR: bitwise OR. -/
def execSor (h : HallId) (a : SArgs) (s : State) : Res :=
  vcReg h (.sor h a) (timeS a 1) s fun v => v.setS a.sd (v.sreg a.sa ||| v.sop2 a)

/-- SXOR: bitwise XOR. -/
def execSxor (h : HallId) (a : SArgs) (s : State) : Res :=
  vcReg h (.sxor h a) (timeS a 1) s fun v => v.setS a.sd (v.sreg a.sa ^^^ v.sop2 a)

/-- SSHL: shift left, amount mod 64. -/
def execSshl (h : HallId) (a : SArgs) (s : State) : Res :=
  vcReg h (.sshl h a) (timeS a 1) s fun v => v.setS a.sd (v.sreg a.sa <<< ((v.sop2 a).toNat % 64))

/-- SSHR: logical shift right, amount mod 64. -/
def execSshr (h : HallId) (a : SArgs) (s : State) : Res :=
  vcReg h (.sshr h a) (timeS a 1) s fun v => v.setS a.sd (v.sreg a.sa >>> ((v.sop2 a).toNat % 64))

/-- SSRA: arithmetic shift right, amount mod 64. -/
def execSsra (h : HallId) (a : SArgs) (s : State) : Res :=
  vcReg h (.ssra h a) (timeS a 1) s fun v => v.setS a.sd ((v.sreg a.sa).sshiftRight ((v.sop2 a).toNat % 64))

/-- SMUL: low 64 bits of the product. -/
def execSmul (h : HallId) (a : SArgs) (s : State) : Res :=
  vcReg h (.smul h a) (timeS a 3) s fun v => v.setS a.sd (v.sreg a.sa * v.sop2 a)

/-- SLI: the immediate, sign-extended. -/
def execSli (h : HallId) (a : SArgs) (s : State) : Res :=
  vcReg h (.sli h a) ⟨unitS, [], [sKey a.sd], 1, 1, false⟩ s fun v => v.setS a.sd (a.imm.signExtend 64)

/-- SLIH: SD[63:32] ← IMM. -/
def execSlih (h : HallId) (a : SArgs) (s : State) : Res :=
  vcReg h (.slih h a) ⟨unitS, [sKey a.sd], [sKey a.sd], 1, 1, false⟩ s fun v =>
    v.setS a.sd (a.imm ++ (v.sreg a.sd).setWidth 32)

/-! ### Integer elements (R119) -/

/-- A two-source integer instruction on elements of the FORM's width. -/
def vcInt (h : HallId) (i : Instr) (a : RArgs) (lat : Nat) (op : Nat → Nat → Nat → Nat) (s : State) : Res :=
  vcReg h i (timeR unitA a [a.va, a.vb] lat 1) s fun v =>
    let x := v.vreg a.va
    let y := v.vreg a.vb
    let w := formWidth a.form
    (v.writeLanes a.vd a.pred a.zero fun k => packedLane w (op w) (lane x k) (lane y k)).flag
      (formFlag false a.form)

/-- An integer as a `w`-bit element. -/
def toElem (w : Nat) (i : Int) : Nat := (i % 2 ^ w).toNat

def satSigned (w : Nat) (i : Int) : Nat := toElem w (clampInt (-2 ^ (w - 1)) (2 ^ (w - 1) - 1) i)
def satUnsigned (w : Nat) (i : Int) : Nat := toElem w (clampInt 0 (2 ^ w - 1) i)

def opIadd (w x y : Nat) : Nat := (x + y) % 2 ^ w
def opIadds (w x y : Nat) : Nat := satSigned w (signedOf w x + signedOf w y)
def opIaddu (w x y : Nat) : Nat := satUnsigned w ((x : Int) + y)
def opIsub (w x y : Nat) : Nat := toElem w ((x : Int) - y)
def opIsubs (w x y : Nat) : Nat := satSigned w (signedOf w x - signedOf w y)
def opIsubu (w x y : Nat) : Nat := satUnsigned w ((x : Int) - y)
def opImul (w x y : Nat) : Nat := x * y % 2 ^ w
def opImulh (w x y : Nat) : Nat := toElem w (signedOf w x * signedOf w y / 2 ^ w)

/-- Order key of an element: unsigned where MOD says so. -/
def elemKey (unsigned : Bool) (w x : Nat) : Int := if unsigned then x else signedOf w x

def opImin (unsigned : Bool) (w x y : Nat) : Nat := if elemKey unsigned w x ≤ elemKey unsigned w y then x else y
def opImax (unsigned : Bool) (w x y : Nat) : Nat := if elemKey unsigned w y ≤ elemKey unsigned w x then x else y
def opIshl (w x y : Nat) : Nat := x * 2 ^ (y % w) % 2 ^ w
def opIshr (w x y : Nat) : Nat := x / 2 ^ (y % w)
def opIsra (w x y : Nat) : Nat := toElem w (signedOf w x / 2 ^ (y % w))

/-- IADD: wraps modulo 2^w (R119). -/
def execIadd (h : HallId) (a : RArgs) (s : State) : Res := vcInt h (.iadd h a) a 2 opIadd s

/-- IADDS: saturates to the signed range (R119). -/
def execIadds (h : HallId) (a : RArgs) (s : State) : Res := vcInt h (.iadds h a) a 2 opIadds s

/-- IADDU: saturates to the unsigned range (R119). -/
def execIaddu (h : HallId) (a : RArgs) (s : State) : Res := vcInt h (.iaddu h a) a 2 opIaddu s

/-- ISUB: wraps modulo 2^w (R119). -/
def execIsub (h : HallId) (a : RArgs) (s : State) : Res := vcInt h (.isub h a) a 2 opIsub s

/-- ISUBS: saturates to the signed range (R119). -/
def execIsubs (h : HallId) (a : RArgs) (s : State) : Res := vcInt h (.isubs h a) a 2 opIsubs s

/-- ISUBU: saturates to the unsigned range (R119). -/
def execIsubu (h : HallId) (a : RArgs) (s : State) : Res := vcInt h (.isubu h a) a 2 opIsubu s

/-- IMUL: wraps modulo 2^w (R119). -/
def execImul (h : HallId) (a : RArgs) (s : State) : Res := vcInt h (.imul h a) a 4 opImul s

/-- IMULH: the high w bits of the signed product (R119). -/
def execImulh (h : HallId) (a : RArgs) (s : State) : Res := vcInt h (.imulh h a) a 4 opImulh s

/-- IMIN: MOD[0] = 1 unsigned (R119). -/
def execImin (h : HallId) (a : RArgs) (s : State) : Res := vcInt h (.imin h a) a 2 (opImin (a.md.getLsbD 0)) s

/-- IMAX: MOD[0] = 1 unsigned (R119). -/
def execImax (h : HallId) (a : RArgs) (s : State) : Res := vcInt h (.imax h a) a 2 (opImax (a.md.getLsbD 0)) s

/-- ISHL: by the low log2(w) bits of the element of VB (R119). -/
def execIshl (h : HallId) (a : RArgs) (s : State) : Res := vcInt h (.ishl h a) a 2 opIshl s

/-- ISHR: logical, by the low log2(w) bits of the element of VB (R119). -/
def execIshr (h : HallId) (a : RArgs) (s : State) : Res := vcInt h (.ishr h a) a 2 opIshr s

/-- ISRA: arithmetic, by the low log2(w) bits of the element of VB (R119). -/
def execIsra (h : HallId) (a : RArgs) (s : State) : Res := vcInt h (.isra h a) a 2 opIsra s

/-- A one-source instruction on whole lanes. -/
def vcLane1 (h : HallId) (i : Instr) (a : RArgs) (unit lat ivl : Nat) (fp : Bool) (op : W32 → W32) (s : State) :
    Res :=
  vcReg h i (timeR unit a [a.va] lat ivl) s fun v =>
    let x := v.vreg a.va
    (v.writeLanes a.vd a.pred a.zero fun k => op (lane x k)).flag (formFlag fp a.form)

/-- A two-source instruction on whole lanes. -/
def vcLane2 (h : HallId) (i : Instr) (a : RArgs) (unit lat ivl : Nat) (fp : Bool) (op : W32 → W32 → W32)
    (s : State) : Res :=
  vcReg h i (timeR unit a [a.va, a.vb] lat ivl) s fun v =>
    let x := v.vreg a.va
    let y := v.vreg a.vb
    (v.writeLanes a.vd a.pred a.zero fun k => op (lane x k) (lane y k)).flag (formFlag fp a.form)

/-- A three-source instruction on whole lanes. -/
def vcLane3 (h : HallId) (i : Instr) (a : RArgs) (lat : Nat) (op : W32 → W32 → W32 → W32) (s : State) : Res :=
  vcReg h i (timeR unitF a [a.va, a.vb, a.vc] lat 1) s fun v =>
    let x := v.vreg a.va
    let y := v.vreg a.vb
    let z := v.vreg a.vc
    (v.writeLanes a.vd a.pred a.zero fun k => op (lane x k) (lane y k) (lane z k)).flag (formFlag false a.form)

/-- A one-source instruction whose lanes may meet conditions. -/
def vcLaneC (h : HallId) (i : Instr) (a : RArgs) (lat : Nat) (op : W32 → W32 × BitVec 8) (s : State) : Res :=
  vcReg h i (timeR unitF a [a.va] lat 1) s fun v =>
    let x := v.vreg a.va
    (v.writeLanes a.vd a.pred a.zero fun k => (op (lane x k)).1).flag
      (laneConds (v.preg a.pred) (fun k => (op (lane x k)).2) ||| formFlag false a.form)

def opIabs (w x _y : Nat) : Nat := satSigned w (signedOf w x).natAbs

/-- IABS: the most negative value gives the largest (R119). -/
def execIabs (h : HallId) (a : RArgs) (s : State) : Res :=
  vcLane1 h (.iabs h a) a unitA 2 1 false
    (fun x => packedLane (formWidth a.form) (opIabs (formWidth a.form)) x x) s

/-! ### Logic, moves and lane access (Table 4.3) -/

/-- VAND: bitwise. -/
def execVand (h : HallId) (a : RArgs) (s : State) : Res :=
  vcLane2 h (.vand h a) a unitA 2 1 false (fun x y => x &&& y) s

/-- VOR: bitwise. -/
def execVor (h : HallId) (a : RArgs) (s : State) : Res :=
  vcLane2 h (.vor h a) a unitA 2 1 false (fun x y => x ||| y) s

/-- VXOR: bitwise. -/
def execVxor (h : HallId) (a : RArgs) (s : State) : Res :=
  vcLane2 h (.vxor h a) a unitA 2 1 false (fun x y => x ^^^ y) s

/-- VNOT: bitwise. -/
def execVnot (h : HallId) (a : RArgs) (s : State) : Res :=
  vcLane1 h (.vnot h a) a unitA 2 1 false (fun x => ~~~x) s

/-- VSEL: active lanes from VA, the others from VB; ZERO ignored. -/
def execVsel (h : HallId) (a : RArgs) (s : State) : Res :=
  vcReg h (.vsel h a) (timeR unitA a [a.va, a.vb] 2 1) s fun v =>
    let x := v.vreg a.va
    let y := v.vreg a.vb
    let p := v.preg a.pred
    (v.setV a.vd (ofLanes fun k => if p.getLsbD k then lane x k else lane y k)).flag (formFlag false a.form)

/-- VMOV: copy. -/
def execVmov (h : HallId) (a : RArgs) (s : State) : Res :=
  vcLane1 h (.vmov h a) a unitA 2 1 false id s

/-- VBCS: broadcast s[SA][31:0]. -/
def execVbcs (h : HallId) (a : RArgs) (s : State) : Res :=
  let sa := scalarName a.va
  vcReg h (.vbcs h a) ⟨unitA, [pKey a.pred, sKey sa], [vKey a.vd], 2, 1, false⟩ s fun v =>
    let x := (v.sreg sa).setWidth 32
    (v.writeLanes a.vd a.pred a.zero fun _ => x).flag (formFlag false a.form)

/-- VLI: broadcast IMM. -/
def execVli (h : HallId) (a : IArgs) (s : State) : Res :=
  vcReg h (.vli h a) ⟨unitA, [pKey a.pred], [vKey a.vd], 2, 1, false⟩ s fun v =>
    (v.writeLanes a.vd a.pred a.zero fun _ => a.imm).flag (formFlag false a.form)

/-- VIOTA: lane i ← i. -/
def execViota (h : HallId) (a : RArgs) (s : State) : Res :=
  vcReg h (.viota h a) (timeR unitA a [] 2 1) s fun v =>
    (v.writeLanes a.vd a.pred a.zero fun k => BitVec.ofNat 32 k).flag (formFlag false a.form)

/-- VPERM: lane i ← VA lane (VB lane i mod 256). -/
def execVperm (h : HallId) (a : RArgs) (s : State) : Res :=
  vcReg h (.vperm h a) (timeR unitA a [a.va, a.vb] 4 2) s fun v =>
    let x := v.vreg a.va
    let y := v.vreg a.vb
    (v.writeLanes a.vd a.pred a.zero fun k => lane x ((lane y k).toNat % 256)).flag (formFlag false a.form)

/-- The lane that MOD[7:0] names. -/
def modLane (a : RArgs) : Nat := a.md.toNat % 256

/-- VTOS: SD ← VA lane MOD[7:0], sign-extended; PRED ignored. -/
def execVtos (h : HallId) (a : RArgs) (s : State) : Res :=
  let sd := scalarName a.vd
  vcReg h (.vtos h a) ⟨unitA, [vKey a.va], [sKey sd], 3, 1, false⟩ s fun v =>
    (v.setS sd ((lane (v.vreg a.va) (modLane a)).signExtend 64)).flag (formFlag false a.form)

/-- VSETL: VD lane MOD[7:0] ← s[SA][31:0]; other lanes kept; PRED ignored. -/
def execVsetl (h : HallId) (a : RArgs) (s : State) : Res :=
  let sa := scalarName a.va
  vcReg h (.vsetl h a) ⟨unitA, [sKey sa], [vKey a.vd], 2, 1, false⟩ s fun v =>
    let old := v.vreg a.vd
    (v.setV a.vd (ofLanes fun k => if k = modLane a then (v.sreg sa).setWidth 32 else lane old k)).flag
      (formFlag false a.form)

/-! ### Comparisons and predicates -/

/-- ICMP's conditions; 6 and 7 are reserved and false (R113). -/
def icmpHolds (cond : Nat) (x y : Int) : Bool :=
  match cond with
  | 0 => decide (x = y)
  | 1 => decide (x ≠ y)
  | 2 => decide (x < y)
  | 3 => decide (x ≤ y)
  | 4 => decide (y < x)
  | 5 => decide (y ≤ x)
  | _ => false

/-- INS_RESERVED for conditions 6 and 7. -/
def condFlag (md : BitVec 10) : BitVec 8 := if 6 ≤ md.toNat % 8 then bitInsReserved else 0#8

/-- Timing of a comparison of VA and VB into PD. -/
def timeCmp (a : RArgs) : VTiming :=
  ⟨unitA, [pKey a.pred, vKey a.va, vKey a.vb], [pKey (predName a.vd)], 2, 1, false⟩

/-- ICMP: in packed forms a bit is 1 only where every element of the lane compares true. -/
def execIcmp (h : HallId) (a : RArgs) (s : State) : Res :=
  vcReg h (.icmp h a) (timeCmp a) s fun v =>
    let x := v.vreg a.va
    let y := v.vreg a.vb
    let w := formWidth a.form
    let u := a.md.getLsbD 3
    (v.writePred (predName a.vd) a.pred a.zero (predOf fun k =>
      packedAll w (fun p q => icmpHolds (a.md.toNat % 8) (elemKey u w p) (elemKey u w q)) (lane x k) (lane y k))).flag
      (condFlag a.md ||| formFlag false a.form)

/-- FCMP (R121). -/
def execFcmp (h : HallId) (a : RArgs) (s : State) : Res :=
  vcReg h (.fcmp h a) (timeCmp a) s fun v =>
    let x := v.vreg a.va
    let y := v.vreg a.vb
    (v.writePred (predName a.vd) a.pred a.zero (predOf fun k =>
      fcmp32 (a.md.toNat % 8) (lane x k) (lane y k))).flag (condFlag a.md ||| formFlag true a.form)

/-- A logic instruction on predicates; PRED ignored. -/
def vcPred (h : HallId) (i : Instr) (a : RArgs) (srcs : List Nat)
    (op : BitVec 256 → BitVec 256 → BitVec 256) (s : State) : Res :=
  vcReg h i ⟨unitA, srcs, [pKey (predName a.vd)], 2, 1, false⟩ s fun v =>
    (v.setP (predName a.vd) (op (v.preg (predName a.va)) (v.preg (predName a.vb)))).flag (formFlag false a.form)

/-- PAND. -/
def execPand (h : HallId) (a : RArgs) (s : State) : Res :=
  vcPred h (.pand h a) a [pKey (predName a.va), pKey (predName a.vb)] (fun x y => x &&& y) s

/-- POR. -/
def execPor (h : HallId) (a : RArgs) (s : State) : Res :=
  vcPred h (.por h a) a [pKey (predName a.va), pKey (predName a.vb)] (fun x y => x ||| y) s

/-- PXOR. -/
def execPxor (h : HallId) (a : RArgs) (s : State) : Res :=
  vcPred h (.pxor h a) a [pKey (predName a.va), pKey (predName a.vb)] (fun x y => x ^^^ y) s

/-- PNOT. -/
def execPnot (h : HallId) (a : RArgs) (s : State) : Res :=
  vcPred h (.pnot h a) a [pKey (predName a.va)] (fun x _ => ~~~x) s

/-- PFIRST: PD bit i ← (i < s[SA]), s[SA] signed (log row 9). -/
def execPfirst (h : HallId) (a : RArgs) (s : State) : Res :=
  let sa := scalarName a.va
  vcReg h (.pfirst h a) ⟨unitA, [pKey a.pred, sKey sa], [pKey (predName a.vd)], 2, 1, false⟩ s fun v =>
    (v.writePred (predName a.vd) a.pred a.zero (predOf fun k => decide ((k : Int) < (v.sreg sa).toInt))).flag
      (formFlag false a.form)

/-- PCNT: SD ← bits set in PA. -/
def execPcnt (h : HallId) (a : RArgs) (s : State) : Res :=
  let sd := scalarName a.vd
  vcReg h (.pcnt h a) ⟨unitA, [pKey (predName a.va)], [sKey sd], 3, 1, false⟩ s fun v =>
    let p := v.preg (predName a.va)
    (v.setS sd (BitVec.ofNat 64 ((List.range 256).filter fun k => p.getLsbD k).length)).flag
      (formFlag false a.form)

/-! ### FP32 (R120, R121) -/

/-- FADD. -/
def execFadd (h : HallId) (a : RArgs) (s : State) : Res := vcLane2 h (.fadd h a) a unitF 5 1 true fadd32 s

/-- FSUB. -/
def execFsub (h : HallId) (a : RArgs) (s : State) : Res := vcLane2 h (.fsub h a) a unitF 5 1 true fsub32 s

/-- FMUL. -/
def execFmul (h : HallId) (a : RArgs) (s : State) : Res := vcLane2 h (.fmul h a) a unitF 5 1 true fmul32 s

/-- FMA: VA × VB + VC, one rounding. -/
def execFma (h : HallId) (a : RArgs) (s : State) : Res := vcLane3 h (.fma h a) a 5 fma32 s

/-- FNMS: VC − VA × VB, one rounding. -/
def execFnms (h : HallId) (a : RArgs) (s : State) : Res := vcLane3 h (.fnms h a) a 5 fnms32 s

/-- FMIN (R121). -/
def execFmin (h : HallId) (a : RArgs) (s : State) : Res := vcLane2 h (.fmin h a) a unitF 2 1 false fmin32 s

/-- FMAX (R121). -/
def execFmax (h : HallId) (a : RArgs) (s : State) : Res := vcLane2 h (.fmax h a) a unitF 2 1 false fmax32 s

/-- FABS: the sign bit only. -/
def execFabs (h : HallId) (a : RArgs) (s : State) : Res :=
  vcLane1 h (.fabs h a) a unitF 2 1 false (fun x => x &&& 0x7FFFFFFF#32) s

/-- FNEG: the sign bit only. -/
def execFneg (h : HallId) (a : RArgs) (s : State) : Res := vcLane1 h (.fneg h a) a unitF 2 1 false fneg32 s

/-- FSCALE: VA × 2^(VB as INT32), one rounding. -/
def execFscale (h : HallId) (a : RArgs) (s : State) : Res := vcLane2 h (.fscale h a) a unitF 3 1 false fscale32 s

/-- FRINT: to integral under MOD[1:0]. -/
def execFrint (h : HallId) (a : RArgs) (s : State) : Res :=
  vcLane1 h (.frint h a) a unitF 3 1 false (frint32 (a.md.toNat % 4)) s

/-- The reduction of the active lanes of one group, `none` where it has none. -/
def groupReduce (op : W32 → W32 → W32) (p : BitVec 256) (x : VReg) (lanes : List Nat) : Option W32 :=
  lanes.foldl (fun r k =>
    if p.getLsbD k then
      match r with
      | none => some (op (lane x k) (lane x k))
      | some m => some (op m (lane x k))
    else r) none

/-- FREDMAX and FREDMIN: MOD[3:0] of 9 to 15 acts as 8 (R113). -/
def vcReduce (h : HallId) (i : Instr) (a : RArgs) (op : W32 → W32 → W32) (s : State) : Res :=
  vcReg h i (timeR unitF a [a.va] 10 2) s fun v =>
    let x := v.vreg a.va
    let g := 2 ^ min 8 (a.md.toNat % 16)
    let p := v.preg a.pred
    (v.writeLanes a.vd a.pred a.zero fun k =>
      (groupReduce op p x ((List.range g).map fun j => k / g * g + j)).getD 0#32).flag
      ((if 8 < a.md.toNat % 16 then bitInsReserved else 0#8) ||| formFlag false a.form)

/-- FREDMAX. -/
def execFredmax (h : HallId) (a : RArgs) (s : State) : Res := vcReduce h (.fredmax h a) a fmax32 s

/-- FREDMIN. -/
def execFredmin (h : HallId) (a : RArgs) (s : State) : Res := vcReduce h (.fredmin h a) a fmin32 s

/-! ### Conversions (R122) -/

/-- CVTIF: to nearest even. -/
def execCvtif (h : HallId) (a : RArgs) (s : State) : Res := vcLane1 h (.cvtif h a) a unitF 4 1 false cvtif32 s

/-- CVTFI: under MOD[1:0], saturating. -/
def execCvtfi (h : HallId) (a : RArgs) (s : State) : Res :=
  vcLaneC h (.cvtfi h a) a 4 (cvtfi32 (a.md.toNat % 4)) s

/-- Two converted 16-bit elements as one lane. -/
def narrowPair (f : FloatFmt) (nan : Nat) (x y : W32) : W32 × BitVec 8 :=
  let lo := narrow32 f nan x
  let hi := narrow32 f nan y
  (BitVec.ofNat 32 (lo.1 + 2 ^ 16 * hi.1), lo.2 ||| hi.2)

/-- CVTFB and CVTFH: elements 0 to 255 from VA lanes, 256 to 511 from VB lanes. -/
def vcNarrow16 (h : HallId) (i : Instr) (a : RArgs) (f : FloatFmt) (nan : Nat) (s : State) : Res :=
  vcReg h i (timeR unitF a [a.va, a.vb] 4 1) s fun v =>
    let x := v.vreg a.va
    let y := v.vreg a.vb
    let src := fun e => if e < 256 then lane x e else lane y (e - 256)
    (v.writeLanes a.vd a.pred a.zero fun k => (narrowPair f nan (src (2 * k)) (src (2 * k + 1))).1).flag
      (laneConds (v.preg a.pred) (fun k => (narrowPair f nan (src (2 * k)) (src (2 * k + 1))).2)
        ||| formFlag false a.form)

/-- CVTFB. -/
def execCvtfb (h : HallId) (a : RArgs) (s : State) : Res := vcNarrow16 h (.cvtfb h a) a fmtBF16 0x7FC0 s

/-- CVTFH. -/
def execCvtfh (h : HallId) (a : RArgs) (s : State) : Res := vcNarrow16 h (.cvtfh h a) a fmtFP16 0x7E00 s

/-- Lanes from the elements of one part of VA. -/
def vcWiden (h : HallId) (i : Instr) (a : RArgs) (f : FloatFmt) (w part : Nat) (s : State) : Res :=
  vcReg h i (timeR unitF a [a.va] 4 1) s fun v =>
    let x := v.vreg a.va
    (v.writeLanes a.vd a.pred a.zero fun k => widen32 f (elemOf w x (256 * part + k))).flag (formFlag false a.form)

/-- CVTBF: half MOD[0] of VA. -/
def execCvtbf (h : HallId) (a : RArgs) (s : State) : Res :=
  vcWiden h (.cvtbf h a) a fmtBF16 16 (a.md.toNat % 2) s

/-- CVTHF: half MOD[0] of VA. -/
def execCvthf (h : HallId) (a : RArgs) (s : State) : Res :=
  vcWiden h (.cvthf h a) a fmtFP16 16 (a.md.toNat % 2) s

/-- The FP8 format of MOD[0], with its canonical NaN (Table 2.5). -/
def fp8Of (md : BitVec 10) : FloatFmt × Nat := if md.getLsbD 0 then (fmtE5M2, 0x7E) else (fmtE4M3, 0x7F)

/-- Four converted bytes as one lane. -/
def narrowQuad (f : FloatFmt) (nan : Nat) (x : VReg) (j : Nat) : W32 × BitVec 8 :=
  let b := fun k => narrow32 f nan (lane x (4 * j + k))
  (BitVec.ofNat 32 (packElems 8 (fun k => (b k).1) 4), (b 0).2 ||| (b 1).2 ||| (b 2).2 ||| (b 3).2)

/-- CVTF8: bytes 256 q to 256 q + 255 of VD from VA lanes, q = MOD[2:1]; other bytes kept. -/
def execCvtf8 (h : HallId) (a : RArgs) (s : State) : Res :=
  vcReg h (.cvtf8 h a) (timeR unitF a [a.va] 4 1) s fun v =>
    let x := v.vreg a.va
    let old := v.vreg a.vd
    let q := a.md.toNat / 2 % 4
    let f := fp8Of a.md
    let p := v.preg a.pred
    let r := maskLanes p a.zero old fun k => (narrowQuad f.1 f.2 x (k - 64 * q)).1
    (v.setV a.vd (ofLanes fun k => if k / 64 = q then lane r k else lane old k)).flag
      (laneConds p (fun k => if k / 64 = q then (narrowQuad f.1 f.2 x (k - 64 * q)).2 else 0#8)
        ||| formFlag false a.form)

/-- CVT8F: lanes from the FP8 bytes of quarter MOD[2:1] of VA. -/
def execCvt8f (h : HallId) (a : RArgs) (s : State) : Res :=
  vcWiden h (.cvt8f h a) a (fp8Of a.md).1 8 (a.md.toNat / 2 % 4) s

/-- The MX code of MOD[3:0], where it is one. -/
def mxCode (md : BitVec 10) : Option Fmt :=
  let f : Fmt := md.setWidth 4
  if f.isMx then some f else none

/-- MXPACK: eight blocks of 32 lanes drained under R70; elements from byte 0, scales at bytes 1,016 to 1,023.
PRED and ZERO ignored. -/
def mxPack (f : Fmt) (rnd : BitVec 2) (x : VReg) : VReg × BitVec 8 :=
  let blocks := (List.range 8).map fun g =>
    mxBlock f ((List.range 32).map fun k => exact32 (lane x (32 * g + k))) rnd (List.replicate 32 0)
  let codes := blocks.flatMap fun b => b.2.1
  let scales := blocks.map fun b => b.1
  let n := codes.foldr (fun w acc => w % 2 ^ f.bits + 2 ^ f.bits * acc) 0
  (BitVec.ofNat 8192 (n + 2 ^ (8 * 1016) * numLE scales), blocks.foldl (fun c b => c ||| b.2.2) 0#8)

/-- MXPACK. A MOD[3:0] outside 0x5 to 0xA writes nothing and sets FORMAT_RESERVED. -/
def execMxpack (h : HallId) (a : RArgs) (s : State) : Res :=
  vcReg h (.mxpack h a) ⟨unitF, [vKey a.va], [vKey a.vd], 8, 2, false⟩ s fun v =>
    match mxCode a.md with
    | none => v.flag (condFmtReserved ||| formFlag false a.form)
    | some f =>
      let r := mxPack f (if a.md.getLsbD 4 then 1#2 else 0#2) (v.vreg a.va)
      (v.setV a.vd r.1).flag (r.2 ||| formFlag false a.form)

/-- One unpacked MX value as FP32: a 0xFF scale or a NaN element gives the canonical NaN, an E5M2 infinity the
infinity of its sign. -/
def mxUnpackLane (f : Fmt) (x : VReg) (k : Nat) : W32 :=
  let scale : Byte := BitVec.ofNat 8 (elemOf 8 x (1016 + k / 32))
  match decodeElem f (elemOf f.bits x k), decodeScale scale with
  | _, none => nan32
  | .nan, _ => nan32
  | .inf n, _ => signed32 n inf32
  | .fin m e, some sc => ofExact32 ⟨m, e + sc⟩

/-- MXUNPK. -/
def execMxunpk (h : HallId) (a : RArgs) (s : State) : Res :=
  vcReg h (.mxunpk h a) (timeR unitF a [a.va] 5 1) s fun v =>
    match mxCode a.md with
    | none => v.flag (condFmtReserved ||| formFlag false a.form)
    | some f =>
      let x := v.vreg a.va
      (v.writeLanes a.vd a.pred a.zero fun k => mxUnpackLane f x k).flag (formFlag false a.form)

/-- The narrow width of INARROW and IWIDEN: FORM 0 and 3 execute as FORM 1 (R113). -/
def narrowWidth (form : BitVec 2) : Nat := if form = 2#2 then 8 else 16
def narrowFlag (form : BitVec 2) : BitVec 8 := if form = 0#2 ∨ form = 3#2 then bitInsReserved else 0#8

/-- INARROW: into half MOD[0] of VD, signed or (MOD[1]) unsigned saturation. The other half is kept, whatever ZERO: spec/ does
not say so, as it does for CVTF8 (DESIGN CHOICE, log row 120). -/
def execInarrow (h : HallId) (a : RArgs) (s : State) : Res :=
  vcReg h (.inarrow h a) (timeR unitF a [a.va] 4 1) s fun v =>
    let x := v.vreg a.va
    let old := v.vreg a.vd
    let w := narrowWidth a.form
    let half := a.md.toNat % 2
    let one := fun e =>
      let i := signedOf (2 * w) (elemOf (2 * w) x e)
      if a.md.getLsbD 1 then satUnsigned w i else satSigned w i
    let r := maskLanes (v.preg a.pred) a.zero old fun k =>
      BitVec.ofNat 32 (packElems w (fun j => one (32 / w * (k - 128 * half) + j)) (32 / w))
    (v.setV a.vd (ofLanes fun k => if k / 128 = half then lane r k else lane old k)).flag (narrowFlag a.form)

/-- IWIDEN: half MOD[0] of VA, MOD[1] = 1 zero-extends. -/
def execIwiden (h : HallId) (a : RArgs) (s : State) : Res :=
  vcReg h (.iwiden h a) (timeR unitF a [a.va] 4 1) s fun v =>
    let x := v.vreg a.va
    let w := narrowWidth a.form
    let half := a.md.toNat % 2
    let one := fun e =>
      let c := elemOf w x (4096 / w * half + e)
      if a.md.getLsbD 1 then c else toElem (2 * w) (signedOf w c)
    (v.writeLanes a.vd a.pred a.zero fun k =>
      BitVec.ofNat 32 (packElems (2 * w) (fun j => one (32 / (2 * w) * k + j)) (32 / (2 * w)))).flag
      (narrowFlag a.form)

/-! ### Transcendentals (R125) -/

/-- EXP2. -/
def execExp2 (h : HallId) (a : RArgs) (s : State) : Res := vcLane1 h (.exp2 h a) a unitT 22 4 true exp2of s

/-- LOG2. -/
def execLog2 (h : HallId) (a : RArgs) (s : State) : Res := vcLane1 h (.log2 h a) a unitT 22 4 true log2of s

/-- TANH. -/
def execTanh (h : HallId) (a : RArgs) (s : State) : Res := vcLane1 h (.tanh h a) a unitT 22 4 true tanhOf s

/-- SIGM. -/
def execSigm (h : HallId) (a : RArgs) (s : State) : Res := vcLane1 h (.sigm h a) a unitT 22 4 true sigmOf s

/-- RCP. -/
def execRcp (h : HallId) (a : RArgs) (s : State) : Res := vcLane1 h (.rcp h a) a unitT 18 4 true rcpOf s

/-- RSQRT. -/
def execRsqrt (h : HallId) (a : RArgs) (s : State) : Res := vcLane1 h (.rsqrt h a) a unitT 18 4 true rsqrtOf s

/-! ### Exact sums (R126 to R131) -/

/-- Block exponent of the active lanes of block k of a register, read as FP32 (R55, R126). -/
def blockExp32 (p : BitVec 256) (x : VReg) (k : Nat) : Option Int :=
  ((List.range 32).filter fun i => p.getLsbD (32 * k + i)).foldl (fun b i =>
    maxExp b (floatExp fmtFP32 (lane x (32 * k + i)).toNat)) none

/-- The anchor that XCLR sets (R126). -/
def xclrAnchor (a : XArgs) (p : BitVec 256) (x y : VReg) : Int :=
  if a.auto then
    autoAnchor ((List.range 8).map fun k => (blockExp32 p x k, if a.pair then blockExp32 p y k else some 0))
  else a.anchor.toInt

/-- XCLR: PRED does not restrict which elements it clears. -/
def execXclr (h : HallId) (a : XArgs) (s : State) : Res :=
  vcReg h (.xclr h a) ⟨unitX, if a.auto then pKey a.pred :: vKey a.va :: (if a.pair then [vKey a.vb] else []) else [],
      [esKey a.esd], if a.auto then 6 else 2, 1, false⟩ s fun v =>
    v.setEs a.esd fun _ => Acc.anchored (xclrAnchor a (v.preg a.pred) (v.vreg a.va) (v.vreg a.vb))

/-- One lane's product added into its element; inactive lanes add nothing. -/
def xProduct (v : VCore) (a : XArgs) (mac : Bool) (i : Nat) : Acc × BitVec 8 :=
  let c := v.esElem a.esd i
  if (v.preg a.pred).getLsbD i then
    c.addProduct (mulElem (exact32 (lane (v.vreg a.va) i))
      (if mac then exact32 (lane (v.vreg a.vb) i) else some ⟨1, 0⟩))
  else (c, 0#8)

/-- XADD and XMAC (R127). -/
def VCore.xAccumulate (v : VCore) (a : XArgs) (mac : Bool) : VCore :=
  (v.setEs a.esd fun i => (xProduct v a mac i).1).flag
    ((List.range 256).foldl (fun c i => c ||| (xProduct v a mac i).2) 0#8)

/-- XADD. -/
def execXadd (h : HallId) (a : XArgs) (s : State) : Res :=
  vcReg h (.xadd h a) ⟨unitX, [pKey a.pred, vKey a.va], [esKey a.esd], 6, 1, true⟩ s fun v => v.xAccumulate a false

/-- XMAC. -/
def execXmac (h : HallId) (a : XArgs) (s : State) : Res :=
  vcReg h (.xmac h a) ⟨unitX, [pKey a.pred, vKey a.va, vKey a.vb], [esKey a.esd], 7, 1, true⟩ s fun v =>
    v.xAccumulate a true

/-- INS_RESERVED for a GROUP above its range (R113). -/
def groupFlag (a : XArgs) (top : Nat) : BitVec 8 := if top < a.group.toNat then bitInsReserved else 0#8

/-- XREC: record k into element 32 × GROUP + k where lane 8 k is active; GROUP mod 8 (R113, R128). -/
def execXrec (h : HallId) (a : XArgs) (s : State) : Res :=
  vcReg h (.xrec h a) ⟨unitX, [pKey a.pred, vKey a.va], [esKey a.esd], 6, 1, true⟩ s fun v =>
    let x := v.vreg a.va
    let p := v.preg a.pred
    let base := 32 * (a.group.toNat % 8)
    (v.setEs a.esd fun i =>
      let c := v.esElem a.esd i
      if i / 32 = a.group.toNat % 8 ∧ p.getLsbD (8 * (i - base)) then
        c.add (Acc.ofRecord (x.extractLsb' (256 * (i - base)) 256))
      else c).flag (groupFlag a 7)

/-- The sum of the active elements of a group, in ascending order; a group with none gives a cleared element
(R129). -/
def foldGroup (v : VCore) (a : XArgs) (lanes : List Nat) : Acc :=
  (lanes.foldl (fun r i =>
    if (v.preg a.pred).getLsbD i then
      match r with
      | none => some (v.esElem a.esa i)
      | some c => some (c.add (v.esElem a.esa i))
    else r) none).getD Acc.zero

/-- XFOLD: GROUP of 9 to 15 acts as 8 (R113). -/
def execXfold (h : HallId) (a : XArgs) (s : State) : Res :=
  vcReg h (.xfold h a) ⟨unitX, [pKey a.pred, esKey a.esa], [esKey a.esd], 12, 8, false⟩ s fun v =>
    let g := 2 ^ min 8 a.group.toNat
    (v.setEs a.esd fun i => foldGroup v a ((List.range g).map fun j => i / g * g + j)).flag (groupFlag a 8)

/-- The random value of a stochastic XDRAIN for lane i (R130): SK = 31 reads s0 in place of s[SK + 1]. -/
def xdrainRandom (seed : W64) (v : VCore) (a : XArgs) (i : Nat) : Nat :=
  if 2 ≤ a.rnd.toNat then
    let k := v.sreg a.sk
    drainRandom seed (k.setWidth 32 + BitVec.ofNat 32 i) (k.extractLsb' 32 32) ((v.sreg (a.sk + 1)).setWidth 32)
      (if a.rnd = 3#2 then 0x80000000#32 else 0#32)
  else 0

/-- One drained lane. -/
def xdrainLane (seed : W64) (v : VCore) (a : XArgs) (i : Nat) : Nat × BitVec 8 :=
  drainElem (if a.ofmt then 4#4 else 2#4) (v.esElem a.esa i) a.outShift.toInt a.rnd (xdrainRandom seed v a i)

/-- XDRAIN (R130); ESA is unchanged. -/
def execXdrain (h : HallId) (a : XArgs) (s : State) : Res :=
  let sk := if 2 ≤ a.rnd.toNat then [sKey a.sk, sKey (a.sk + 1)] else []
  vcReg h (.xdrain h a) ⟨unitX, [pKey a.pred, esKey a.esa] ++ sk, [vKey a.va],
      if 2 ≤ a.rnd.toNat then 14 else 8, 2, false⟩ s fun v =>
    (v.writeLanes a.va a.pred a.zero fun i => BitVec.ofNat 32 (xdrainLane s.job.seed v a i).1).flag
      (laneConds (v.preg a.pred) (fun i => (xdrainLane s.job.seed v a i).2)
        ||| (if 2 ≤ a.rnd.toNat ∧ a.sk = 31#5 then bitInsReserved else 0#8))

/-- XOUT: 32 elements as ACC records; GROUP mod 8; PRED and ZERO ignored (R131). -/
def execXout (h : HallId) (a : XArgs) (s : State) : Res :=
  vcReg h (.xout h a) ⟨unitX, [esKey a.esa], [vKey a.va], 4, 1, false⟩ s fun v =>
    (v.setV a.va (ofElems 256 fun k => (v.esElem a.esa (32 * (a.group.toNat % 8) + k)).toRecord.toNat)).flag
      (groupFlag a 7)

end Sys2Proof.Machine
end

