-- ==== Sys2Proof/Machine/VectorMem.lean ====
section
/-! DEFINITION. The vector core's memory and queue instructions, bells, MARK and PACE (R117, R132 to R137,
R140), and the resumption of held instructions. -/

namespace Sys2Proof.Machine

/-! ### Pantry loads and stores (R135, R141, R143, Table 5.2) -/

/-- Own data-port accesses of `n` granules each, at their nominal beats, for a result at `due`. -/
def State.dataRun (s : State) (h : Nat) (owner : RunOwner) (due n : Nat) (run : List (Nat × Nat)) (acts : List Act)
    (sink : Sink) : State × Run :=
  s.planActs rankOwn due ((run.getLast?.map Prod.snd).getD 0) owner (pantryClaims (portData h) (vPantryKey h) n run) acts
    sink

/-- Operands read in memory by a beat. -/
def VCore.readBy (v : VCore) (b : Nat) : VCore :=
  { v with times := { v.times with readsDone := max v.times.readsDone b } }

/-- A store at its point of coherence by a beat. -/
def VCore.storedBy (v : VCore) (b : Nat) : VCore :=
  { v with times := { v.times with storesDone := max v.times.storesDone b,
                                   busyUntil := max v.times.busyUntil b } }

/-- Byte address of SLD and SST: mod 2^19, low 3 bits ignored (R141, Table 4.3). -/
def scalarAddr (v : VCore) (a : MArgs) : Nat :=
  ((v.sreg a.sa + a.offset.signExtend 64).toNat % 2 ^ 19) / 8 * 8

/-- First granule of VLD and VST (R135). -/
def granuleAddr (v : VCore) (a : MArgs) : Nat := (v.sreg a.sa + a.offset.signExtend 64).toNat % 16384

/-- SLD: 8 B into the scalar that the low 5 bits of VD name. -/
def execSld (h : HallId) (a : MArgs) (s : State) : Res :=
  let sd := scalarName a.vd
  let t : VTiming := ⟨unitL, [sKey a.sa], [sKey sd], 6, 2, false⟩
  vcRun h (.sld h a) t s fun s v b =>
    let p := scalarAddr v a
    let r := s.dataRun h (.read h [sKey sd]) (b + 6) 1 [(p / 32, b + 2)] [.read [.pantry (vPantryKey h) p 8]]
      (.scalar h sd)
    r.1.setVcore h (((r.1.vcore h).retire t b r.2.due).readBy r.2.last)

/-- SST: 8 B of the scalar that the low 5 bits of VD name; coherent 4 beats after issue (R135). -/
def execSst (h : HallId) (a : MArgs) (s : State) : Res :=
  let sd := scalarName a.vd
  let t : VTiming := ⟨unitL, [sKey a.sa, sKey sd], [], 1, 2, false⟩
  vcRun h (.sst h a) t s fun s v b =>
    let p := scalarAddr v a
    let r := s.dataRun h (.store h) (b + 4) 1 [(p / 32, b + 2)]
      [.patch (.pantry (vPantryKey h) p 8) (BitVec.allOnes 512) (bytesLE (v.sreg sd).toNat 8)] .none
    r.1.setVcore h (((r.1.vcore h).retire t b (b + 1)).storedBy r.2.due)

/-- The sink of a load into VD under PRED and ZERO (R118). -/
def loadSink (h : HallId) (v : VCore) (a : MArgs) : Sink :=
  .lanes h a.vd (v.preg a.pred) (if a.zero then ~~~(v.preg a.pred) else 0#256)

/-- VLD: 32 granules, wrapping. -/
def execVld (h : HallId) (a : MArgs) (s : State) : Res :=
  let t : VTiming := ⟨unitL, [sKey a.sa, pKey a.pred], [vKey a.vd], 8, 2, false⟩
  vcRun h (.vld h a) t s fun s v b =>
    let g := granuleAddr v a
    let key := vPantryKey h
    let r := s.dataRun h (.read h [vKey a.vd]) (b + 8) 16 [(g, b + 2), (g + 16, b + 3)]
      [.read [.pantry key (32 * g) 512], .read [.pantry key (32 * g + 512) 512]] (loadSink h v a)
    r.1.setVcore h (((r.1.vcore h).retire t b r.2.due).readBy r.2.last)

/-- Bytes of half `q` of a register that belong to active lanes. -/
def laneMask (pred : BitVec 256) (q : Nat) : BitVec 512 :=
  BitVec.ofNat 512 (packElems 1 (fun j => if pred.getLsbD (128 * q + j / 4) then 1 else 0) 512)

/-- Half `q` of a register as bytes. -/
def halfBytes (x : VReg) (q : Nat) : List Byte := (List.range 512).map fun j => BitVec.ofNat 8 (elemOf 8 x (512 * q + j))

/-- The store of half `q` of VD at a place: only the bytes of active lanes (R118), or in row mode the whole row (R136). -/
def storeHalf (v : VCore) (a : MArgs) (q : Nat) (p : Place) : Act :=
  .patch p (laneMask (v.preg a.pred) q) (halfBytes (v.vreg a.vd) q)

/-- VST: only the bytes of active lanes. -/
def execVst (h : HallId) (a : MArgs) (s : State) : Res :=
  let t : VTiming := ⟨unitL, [sKey a.sa, pKey a.pred, vKey a.vd], [], 1, 2, false⟩
  vcRun h (.vst h a) t s fun s v b =>
    let g := granuleAddr v a
    let key := vPantryKey h
    let r := s.dataRun h (.store h) (b + 4) 16 [(g, b + 2), (g + 16, b + 3)]
      [storeHalf v a 0 (.pantry key (32 * g) 512), storeHalf v a 1 (.pantry key (32 * g + 512) 512)] .none
    r.1.setVcore h (((r.1.vcore h).retire t b (b + 1)).storedBy r.2.due)

/-! ### Larder loads and stores (R136, R149, R153 to R155) -/

/-- First row offset of LLD and LST. -/
def rowAddr (v : VCore) (a : MArgs) : Nat := (v.sreg a.sa + a.offset.signExtend 64).toNat

/-- Two accesses to a slice, on beat `b` and the next, for a result at `due`. -/
def State.rowRun (s : State) (h : HallId) (a : MArgs) (owner : RunOwner) (due o b : Nat) (acts : List Act) (sink : Sink) :
    State × Run :=
  s.planActs (rankCore (s.coreSlice h a.handle.toNat) (tileOf h 2)) due (b + 1) owner
    (s.rowClaims (portVLarder h) h 2 a.handle.toNat [o, o + 1] [b, b + 1]) acts sink

/-- LLD: two consecutive rows; a row that a check refuses is job-fatal and nothing is moved. -/
def execLld (h : HallId) (a : MArgs) (s : State) : Res :=
  let t : VTiming := ⟨unitL, [sKey a.sa, pKey a.pred], [vKey a.vd], 16, 2, false⟩
  vcRun h (.lld h a) t s fun s v b =>
    let o := rowAddr v a
    let r := s.rowRun h a (.read h [vKey a.vd]) (b + 16) o (b + 4) (rowReads h 2 a.handle.toNat [o, o + 1])
      (loadSink h v a)
    r.1.setVcore h (((r.1.vcore h).retire t b r.2.due).readBy r.2.last)

/-- LST: two consecutive rows, each in an access of its own (R160); coherent 8 beats after issue. -/
def execLst (h : HallId) (a : MArgs) (s : State) : Res :=
  let t : VTiming := ⟨unitL, [sKey a.sa, pKey a.pred, vKey a.vd], [], 1, 2, false⟩
  vcRun h (.lst h a) t s fun s v b =>
    let o := rowAddr v a
    let k := a.handle.toNat
    let r := s.rowRun h a (.store h) (b + 8) o (b + 6)
      [storeHalf v a 0 (.row h 2 k o [o, o + 1]), storeHalf v a 1 (.row h 2 k (o + 1) [])] .none
    r.1.setVcore h (((r.1.vcore h).retire t b (b + 1)).storedBy r.2.due)

/-! ### Finished-tile queues (R132 to R134) -/

/-- The matrix core that fills queue Q of hall `h` (Q0 from M0, Q1 from M1). -/
def queueCore (h : Nat) (q : Bool) : Nat := 2 * h + (if q then 1 else 0)

/-- The queue's head entry is visible. -/
def Ftq.headVisible (q : Ftq) : Bool := decide (q.released < q.seen)

/-- First beat at which the head may be used: it is visible, and the entry before it has been released. -/
def Ftq.headBeat (q : Ftq) : Nat := max ((q.entries.headD ⟨0#64, [], 0⟩).writtenAt + 2) q.releasedAt

def Ftq.headHdr (q : Ftq) : W64 := (q.entries.headD ⟨0#64, [], 0⟩).hdr
def Ftq.headPayload (q : Ftq) : Memory := (q.entries.headD ⟨0#64, [], 0⟩).payload

/-- Timing of TWAIT, TLD and TREL. -/
def timeTwait (a : CArgs) : VTiming := ⟨unitC, [], [sKey a.sd], 2, 1, false⟩
def timeTld (a : MArgs) : VTiming := ⟨unitL, [pKey a.pred], [vKey a.vd], 6, 2, false⟩
def timeTrel : VTiming := ⟨unitC, [], [], 1, 1, false⟩

/-- TWAIT at issue beat `b`: the head's header to SD. -/
def State.doTwait (s : State) (h : HallId) (a : CArgs) (b : Nat) : State :=
  s.onBeat b fun s => (s.overtake h [sKey a.sd] (s.vcore h) id).setVcore h
    (({ s.vcore h with hold := .free }.setS a.sd (s.queue (queueCore h a.q)).headHdr).retire (timeTwait a) b (b + 2))

/-- Q of a TLD: bit [27] of the word. -/
def tldQ (a : MArgs) : Bool := a.handle.getLsbD 0

/-- Byte `j` of what TLD loads: granules outside the payload read 0 (R133). -/
def tldByte (q : Ftq) (off : Int) (j : Nat) : Byte :=
  let g := off + (j / 32 : Nat)
  let len : Nat := (q.headHdr.extractLsb' 0 12).toNat
  if 0 ≤ g ∧ g < len then q.headPayload.read (32 * g.toNat + j % 32) else 0#8

/-- TLD at issue beat `b`. -/
def State.doTld (s : State) (h : HallId) (a : MArgs) (b : Nat) : State :=
  s.onBeat b fun s =>
    let q := s.queue (queueCore h (tldQ a))
    let x : VReg := BitVec.ofNat 8192 (numLE ((List.range 1024).map fun j => tldByte q a.offset.toInt j))
    let f := fun v : VCore => v.writeLanes a.vd a.pred a.zero fun i => lane x i
    let v := (f { s.vcore h with hold := .free }).retire (timeTld a) b (b + 6)
    let k := (tldQ a).toNat
    (s.overtake h [vKey a.vd] (s.vcore h) f).setVcore h ({ v with times := { v.times with
      tldDone := SMap.set 0 v.times.tldDone k (max (SMap.get 0 v.times.tldDone k) (b + 2)) } }.readBy (b + 2))

/-- The queue after a release that takes effect on beat `b`. -/
def Ftq.release (q : Ftq) (b : Nat) : Ftq :=
  { q with entries := q.entries.tail, released := q.released + 1, releases := (b :: q.releases).take 8 }

/-- TREL at issue beat `b`: the release takes effect one beat later, and after every earlier TLD has read. -/
def State.doTrel (s : State) (h : HallId) (a : CArgs) (b : Nat) : State :=
  s.onBeat b fun s =>
    let c := queueCore h a.q
    let v := s.vcore h
    let at_ := max (b + 1) (SMap.get 0 v.times.tldDone a.q.toNat)
    let v := { v with hold := .free }.retire timeTrel b (b + 1)
    (s.setQueue c ((s.queue c).release at_)).setVcore h
      { v with times := { v.times with busyUntil := max v.times.busyUntil at_ } }

/-- Hold a vector core at issue. -/
def State.holdVcore (s : State) (h : HallId) (k : VHold) : State := s.setVcore h { s.vcore h with hold := k }

/-- TWAIT. -/
def execTwait (h : HallId) (a : CArgs) (s : State) : Res :=
  vcRun h (.twait h a) (timeTwait a) s fun s _ b =>
    let q := s.queue (queueCore h a.q)
    if q.headVisible then s.doTwait h a (max b q.headBeat) else s.holdVcore h (.queue a.q b)

/-- TLD. -/
def execTld (h : HallId) (a : MArgs) (s : State) : Res :=
  vcRun h (.tld h a) (timeTld a) s fun s _ b =>
    let q := s.queue (queueCore h (tldQ a))
    if q.headVisible then s.doTld h a (max b q.headBeat) else s.holdVcore h (.queue (tldQ a) b)

/-- TREL. -/
def execTrel (h : HallId) (a : CArgs) (s : State) : Res :=
  vcRun h (.trel h a) timeTrel s fun s _ b =>
    let q := s.queue (queueCore h a.q)
    if q.headVisible then s.doTrel h a (max b q.headBeat) else s.holdVcore h (.queue a.q b)

/-- A held TWAIT, TLD or TREL issues once its queue's head is visible (R132 to R134). -/
def execTwaitResume (h : HallId) (s : State) : Res :=
  if s.hallEnabled h.val then
    match (s.vcore h).hold with
    | .queue q since =>
      let f := s.queue (queueCore h q)
      if s.active && (s.vcore h).running && f.headVisible then
        let b := max since f.headBeat
        match decodeVector h (s.vcFetch h) with
        | .twait _ a => .next (s.doTwait h a b)
        | .tld _ a => .next (s.doTld h a b)
        | .trel _ a => .next (s.doTrel h a b)
        | _ => .next s
      else .next s
    | _ => .next s
  else .fault .disabledHall

/-! ### MARK, PACE, STATUS (R117, R140) -/

/-- MARK: the issue beat, kept as a program beat (R452; log row 10). -/
def execMark (h : HallId) (a : CArgs) (s : State) : Res :=
  let t : VTiming := ⟨unitC, [], [markKey], 1, 1, false⟩
  vcRun h (.mark h a) t s fun s v b =>
    s.setVcore h ({ v with mark := BitVec.ofNat 64 (b - s.integ.jobOffset) }.retire t b (b + 1))

/-- PACE's timing: it reads the mark. -/
def timePace : VTiming := ⟨unitC, [markKey], [], 1, 1, false⟩

/-- The Milestone beat that a PACE waits for. -/
def State.paceBeat (s : State) (v : VCore) (a : CArgs) : Nat := v.mark.toNat + a.imm.toNat + s.integ.jobOffset

/-- PACE: held until mark + IMM; late, it issues at once and sets PACE_LATE (trusting) or is job-fatal
(guarded, naming the PACE's word address). -/
def execPace (h : HallId) (a : CArgs) (s : State) : Res :=
  vcRun h (.pace h a) timePace s fun s v b =>
    let due := s.paceBeat v a
    if b = due then s.setVcore h (v.retire timePace b (b + 1))
    else if b < due then s.holdVcore h (.pace due)
    else if s.guarded then s.guardRaiseAt 5 (hallTower h) (tileOf h 2) v.pc.toNat
    else s.setVcore h ((v.flag bitPaceLate).retire timePace b (b + 1))

/-- Free the vector core of hall `h` of its hold, and issue the held instruction on beat `b`. -/
def State.vcResume (s : State) (h : HallId) (t : VTiming) (b : Nat) : State :=
  s.onBeat b fun s => s.setVcore h ({ s.vcore h with hold := .free }.retire t b (b + 1))

/-- A held PACE issues on its beat. -/
def execPaceRelease (h : HallId) (s : State) : Res :=
  if s.hallEnabled h.val then
    match (s.vcore h).hold with
    | .pace due =>
      if s.active && (s.vcore h).running then .next (s.vcResume h timePace due)
      else .next s
    | _ => .next s
  else .fault .disabledHall

/-- STATUS: SD ← status word, then the bits of IMM[7:0] are cleared. -/
def execVcStatus (h : HallId) (a : CArgs) (s : State) : Res :=
  vcReg h (.vcStatus h a) ⟨unitC, [], [sKey a.sd], 1, 1, false⟩ s fun v =>
    (v.setS a.sd (v.status.setWidth 64)).unflag (a.imm.setWidth 8)

/-! ### Bells (R137, R260) -/

/-- WAIT's timing. -/
def timeVwait (a : CArgs) : VTiming := ⟨unitC, [sKey a.sa], [], 1, 1, false⟩

/-- WAIT. -/
def execVcWait (h : HallId) (a : CArgs) (s : State) : Res :=
  vcRun h (.vcWait h a) (timeVwait a) s fun s v b =>
    let target : BitVec 48 := (v.sreg a.sa).setWidth 48
    let t := hallTower h
    let p := s.bell t a.bell.toNat
    if !p.ok then (s.holdVcore h (.bell a.bell target b none)).mismatch t 3 a.bell.toNat (tileOf h 2)
    else if bellMet p.count target then
      if s.launchWait a.bell target then
        s.holdVcore h (.entry (s.job.lastShape.setWidth 4) (s.launchMet b))
      else s.setVcore h (v.retire (timeVwait a) b (b + 1))
    else s.holdVcore h (.bell a.bell target b none)

/-- A held WAIT starts 3 beats after its bell first meets the target, or at once where the bell met it on the beat of issue
(R137, R223). -/
def execVcWaitResume (h : HallId) (s : State) : Res :=
  if s.hallEnabled h.val then
    match (s.vcore h).hold with
    | .bell _ _ since (some met) =>
      if s.active && (s.vcore h).running then .next (s.vcResume h ⟨unitC, [], [], 1, 1, false⟩ (waitEnds since met))
      else .next s
    | _ => .next s
  else .fault .disabledHall

/-- R260 for a vector core: resume at ENTRY, registers unchanged, the first instruction 3 beats after the
launch. -/
def State.resumeVector (s : State) (h : HallId) : State :=
  match (s.vcore h).hold with
  | .entry shape met =>
    if s.active && (s.vcore h).running then
      s.onBeat (met + 3) fun s => s.setVcore h { s.vcore h with
        hold := .free, shape := shape, nextIssue := met + 3,
        pc := BitVec.ofNat 16 (s.entryOf (vPantryKey h) shape.toNat) }
    else s
  | _ => s

/-- A WAIT on STEP_BELL that a launch has met resumes at ENTRY of the latched shape (R260): of matrix core `c`,
or of the vector core of `c`'s hall. -/
def execShapeEntryResume (vector : Bool) (c : MCoreId) (s : State) : Res :=
  if s.hallEnabled (c.val / 2) then
    .next (if vector then s.resumeVector ⟨c.val / 2, by omega⟩ else s.resumeMatrix c)
  else .fault .disabledHall

/-- SIGNAL (R137). -/
def execVcSignal (h : HallId) (a : CArgs) (s : State) : Res :=
  let t : VTiming := ⟨unitC, [], [], 1, 1, false⟩
  vcRun h (.vcSignal h a) t s fun s v b =>
    let due := max b (max v.times.readsDone v.times.storesDone) + 4
    let inc : BitVec 16 := a.imm.setWidth 16
    let v := v.retire t b (b + 1)
    s.setVcore h (if inc = 0#16 then v else
      { v with signals := v.signals ++ [⟨a.bell, inc, due, 0⟩],
               times := { v.times with busyUntil := max v.times.busyUntil due } })

/-- The bell of the oldest SIGNAL changes, 4 beats after reads and stores are done (R137). -/
def execVcSignalBellChange (h : HallId) (s : State) : Res :=
  if s.hallEnabled h.val then
    match (s.vcore h).signals with
    | g :: gs =>
      if s.active then
        .next (s.onBeat g.due fun s =>
          (s.setVcore h { s.vcore h with signals := gs }).addBell (hallTower h) g.bell.toNat g.inc.toNat (tileOf h 2) 0)
      else .next s
    | [] => .next s
  else .fault .disabledHall

end Sys2Proof.Machine
end

