-- ==== Sys2Proof/Machine/Posts.lean ====
section
/-! DEFINITION. Posts, send stages, the watchdog and the debug writes (spec/08, R123 END, R139). -/

namespace Sys2Proof.Machine

/-! ### Outcomes (R239, R240, R242) -/

/-- A closed request gives its reserved reply slot back (R239). -/
def State.releaseReply (s : State) (g : Nat) (d : PostDesc) : State :=
  if d.wantReply && decide (d.post < 16) && decide (g < 192) then
    let k := 96 * g + 64 + d.rpost
    let p := s.post k
    s.setPost k { p with reserved := p.reserved - 1 }
  else s

/-- The entry keeps its stage from injecting: it waits at a full post, or has been refused and not yet been accepted or
closed (R236); since when it is held (R244). -/
def StageEntry.held (e : StageEntry) : Option Nat :=
  match e.state with
  | .waiting b => some b
  | .refused b _ => some b
  | .retried b => some b
  | _ => none

/-- A stage entry is settled at beat `b`, `path` beats away: it leaves the stage, which may inject again where the entry held
it, and its outcome is on the way to the sender (Table 8.4). -/
def State.settle (s : State) (g : Nat) (num : BitVec 32) (closed : Bool) (b path : Nat) : State :=
  let st := s.stage g
  match st.entries.find? fun e => e.num == num with
  | none => s
  | some e =>
    let s := s.setStage g { st with
      entries := st.entries.filter fun x => x.num != num,
      lastInject := if e.held.isSome then max st.lastInject (b - 1) else st.lastInject }
    let s := if closed then s.releaseReply g e.desc else s
    { s with pb := { s.pb with returns := s.pb.returns ++ [⟨g, num, e.desc, e.granule, closed, b + 6 + path⟩] } }

/-- Stage of a local sender. -/
def Sender.stageOf : Sender → Nat
  | .core h => h
  | .desk => deskStage
  | .fabric p => p

/-- The outcome of a send at post `k` on beat `b`. -/
def State.sendOutcome (s : State) (k : Nat) (a : PostArrival) (closed : Bool) (b : Nat) : State :=
  match a.sender with
  | .fabric _ =>
    let d : PostDesc := a.desc
    s.sendSingle clsRpl 2#8 d.srank ((d.withOutcome (if closed then 2#2 else 1#2)).setWidth 960)
  | _ =>
    let g := a.sender.stageOf
    let path := routeBeats (meshRoute 0 0 (postTower k) (postTile k) (stageTower g) (stageTile g))
    s.settle g a.num closed b path

/-- Accept an arrival at post `k` on beat `b` (R237, R239, Table 8.4). -/
def State.acceptPost (s : State) (k : Nat) (a : PostArrival) (b : Nat) : State :=
  s.onBeat b fun s =>
    let p := s.post k
    let reply := decide (16 ≤ k % 32) && decide (0 < p.reserved)
    let s := s.setPost k { p with
      sent := Pair32.of (p.sent.v + 1), reserved := if reply then p.reserved - 1 else p.reserved,
      slots := p.slots ++ [⟨a.desc, b + 2⟩] }
    let s := { s with pb := { s.pb with sendsAccepted := bump s.pb.sendsAccepted (postTower k) 1 } }
    s.sendOutcome k a false b

/-- A CLOSED post completes an arrival: discarded, counted, the event raised (R242). -/
def State.closeArrival (s : State) (k : Nat) (a : PostArrival) (b : Nat) : State :=
  s.onBeat b fun s =>
    let s := { s with pb := { s.pb with sendsClosed := bump s.pb.sendsClosed (postTower k) 1 } }
    let s := s.event 0x03#16 (bytesLE (k / 96) 1 ++ bytesLE (k % 96) 1 ++ bytesLE (PostDesc.tag a.desc).toNat 2
      ++ [0#8, 0#8, 0#8, 0#8])
    s.sendOutcome k a true b

/-- Close post `k`: arrivals that wait complete at once (R242). -/
def State.closePost (s : State) (k b : Nat) : State :=
  let p := s.post k
  let s := s.setPost k { p with closed := true, waiting := [] }
  p.waiting.foldl (fun s a => s.closeArrival k a b) s

/-- Close every post of a hall. -/
def State.closeHall (s : State) (h b : Nat) : State :=
  (List.range 96).foldl (fun s i => s.closePost (96 * h + i) b) s

/-! ### END, PSEND and PRECV (R123, R139, R233, R235, R242, R248) -/

/-- END: the core stops and keeps its state, and the posts of its hall close. -/
def execVcEnd (h : HallId) (s : State) : Res :=
  vcRun h (.vcEnd h) ⟨unitS, [], [], 1, 1, false⟩ s fun s v b =>
    (s.setVcore h { v with running := false }).closeHall h b

/-- PSEND: the descriptor is read at issue + 2; the stage answers, and the status goes to SD, at issue + 4. -/
def execPsend (h : HallId) (a : CArgs) (s : State) : Res :=
  let t : VTiming := ⟨unitC, [sKey a.sa], [sKey a.sd], 4, 2, false⟩
  vcRun h (.psend h a) t s fun s v b =>
    let g := (v.sreg a.sa).toNat % 16384
    let key := vPantryKey h
    let r := s.planActs rankOwn (b + 4) (b + 3) (.send h [sKey a.sd])
      (pantryClaims (portData h) key 1 [(g, b + 2)] ++ [Claim.want [] 1 1 1])
      [.read [.pantry key (32 * g) 32], .read []] (.send h g a.sd v.times.storesDone)
    r.1.setVcore h (((r.1.vcore h).retire t b r.2.due).readBy r.2.first)

/-- Timing of PRECV. -/
def timePrecv (a : CArgs) : VTiming := ⟨unitC, [sKey a.sa], [sKey a.sd], 6, 2, false⟩

/-- The post that a PRECV reads (R233). -/
def precvPost (h : HallId) (a : CArgs) : Nat :=
  let sel := (a.imm.setWidth 2).toNat
  96 * h.val + 32 * (if sel = 0 ∨ sel = 3 then 2 else sel - 1) + a.post.toNat

/-- The beat from which the head is visible. -/
def Post.headBeat (p : Post) : Nat := max (p.slots.headD ⟨0#256, 0⟩).visible p.headAt

/-- The status word of a PRECV (Table 8.5). -/
def precvStatus (p : Post) (a : CArgs) : W64 :=
  (p.taken.v + 1) ++ 0#8 ++ BitVec.ofNat 8 (if a.post.toNat < 16 then 0 else p.reserved) ++ BitVec.ofNat 8 (p.occupied - 1) ++ 0#8

/-- PRECV at issue beat `b`: the head moves to the Pantry, the slot is freed, the status goes to SD
(Tables 8.4 and 8.5). -/
def State.doPrecv (s : State) (h : HallId) (a : CArgs) (b : Nat) : State :=
  s.onBeat b fun s =>
    let k := precvPost h a
    let p := s.post k
    let v := { s.vcore h with hold := .free }
    if !p.pairsOk then s.mismatch (hallTower h) 4 (k % 96) (tileOf h 2)
    else
      let g := (v.sreg a.sa).toNat % 16384
      let d := (p.slots.headD ⟨0#256, 0⟩).desc
      let r := ((s.overtake h [sKey a.sd] v id).setVcore h v).dataRun h (.recv h [sKey a.sd]) (b + 6) 1 [(g, b + 2)]
        [.patch (.pantry (vPantryKey h) (32 * g) 32) (BitVec.allOnes 512) (bytesLE d.toNat 32)] .none
      let v := r.1.vcore h
      let v := if a.imm.setWidth 2 = 3#2 then v.flag bitInsReserved else v
      (r.1.setPost k { p with
        taken := Pair32.of (p.taken.v + 1), slots := p.slots.tail, freeAt := b + 2, headAt := b + 1 }).setVcore h
        (((v.setS a.sd (precvStatus p a)).retire (timePrecv a) b r.2.due).storedBy r.2.last)

/-- PRECV holds issue while the post has no descriptor. -/
def execPrecv (h : HallId) (a : CArgs) (s : State) : Res :=
  vcRun h (.precv h a) (timePrecv a) s fun s _ b =>
    let p := s.post (precvPost h a)
    if p.slots.isEmpty then s.holdVcore h (.post (precvPost h a) b)
    else s.doPrecv h a (max b p.headBeat)

/-- A held PRECV issues on the beat its post has a visible head. -/
def execPrecvResume (h : HallId) (s : State) : Res :=
  if s.hallEnabled h.val then
    match (s.vcore h).hold, decodeVector h (s.vcFetch h) with
    | .post k since, .precv _ a =>
      let p := s.post k
      if s.active && (s.vcore h).running && !p.slots.isEmpty then .next (s.doPrecv h a (max since p.headBeat))
      else .next s
    | _, _ => .next s
  else .fault .disabledHall

/-! ### Injection and arrival (R236 to R238) -/

/-- The stage injects nothing while an entry waits at a full post or has been refused. -/
def Stage.blocked (g : Stage) : Bool := g.entries.any fun e => e.held.isSome

/-- Mark an entry of a stage. -/
def Stage.mark (g : Stage) (num : BitVec 32) (st : EntryState) : Stage :=
  { g with entries := g.entries.map fun e => if e.num = num then { e with state := st } else e }

/-- Place of a stage's packets at links and bridges (R236). -/
def stageRank (g : Nat) : Nat := if g = deskStage then rankDesk else rankHall g

/-- How an injected entry stands: one that was refused still holds its stage (R236). -/
def StageEntry.injected (e : StageEntry) : EntryState :=
  match e.held with
  | some b => .retried b
  | none => .flying

/-- Fabric class of a send (Table 12.2). -/
def PostDesc.cls (d : PostDesc) : BitVec 3 := if PostDesc.post d < 16 then clsReq else clsRpl

/-- The gate holds an entry for another member (R356). -/
def State.entryGated (s : State) (e : StageEntry) : Bool := s.away e.desc && s.gated (PostDesc.cls e.desc)

/-- Send an entry on its way on beat `b`: across the mesh, or out of the port its rank resolves to. -/
def State.injectEntry (s : State) (g : Nat) (e : StageEntry) (b : Nat) : State :=
  s.onBeat b fun s =>
    let d : PostDesc := e.desc
    let sender := if g = deskStage then Sender.desk else Sender.core g
    if s.away d then
      match s.routeRank s.ranks.myRank d.rank 0#16 with
      | .port p =>
        let r := s.travel (stageRank g) (.post e.num d)
          (meshRoute 0 0 (stageTower g) (stageTile g) (portTower p) (portTile p)) b
        (r.1.setStage g { (r.1.stage g).mark e.num e.injected with lastInject := b }).sendSingle
          (PostDesc.cls d) 1#8 d.rank (d.setWidth 960)
      | r => s.routeFailed r d.rank s.ranks.myRank 63 0#16
    else
      let r := s.travel (stageRank g) (.post e.num d)
        (meshRoute 0 0 (stageTower g) (stageTile g) (postTower d.key) (postTile d.key)) b
      let s := r.1.setStage g { (r.1.stage g).mark e.num e.injected with lastInject := b }
      { s with pb := { s.pb with flights := s.pb.flights ++ [⟨sender, e.num, d, r.2⟩] } }

/-- The next entry that a stage has to inject. -/
def Stage.next (g : Stage) : Option StageEntry := g.entries.find? fun e => decide (e.state = .staged)

/-- Time passes until the next PSEND of a stage is staged, where none is. -/
def State.awaitSend (s : State) (g : Nat) : State :=
  if (s.stage g).next.isSome then s
  else s.await fun r => match r.sink with
    | .send h _ _ _ => h == g
    | _ => false

/-- A stage injects its next entry (R236). -/
def execStageInject (stage : Fin 193) (s : State) : Res :=
  if s.active && !(s.stage stage).blocked then
    let s := s.awaitSend stage
    let g := s.stage stage
    match g.next with
    | some e => .next (if s.active && !s.entryGated e then s.injectEntry stage e (max (e.stagedAt + 1) (g.lastInject + 1)) else s)
    | none => .next s
  else .next s

/-- Rank of a sender in the ties of R237. -/
def Sender.tie (t : Nat) : Sender → Nat
  | .desk => 0
  | .core h => if hallTower h = t then 1 + h else 200 + h
  | .fabric p => 400 + p

/-- The next arrival at post `k`: the earliest, ties in the order of R237. -/
def nextArrival (k : Nat) (fs : List PostFlight) : Option PostFlight :=
  (fs.filter fun f => PostDesc.key f.desc == k).foldl (fun best f =>
    match best with
    | none => some f
    | some g =>
      if f.arrives < g.arrives ∨ (f.arrives = g.arrives ∧ f.sender.tie (postTower k) < g.sender.tie (postTower k))
      then some f else some g) none

/-- A remote send that finds its post full is refused in class RPL, with its descriptor (R238; the body is the
model's, log row 14). -/
def State.refusePost (s : State) (k : Nat) (d : PostDesc) : State :=
  let s := { s with pb := { s.pb with remoteRefusals := bump s.pb.remoteRefusals (postTower k) 1 } }
  s.sendSingle clsRpl 4#8 d.srank (d.setWidth 960)

/-- Agent code (R229). -/
def Sender.agent : Sender → Nat
  | .core h => tileOf h 2
  | .desk => 208
  | .fabric _ => 210

/-- An arrival that finds post `k` full waits at its input, or is refused (R237, R238). -/
def State.turnAway (s : State) (k : Nat) (a : PostArrival) : State :=
  match a.sender with
  | .fabric _ => s.refusePost k a.desc
  | _ =>
    let g := a.sender.stageOf
    let p := s.post k
    (s.setPost k { p with waiting := p.waiting ++ [a] }).setStage g ((s.stage g).mark a.num (.waiting a.arrived))

/-- An arrival at a post, as the post stands on that beat (R237 to R239, R242). -/
def State.arrivePost (s : State) (k : Nat) (f : PostFlight) : State :=
  let a : PostArrival := ⟨f.sender, f.num, f.desc, f.arrives⟩
  s.onBeat f.arrives fun s =>
    let p := s.post k
    let reply := decide (16 ≤ k % 32) && decide (0 < p.reserved)
    if p.closed then s.closeArrival k a (f.arrives + 3)
    else if !p.pairsOk then s.mismatch (postTower k) 4 (k % 96) f.sender.agent
    else if reply || (p.hasFree && p.waiting.isEmpty) then s.acceptPost k a (max (f.arrives + 3) p.freeAt)
    else s.turnAway k a

/-- The next send arrives at a post, numbered 96 h + 32 c + p. -/
def execPostArrival (post : Fin 18432) (s : State) : Res :=
  if s.hallEnabled (post.val / 96) then
    match nextArrival post s.pb.flights with
    | some f =>
      if s.active then
        .next (({ s with pb := { s.pb with flights := s.pb.flights.erase f } }).arrivePost post f)
      else .next s
    | none => .next s
  else .fault .disabledHall

/-- The arrival that has waited longest at post `k` is accepted on beat `b`, if a slot is still free then. -/
def State.acceptWaiting (s : State) (k : Nat) (a : PostArrival) (b : Nat) : State :=
  s.onBeat b fun s =>
    let p := s.post k
    if p.hasFree then (s.setPost k { p with waiting := p.waiting.tail }).acceptPost k a b else s

/-- The arrival that has waited longest is accepted on the first beat with a free slot (R237). -/
def execPostInputAccept (post : Fin 18432) (s : State) : Res :=
  if s.hallEnabled (post.val / 96) then
    let p := s.post post
    match p.waiting with
    | a :: _ =>
      if s.active && !p.pairsOk then .next (s.mismatch (postTower post) 4 (post % 96) a.sender.agent)
      else if s.active && p.hasFree then .next (s.acceptWaiting post a (max (a.arrived + 3) p.freeAt))
      else .next s
    | [] => .next s
  else .fault .disabledHall

/-- The outcome that reaches a stage next. -/
def nextReturn (g : Nat) (rs : List PostReturn) : Option PostReturn :=
  (rs.filter fun r => r.stage == g).foldl (fun best r =>
    match best with
    | none => some r
    | some q => if r.due < q.due then some r else some q) none

/-- OUTCOME is written in the sender's copy, through the porter port of its Pantry, and ABELL rises where ACK_SIG asks for it
(R240). -/
def State.postOutcome (s : State) (g : Nat) (r : PostReturn) : State :=
  s.onBeat r.due fun s =>
    let s := { s with pb := { s.pb with returns := s.pb.returns.erase r } }
    let s :=
      if g < 192 then
        (s.markAll [pantryBank (vPantryKey g) r.granule] r.due).writeOutcome g r.granule (if r.closed then 2#2 else 1#2)
      else s
    if PostDesc.ackSig r.desc then s.addBell (stageTower g) (PostDesc.abell r.desc) 1 (stageAgent g) 0 else s

/-- The next outcome reaches a stage. -/
def execPostOutcome (stage : Fin 193) (s : State) : Res :=
  match nextReturn stage s.pb.returns with
  | some r => .next (if s.active then s.postOutcome stage r else s)
  | none => .next s

/-- A refused entry is injected again 64 beats after the refusal reached its stage (R238). -/
def execRefusalReinject (stage : Fin 193) (s : State) : Res :=
  match (s.stage stage).entries.findSome? fun e =>
    match e.state with | .refused _ again => some (e, again) | _ => none with
  | some (e, again) => if s.active then .next (s.injectEntry stage e again) else .next s
  | none => .next s

/-- A reader reset inside a running job: its posts close, and the reset is a contained transient fault (R242,
R243). -/
def execReaderReset (h : HallId) (s : State) : Res :=
  if s.hallEnabled h.val then
    if s.active then
      .next ((s.closeHall h s.milestone).raiseIntegrity .transient (hallTower h) 10 0 0 (tileOf h 2))
    else .next s
  else .fault .disabledHall

/-! ### The watchdog (R244 to R246) -/

/-- A hold that the watchdog counts. -/
structure Hold where
  since : Nat
  tower : Nat
  agent : Nat
  kind : Nat
  bell : Option Nat
  /-- The module hall whose vector core or send stage holds; 192 the desk's stage. -/
  stage : Option Nat
  /-- The empty post of a PRECV hold. -/
  post : Option Nat
deriving DecidableEq, Repr

/-- The program image names the bell as idle (R244). -/
def State.idleBell (s : State) (t b : Nat) : Bool :=
  (List.range 4).any fun i => SMap.get 0xFFFF#16 s.pb.idleBell (4 * t + i) == BitVec.ofNat 16 b

/-- Since when a stage is held, and the descriptor that holds it. -/
def Stage.heldSince (g : Stage) : Option (Nat × PostDesc) := g.entries.findSome? fun e => e.held.map fun b => (b, e.desc)

/-- The vector core of hall `h` stands at a TREL, which is no hold of R244. -/
def State.heldTrel (s : State) (h : Nat) : Bool :=
  if hh : h < 192 then
    match decodeVector ⟨h, hh⟩ (s.vcFetch h) with
    | .trel _ _ => true
    | _ => false
  else false

/-- Every hold of R244. -/
def State.holds (s : State) : List Hold :=
  (s.vc.filterMap fun e =>
    let t := hallTower e.1
    match e.2.hold with
    | .bell b _ since _ => if s.idleBell t b.toNat then none else some ⟨since, t, tileOf e.1 2, 1, some b.toNat, some e.1, none⟩
    | .post p since => some ⟨since, t, tileOf e.1 2, 1, none, some e.1, some p⟩
    | .queue _ since => if s.heldTrel e.1 then none else some ⟨since, t, tileOf e.1 2, 1, none, some e.1, none⟩
    | _ => none)
  ++ (s.mc.filterMap fun e =>
    let t := e.1 / 96
    match e.2.hold with
    | .bell b _ since _ => if s.idleBell t b.toNat then none else some ⟨since, t, tileOf (e.1 / 2) (e.1 % 2), 2, some b.toNat, none, none⟩
    | _ => none)
  ++ (s.por.porters.filterMap fun e =>
    match e.2.hold, e.2.queue with
    | some hd, d :: _ =>
      let b := (d.desc.extractLsb' 435 13).toNat
      if s.idleBell (porterTower e.1) b then none
      else some ⟨hd.since, porterTower e.1, porterAgent e.1, 3, some b, none, none⟩
    | _, _ => none)
  ++ (s.pb.stages.filterMap fun e =>
    e.2.heldSince.map fun w => ⟨w.1, stageTower e.1, stageAgent e.1, 4, none, some e.1, none⟩)
  ++ (s.mc.filterMap fun e =>
    e.2.drainWait.map fun since => ⟨since, e.1 / 96, tileOf (e.1 / 2) (e.1 % 2), 5, none, none, none⟩)

/-- The first of the holds that reach the limit: earliest, then by tower, agent code and kind (R245). -/
def firstHold (hs : List Hold) : Option Hold :=
  hs.foldl (fun best h =>
    match best with
    | none => some h
    | some g =>
      let key (x : Hold) := (x.tower * 256 + x.agent) * 8 + x.kind
      if h.since < g.since ∨ (h.since = g.since ∧ key h < key g) then some h else some g) none

/-- Destination of a stage's held entry: its post, where it lies in this module. A post of another member has no code in the
record, and is none there (DEDUCED, log row 124). -/
def State.heldPost (s : State) (g : Nat) : Option Nat :=
  (s.stage g).heldSince.bind fun w => if s.away w.2 then none else some (PostDesc.key w.2)

/-- Posts A and B (R246). -/
def State.watchPosts (s : State) (h : Hold) : Option Nat × Option Nat :=
  let a := match h.stage with
    | some g => match s.heldPost g with | some k => some k | none => h.post
    | none => none
  let b := match a with | some k => s.heldPost (k / 96) | none => none
  (a, b)

/-- The head descriptor of a post, zeros when empty. -/
def State.postHead (s : State) (k : Nat) : BitVec 256 := ((s.post k).slots.headD ⟨0#256, 0⟩).desc

/-- WATCHDOG_RECORD (Table 8.9). -/
def State.watchRecord (s : State) (h : Hold) : BitVec 640 :=
  let p := s.watchPosts h
  let hall (x : Option Nat) : BitVec 8 := match x with | some k => BitVec.ofNat 8 (k / 96) | none => 255#8
  let num (x : Option Nat) : BitVec 7 := match x with | some k => BitVec.ofNat 7 (k % 96) | none => 127#7
  let head (x : Option Nat) : BitVec 256 := match x with | some k => s.postHead k | none => 0#256
  let h0 : W64 := BitVec.ofNat 4 h.kind ++ BitVec.ofNat 2 h.tower ++ BitVec.ofNat 8 h.agent
    ++ BitVec.ofNat 13 (h.bell.getD 0) ++ BitVec.ofBool h.bell.isSome ++ 0#36
  let h1 : W64 := hall p.1 ++ num p.1 ++ hall p.2 ++ num p.2 ++ 0#34
  head p.2 ++ head p.1 ++ h1 ++ h0

/-- A hold count reaches WATCHDOG_BEATS: job-fatal, recorded in WATCHDOG_RECORD (R245). -/
def execWatchdogFire (s : State) : Res :=
  match firstHold s.holds with
  | some h =>
    if s.active then
      .next (s.onBeat (h.since + s.pb.watchdogBeats.toNat) fun s =>
        let r := s.watchRecord h
        ({ s with pb := { s.pb with watchdogRecord := r } }).raiseError .jobFatal 0x3360#16 (BitVec.ofNat 8 h.tower)
          (r.setWidth 64))
    else .next s
  | none => .next s

/-! ### Debug writes (R230, R231, R246, R249) -/

/-- Count a hand action, raise its event and end the job's determinism (R230, R231). -/
def State.handAction (s : State) (index sub : Nat) (inst : BitVec 16) : State :=
  let s := { s with pb := { s.pb with handActions := s.pb.handActions + 1 },
                    job := { s.job with determinismEnded := s.jobLoaded || s.job.determinismEnded } }
  s.event 0x02#16 (bytesLE index 2 ++ bytesLE sub 1 ++ [0#8] ++ bytesLE inst.toNat 2 ++ [0#8, 0#8])

/-- 9000.01: adds AMOUNT to a bell of the instance tower; a bell whose stored pair fails receives nothing, and is raised
(R225). -/
def execBellHandAdd (w : DictWrite) (s : State) : Res :=
  let p := wpair w
  let bell := (p.v.extractLsb' 51 13).toNat
  let amount := (p.v.extractLsb' 0 48).toNat
  let rule : WriteRule := ⟨false, true, !p.ok, fun _ => decide (0 < amount ∧ amount < 2 ^ 47), false, fun _ => false⟩
  .next (s.serveWrite 0x9000 1 w rule false fun s t =>
    (s.handAction 0x9000 1 w.inst).addBell t bell amount 209 0)

/-- 9000.02: removes the head entry of a post; on an empty post nothing changes. A post whose pair fails outside a job is
cleared again (Table 16.3). -/
def execPostDiscardHead (w : DictWrite) (s : State) : Res :=
  let rule : WriteRule := ⟨false, true, false, fun _ => decide (wnum w ≤ 95), false, fun _ => false⟩
  .next (s.serveWrite 0x9000 2 w rule false fun s h =>
    let k := 96 * h + wnum w
    let p := s.post k
    if p.slots.isEmpty then s
    else if !p.pairsOk then
      if s.jobLoaded then s.mismatch (postTower k) 4 (k % 96) 211
      else s.setPost k { Post.empty with closed := p.closed }
    else
      (s.setPost k { p with taken := Pair32.of (p.taken.v + 1), slots := p.slots.tail,
                            freeAt := s.milestone + 1, headAt := s.milestone }).handAction 0x9000 2 w.inst)

end Sys2Proof.Machine
end

