-- ==== Sys2Proof/Machine/Porters.lean ====
section
/-! DEFINITION. Tower and hall porters: receipt, start and checks, source accesses, packets, writes,
completion, signals and staging (spec/07, R138). -/

namespace Sys2Proof.Machine

/-! ### Receipt (R138, R192) -/

/-- Record and raise a porter fault (Table 7.12). -/
def State.porterFault (s : State) (k cause : Nat) (hd : Handed) : State :=
  let t := moverTower k
  let w : W64 := BitVec.ofNat 4 cause ++ BitVec.ofNat 8 (moverAgent k) ++ PDesc.tag hd.desc ++ hd.tile ++ hd.granule
    ++ 0#13
  ({ s with por := { s.por with lastFault := SMap.set 0#64 s.por.lastFault t w } }).raiseError .jobFatal 0x3240#16
    (BitVec.ofNat 8 t) w

/-- Hand a descriptor to a porter. -/
def State.handTo (s : State) (k : Nat) (hd : Handed) : State :=
  let p := s.porter k
  s.setPorter k { p with arriving := p.arriving ++ [hd] }

/-- DESC: the porter that IMM[4:0] selects receives the descriptor 2 beats after issue, and not before every
earlier store has reached its point of coherence; 17 to 31 select none and set INS_RESERVED. -/
def execDesc (h : HallId) (a : CArgs) (s : State) : Res :=
  let t : VTiming := ⟨unitC, [sKey a.sa], [], 2, 2, false⟩
  vcRun h (.desc h a) t s fun s v b =>
    let g := (v.sreg a.sa).toNat % 16384
    let sel := (a.imm.setWidth 5).toNat
    let k := if sel = 0 then 64 + h.val else 16 * hallTower h + (sel - 1)
    let hd : Handed := ⟨0#512, v.times.storesDone, BitVec.ofNat 8 (tileOf h 2), BitVec.ofNat 15 g, none, some h⟩
    let r := s.dataRun h (.send h []) (b + 2) 2 [(g, b + 1)] [.read [.pantry (vPantryKey h) (32 * g) 64]]
      (if 17 ≤ sel then .none else .hand k hd)
    let v := ((r.1.vcore h).retire t b r.2.due).readBy r.2.last
    r.1.setVcore h (if 17 ≤ sel then v.flag bitInsReserved else v)

/-- The descriptor that is due first. -/
def nextHanded (hs : List Handed) : Option Handed :=
  hs.foldl (fun best d =>
    match best with
    | none => some d
    | some e => if d.due < e.due then some d else some e) none

/-- The vector core of a DESC that a full queue kept waiting goes on, `w` beats later. -/
def State.freeCore (s : State) (core : Option Nat) (w : Nat) : State :=
  match core with
  | none => s
  | some h =>
    let v := s.vcore h
    match v.hold with
    | .desc _ _ => s.setVcore h { v with hold := .free, nextIssue := v.nextIssue + w }
    | _ => if w = 0 then s else s.setVcore h { v with nextIssue := v.nextIssue + w }

/-- Time passes until a DESC that porter `k` is still to get, before what it has, has been read. -/
def State.awaitHand (s : State) (k : Nat) : State :=
  let first := (nextHanded (s.porter k).arriving).map (·.due)
  s.await fun r => match r.sink with
    | .hand p hd => p == k && (match first with
      | some d => decide (max r.due hd.due < d)
      | none => true)
    | _ => false

/-- Porter `k` receives descriptor `hd` (R192): a full queue holds it, with its core, in trusting mode, and is a job-fatal
error in guarded mode. -/
def State.receiveDesc (s : State) (k : Nat) (hd : Handed) : State :=
  let q := s.porter k
  let full := decide (16 ≤ q.queue.length)
  if (full || (q.queue.length == 15 && decide (hd.due < q.freedAt))) && s.guarded then
    (s.setPorter k { q with arriving := q.arriving.erase hd }).porterFault k 6 hd
  else if full then
    match hd.core with
    | some h => s.setVcore h { s.vcore h with hold := .desc k hd.due }
    | none => s
  else
    let r := if q.queue.length = 15 then max hd.due q.freedAt else hd.due
    s.onBeat r fun s =>
      let q := s.porter k
      let s := s.setPorter k { q with arriving := q.arriving.erase hd, queue := q.queue ++ [{ hd with due := r }] }
      let w := r - hd.due
      let s := if w = 0 then s
        else { s with por := { s.por with queueFull := bump s.por.queueFull (moverTower k) w } }
      s.freeCore hd.core w

/-- A porter receives the descriptor that is due first. -/
def execDescReceive (p : Fin 256) (s : State) : Res :=
  let k := p.val
  if s.moverThere k then
    if s.moving then
      let s := s.awaitHand k
      match nextHanded (s.porter k).arriving with
      | none => .next s
      | some hd => .next (if s.moving then s.onBeat hd.due fun s => s.receiveDesc k hd else s)
    else .next s
  else .fault .disabledHall

/-! ### Checks at the start (R198, R174, R164) -/

/-- The endpoints that lie in this descriptor: a desk or loader descriptor has no source (R544). -/
def PDesc.ends (d : PDesc) (supplied : Bool) : List Endpoint :=
  if supplied then [PDesc.dst d] else [PDesc.src d, PDesc.dst d]

/-- The cause of a porter fault that the descriptor's words show, the lowest first (log row 16); 0 for none.
A NOP has no endpoints. -/
def State.descCause (s : State) (k : Nat) (d : PDesc) (supplied : Bool) : Nat :=
  let es := PDesc.ends d supplied
  let dst := PDesc.dst d
  let t := moverTower k
  let badTile := PDesc.chain d && (decide (144 ≤ PDesc.ntile d) || !s.hallEnabled (hallOfTile t (PDesc.ntile d)))
  let reserved (e : Endpoint) := e.space == 3 || (e.space == 0 && e.core == 3)
  let copy := PDesc.op d == 1
  let en := s.handle t dst.handle
  let castBad := isHallPorter k || dst.remote || dst.space == 2 || (dst.space == 1 && en.valid && !en.perHall)
  let out (e : Endpoint) := e.remote || (e.tower != t && !(e.space == 2 && decide (24 ≤ e.stackCode)))
  if 1 < PDesc.op d ∨ PDesc.route d = 3 ∨ PDesc.cast d = 3 ∨ PDesc.cls d = 3 ∨ badTile then 1
  else if copy && es.any reserved then 1
  else if copy && PDesc.cast d != 0 && castBad then 2
  else if copy && isHallPorter k && es.any out then 3
  else if copy && !supplied && (PDesc.src d).remote && dst.remote then 5
  else if copy && es.any fun e => e.space == 2 && e.addr % 512 != 0 then 7
  else 0

/-- What the check of one local endpoint answers. -/
inductive EndCheck where
  | good
  /-- A fault is raised. -/
  | stopped (s : State)
  /-- The memory lies in a disabled hall or in no hall (R13; log row 52). -/
  | absent
deriving DecidableEq, Repr

/-- A reserved stack code, which the issuing porter records and raises, be the endpoint local or remote (R174). -/
def State.badStack (s : State) (k : Nat) (e : Endpoint) : State :=
  let t := moverTower k
  let w : W64 := 4#3 ++ 0#3 ++ BitVec.ofNat 38 e.addr ++ BitVec.ofNat 8 (moverAgent k) ++ 0#12
  ({ s with cel := { s.cel with lastError := SMap.set 0#64 s.cel.lastError t w } }).raiseError .jobFatal 0x3130#16
    (BitVec.ofNat 8 t) w

/-- Check an endpoint in module hall `h`. -/
def State.checkEnd (s : State) (k : Nat) (hd : Handed) (e : Endpoint) (h : Nat) : EndCheck :=
  if e.space = 2 && decide (24 ≤ e.stackCode) then .stopped (s.badStack k e)
  else if s.farAway e then .good
  else
    match e.space with
    | 0 => if e.hall < 48 && s.hallEnabled h then .good else .absent
    | 1 =>
      let t := h / 48
      let en := s.handle t e.handle
      if !en.ok then .stopped (s.mismatch t 1 e.handle (moverAgent k))
      else
        match s.endpointFault e h (PDesc.bytes hd.desc) with
        | some f => .stopped (s.handleFault t f.1 e.handle (moverAgent k) f.2)
        | none =>
          if e.groups && !en.grid then .stopped (s.porterFault k 4 hd)
          else if s.hallEnabled (sliceHall (s.sliceAt e h)) && (!en.perHall || e.hall < 48) then .good else .absent
    | _ => .good

/-- Halls that a cast of porter `k` writes (R205): used halls of its tower, and of the group. -/
def State.castHalls (s : State) (k : Nat) (d : PDesc) : List Nat :=
  let used := s.usedHalls
  ((List.range 48).map fun i => 48 * moverTower k + i).filter fun h =>
    used.contains h && (PDesc.cast d == 1
      || (SMap.get 0#192 s.por.hallGroup (PDesc.group d)).getLsbD h)

/-- The destination of a cast names no hall (R205). -/
def PDesc.castEnd (d : PDesc) : Endpoint :=
  if PDesc.cast d = 0 then PDesc.dst d
  else ⟨(PDesc.dst d).e0 &&& ~~~0x7E000000000#64, (PDesc.dst d).e1⟩

/-- The destination of a cast with no receiving hall is a handle that its tower does not bind: in no hall does it resolve,
and nothing looks it up (R162, R166, R205). -/
def State.castNowhere (s : State) (k : Nat) (d : PDesc) (t : Transfer) : Bool :=
  PDesc.cast d != 0 && t.halls.isEmpty && (PDesc.dst d).space == 1
    && !(s.handle (moverTower k) (PDesc.dst d).handle).valid

/-- Check the descriptor's endpoints, the source first. A cast with no receiving hall is checked like any other (R198), and
the memories of its destination are none. -/
def State.checkEnds (s : State) (k : Nat) (hd : Handed) (t : Transfer) : EndCheck :=
  let d := hd.desc
  let first := if hd.supplied.isSome then EndCheck.good else s.checkEnd k hd (PDesc.src d) (PDesc.src d).mhall
  match first with
  | .good =>
    if s.castNowhere k d t then .good
    else
      let none_ := PDesc.cast d != 0 && t.halls.isEmpty
      match s.checkEnd k hd (PDesc.castEnd d) (if none_ then 48 * moverTower k else t.destHall 0) with
      | .absent => if none_ then .good else .absent
      | r => r
  | r => r

/-- The pair of a cast's handle entry fails, before its VALID and KIND are used (R165). -/
def State.castEntryBad (s : State) (k : Nat) (d : PDesc) : Bool :=
  PDesc.op d == 1 && PDesc.cast d != 0 && (PDesc.dst d).space == 1 && !(s.handle (moverTower k) (PDesc.dst d).handle).ok

/-! ### Staging (R210) -/

/-- An ordinary read of whole units in sequence, from a Larder or Cellar source of the module. -/
def State.ordinary (s : State) (t : Transfer) : Bool :=
  let e := PDesc.src t.desc
  t.supplied.isNone && !PDesc.vol t.desc && !s.farAway e && !t.isServe && !e.groups && e.space != 0

/-- Staged unit `x` is unit `u` of the source. -/
def Endpoint.isUnit (e : Endpoint) (u : Nat) (x : StagedUnit) : Bool :=
  if e.space = 1 then
    x.larder && x.tower == e.mhall / 48 && x.name == e.handle && x.hall == e.mhall && x.off == e.row + u * e.stride
  else !x.larder && x.name == e.stackCode && x.off == e.addr + 512 * u * e.stride

/-- Units that a start takes from the staging. -/
def State.stagingHits (s : State) (p : Porter) (t : Transfer) : Nat :=
  let e := PDesc.src t.desc
  let units := ceilDiv (PDesc.bytes t.desc) 512
  let hit (u : Nat) := match p.staging[u]? with
    | some x => decide (u < units) && e.isUnit u x
    | none => false
  if !s.ordinary t then 0 else if hit 0 then (if hit 1 then 2 else 1) else 0

/-- Units that an ordinary read ends by reading ahead. -/
def State.aheadUnits (s : State) (t : Transfer) : Nat :=
  let e := PDesc.src t.desc
  let units := ceilDiv (PDesc.bytes t.desc) 512
  if s.ordinary t && e.stride == 1 then
    if e.space = 1 then min 2 ((s.handle (e.mhall / 48) e.handle).lenm1 + 1 - (e.row + units))
    else min 2 ((stackCapacity e.stackCode - (e.addr + 512 * units)) / 512)
  else 0

/-! ### Starts (R193, R194, R205, R206) -/

/-- Send the source stream of a Cellar descriptor to its controller (R203): what the staging did not supply,
and the read-ahead. -/
def State.sourceStream (s : State) (k : Nat) (t : Transfer) (hits : Nat) : State :=
  let e := PDesc.src t.desc
  let ahead := s.aheadUnits t
  let count := ceilDiv (PDesc.bytes t.desc) 512 - hits + ahead
  if count = 0 then s
  else
    let x := s.stack e.stackCode
    let base := if k < 256 then t.start + 4 else t.lastRead
    let c : CellarStream :=
      { porter := k, agent := BitVec.ofNat 8 (moverAgent k), ident := t.start, write := false,
        addr := e.addr + 512 * e.stride * hits, stride := 512 * e.stride, count, ahead, data := [], len := 0,
        arrive := base + 10 * bridgesOn (moverTower k) e.tower (PDesc.route t.desc),
        order := cellarOrder k e.tower, slots := [], started := 0, ended := 0, taken := [] }
    s.setCtl e.stackCode { x with arriving := x.arriving ++ [c] }

/-- Add a started descriptor to its porter; one that injects nothing lets the next start on the beat after. -/
def State.openTransfer (s : State) (k : Nat) (t : Transfer) : State :=
  let p := s.porter k
  s.setPorter k { p with
    active := p.active ++ [t], startFree := if t.isEmpty then t.start + 1 else p.startFree,
    chain := if PDesc.chain t.desc then
        p.chain ++ [(BitVec.ofNat 8 (PDesc.ntile t.desc), BitVec.ofNat 15 (PDesc.ngran t.desc), t.start)]
      else p.chain }

/-- Take the staged units that the source begins with, check them as reads (R267), and send the stream. -/
def State.beginCopy (s : State) (k : Nat) (t : Transfer) : State :=
  let p := s.porter k
  let e := PDesc.src t.desc
  let n := PDesc.bytes t.desc
  let hits := s.stagingHits p t
  let fault := if hits ≠ 0 ∧ e.space = 1 then s.rowsFault k e e.mhall 0 (min n (512 * hits)) false else none
  match fault with
  | some s' => s'
  | none =>
    let buf := (List.range hits).foldl (fun m u =>
      match p.staging[u]? with
      | some x => m.place (512 * u) (min 512 (n - 512 * u)) x.bytes
      | none => m) t.buf
    let t := { s.markFwd k t 0 (min n (512 * hits)) with buf := buf, reads := hits, readBytes := if t.supplied.isSome ∧ k % 16 ≠ 13 then n else min n (512 * hits) }
    let s := s.setPorter k { p with staging := if hits = 0 || decide (0 < s.aheadUnits t) then [] else p.staging }
    let s := if hits = 0 then s
      else { s with por := { s.por with stagingHits := bump s.por.stagingHits (moverTower k) hits } }
    let s := s.openTransfer k t
    if t.supplied.isNone && !s.farAway e && e.space == 2 then s.sourceStream k t hits else s

/-- Start descriptor `hd` of porter `k`, on beat `b`, which is there (R193, R198, R205). -/
def State.openDescriptor (s : State) (k : Nat) (hd : Handed) (b : Nat) : Res :=
  let p := s.porter k
  let d := hd.desc
  let s := s.setPorter k { p with queue := p.queue.tail, hold := none, tag := PDesc.tag d, freedAt := b }
  if s.castEntryBad k d then .next (s.mismatch (moverTower k) 1 (PDesc.dst d).handle (moverAgent k))
  else
    match s.descCause k d hd.supplied.isSome with
    | 0 =>
      let t := { Transfer.begin d b hd.tile hd.granule with
        supplied := hd.supplied, buf := hd.supplied.getD [],
        halls := if PDesc.op d = 1 ∧ PDesc.cast d ≠ 0 then s.castHalls k d else [] }
      match if PDesc.op d = 0 then EndCheck.good else s.checkEnds k hd t with
      | .good =>
        .next (if t.isEmpty then (s.setPorter k { s.porter k with staging := [] }).openTransfer k { t with lastWrite := b }
          else s.beginCopy k t)
      | .stopped s' => .next s'
      | .absent => .fault .disabledHall
    | c => .next (s.porterFault k c hd)

/-- Start the head descriptor of porter `k` on beat `b`. -/
def State.startDescriptor (s : State) (k : Nat) (hd : Handed) (b : Nat) : Res :=
  let s := s.toBeat b
  if s.moving then s.openDescriptor k hd b else .next s

/-- On beat `b` porter `k` first looks at the bell that its next descriptor waits on. -/
def State.tryStart (s : State) (k : Nat) (hd : Handed) (b : Nat) : Res :=
  let s := s.toBeat b
  let bell := s.bell (moverTower k) (PDesc.wbell hd.desc)
  if !s.moving then .next s
  else if !bell.ok then .next (s.mismatch (moverTower k) 3 (PDesc.wbell hd.desc) (moverAgent k))
  else if bellMet bell.count (PDesc.wtarget hd.desc) then s.openDescriptor k hd b
  else .next (s.setPorter k { s.porter k with hold := some ⟨b, none⟩ })

/-- A porter starts its next descriptor at S0, or waits on its bell. -/
def execDescriptorStart (p : Fin 256) (s : State) : Res :=
  let k := p.val
  if s.moverThere k then
    let q := s.porter k
    match q.queue, q.hold with
    | hd :: _, none =>
      if s.moving && !(q.active.any fun t => decide (t.injected < s.toInject k t)) then
        if PDesc.wt hd.desc then s.tryStart k hd (max hd.due q.startFree)
        else s.startDescriptor k hd (max hd.due q.startFree)
      else .next s
    | _, _ => .next s
  else .fault .disabledHall

/-- A start held by WT falls 3 beats after the bell first meets its target, or on S0 where the bell met it there (R193,
R223). -/
def execDescriptorWaitMet (p : Fin 256) (s : State) : Res :=
  let k := p.val
  if s.moverThere k then
    match (s.porter k).queue, (s.porter k).hold with
    | hd :: _, some ⟨since, some met⟩ => if s.moving then s.startDescriptor k hd (waitEnds since met) else .next s
    | _, _ => .next s
  else .fault .disabledHall

/-- Bytes of a granule of a Pantry. -/
def State.granule (s : State) (key g : Nat) : BitVec 256 := BitVec.ofNat 256 (s.pantryLE key (32 * g) 32)

/-- Porter `k` reads the next descriptor of a chain that began at `b`: a granule on each of two beats (R194). -/
def State.fetchChain (s : State) (k : Nat) (tile : BitVec 8) (gran : BitVec 15) (b : Nat) : State :=
  let key := 3 * hallOfTile (moverTower k) tile.toNat + tile.toNat % 3
  let g := gran.toNat % (pantrySize key / 32)
  let g' := (g + 1) % (pantrySize key / 32)
  let s := (s.markAll [pantryBank key g] (b + 1)).markAll [pantryBank key g'] (b + 2)
  let s := s.toBeat (b + 1)
  let lo := s.granule key g
  s.onBeat (b + 2) fun s =>
    (s.setPorter k { s.porter k with chain := (s.porter k).chain.tail }).handTo k
      ⟨s.granule key g' ++ lo, b + 6, tile, gran, none, none⟩

/-- The next descriptor of a chain is read at S + 1 and S + 2, and joins the queue at S + 6 (R194). -/
def execChainFetch (p : Fin 256) (s : State) : Res :=
  let k := p.val
  if s.moverThere k then
    match (s.porter k).chain with
    | [] => .next s
    | (tile, gran, b) :: _ => .next (if s.moving then s.fetchChain k tile gran b else s)
  else .fault .disabledHall

/-! ### Source accesses (R201, R209, R210) -/

/-- The injection slot of packet `x` (R201); a read context has none. -/
def slotOf (k : Nat) (t : Transfer) (x : Nat) : Nat :=
  if 256 ≤ k then 0 else t.start + 12 + (if isHallPorter k then x else x / 2)

/-- Accesses of the source: its units, and the read-ahead of a Larder source. -/
def State.sourceTotal (s : State) (t : Transfer) : Nat :=
  (PDesc.src t.desc).accesses (PDesc.bytes t.desc) + s.aheadUnits t

/-- The transfer makes its own source accesses, and has some left. -/
def State.readsLeft (s : State) (k : Nat) (t : Transfer) : Bool :=
  t.supplied.isNone && !t.isEmpty && !s.farSource t && (decide (k < 256) || t.isServe)
    && (PDesc.src t.desc).space != 2 && decide (t.reads < s.sourceTotal t)

/-- An access at beat `b` supplies the bytes up to `hi`: packets now complete may inject 8 beats later. -/
def Transfer.supply (t : Transfer) (hi b : Nat) : Transfer :=
  let n := PDesc.bytes t.desc
  let done (x : Nat) := if x = n then ceilDiv n 128 else x / 128
  { t with
    readBytes := hi, lastRead := b, reads := t.reads + 1,
    avail := (List.range (done hi - done t.readBytes)).foldl (fun m i => SMap.set 0 m (done t.readBytes + i) (b + 8)) t.avail }

/-- Count the slice beats of a column group beyond the first (3020.03). -/
def State.gridSerial (s : State) (e : Endpoint) (slice : Nat) (js : List Nat) : State :=
  let n := if e.groups then (js.filter fun j => decide (j % e.groupBeats ≠ 0)).length else 0
  if n = 0 then s
  else { s with ld := { s.ld with gridSerial := bump s.ld.gridSerial (sliceHall slice) n } }

/-- The accesses that belong together from access `j` on: the beats of a column group, which hold the slice (R156). -/
def Endpoint.together (e : Endpoint) (n j : Nat) : List Nat :=
  if e.groups then
    (List.range (min (e.groupBeats - j % e.groupBeats) (e.accesses n - j))).map fun i => j + i
  else [j]

/-- Accesses of a transfer's source from access `t.reads` on: a Pantry access is made on its beat, a row or the beats of a
column group are planned, and each reads when its beat passes (R151, R156, R201). -/
def State.sourceAccess (s : State) (k : Nat) (t : Transfer) : State :=
  let e := PDesc.src t.desc
  let h := e.mhall
  let n := PDesc.bytes t.desc
  let js := e.together n t.reads
  let spans := js.map (e.access n)
  let b := max (slotOf k t ((spans.headD (0, 0)).1 / 128) - 8 + t.shift) (t.lastRead + 1)
  if e.space = 0 then
    s.onBeat b fun s =>
      let sp := spans.headD (0, 0)
      let s := s.markBanks e h sp.1 sp.2 b
      s.updTransfer k t.start fun t =>
        { s.markFwd k t sp.1 sp.2 with buf := s.readInto e h sp.1 sp.2 t.buf }.supply sp.2 b
  else
    s.onBeat b fun s =>
      let slice := s.sliceAt e h
      let r := s.grantSlice (moverRank k) (.source k t.start) slice b (spans.map fun sp => .source k t.start sp.1 sp.2)
      (r.1.gridSerial e slice js).updTransfer k t.start fun t =>
        { (spans.zip (r.2.claims.map (·.beat))).foldl (fun t x => t.supply x.1.2 x.2) t with
          shift := t.shift + (r.2.last - (b + js.length - 1)) }

/-- The next unit that a read of the Larder reads ahead (R210): a slice beat of the descriptor, after its last access. -/
def State.aheadAccess (s : State) (k : Nat) (t : Transfer) : State :=
  let e := PDesc.src t.desc
  let n := PDesc.bytes t.desc
  let b := max (t.start + 4) (t.lastRead + 1)
  s.onBeat b fun s =>
    let r := s.grantSlice (moverRank k) (.source k t.start) (s.sliceAt e e.mhall) b
      [.ahead k t.start (ceilDiv n 512 + (t.reads - e.accesses n))]
    r.1.updTransfer k t.start fun t => { t with reads := t.reads + 1, lastRead := r.2.last }

/-- A porter, or a read context of a port, makes its next source access. -/
def execPorterSourceAccess (m : Mover) (s : State) : Res :=
  let k := moverKey m
  if s.moverThere k then
    match (s.transfers k).find? (s.readsLeft k) with
    | some t =>
      let own := decide (t.reads < (PDesc.src t.desc).accesses (PDesc.bytes t.desc))
      .next (if !s.moving then s else if own then s.sourceAccess k t else s.aheadAccess k t)
    | none => .next s
  else .fault .disabledHall

/-! ### Packets (R197, R199 to R205, R308) -/

/-- Note that packet `x` entered its first link at `enter`. -/
def Transfer.injectedAt (t : Transfer) (plane enter : Nat) : Transfer :=
  { t with injected := t.injected + 1, lastInject := max t.lastInject enter,
           lastLower := if plane = 0 then enter else t.lastLower,
           lastUpper := if plane = 0 then t.lastUpper else enter }

/-- After the last packet of a descriptor the next may start (R193). -/
def State.noteInjected (s : State) (k start : Nat) : State :=
  if k < 256 then
    match (s.porter k).active.find? fun t => t.start == start with
    | some t =>
      if t.injected = s.toInject k t then s.setPorter k { s.porter k with startFree := t.lastInject + 1 } else s
    | none => s
  else s

/-- Fabric class of a descriptor. -/
def fabricClass (d : PDesc) : BitVec 3 := BitVec.ofNat 3 (PDesc.cls d + 1)

/-- What an acknowledgement names: W0, the destination and W5 (the model's, log row 14). -/
def ackKey (w0 : W64) (dest : BitVec 128) (w5 : W64) : BitVec 256 := w5 ++ dest ++ w0

def PDesc.ackKey (d : PDesc) : BitVec 256 :=
  Machine.ackKey (PDesc.word d 0) (PDesc.word d 4 ++ PDesc.word d 3) (PDesc.word d 5)

/-- Output ports of a HEAD for rank `drank` (R329, R335, R340, R341), or the route's fault. -/
def State.outPorts (s : State) (drank tag : BitVec 16) (cls : BitVec 3) : List Nat × RouteTo :=
  let me := s.ranks.myRank
  if isMulticast drank && s.ranks.gridCols != 0#16 then
    let a := s.axisOf drank me
    if cls ≠ clsColl ∨ a.n ≤ 1 then ([], .fault 3)
    else
      let dirs := [true, false].filter a.sends
      match dirs.mapM fun plus => s.axisPort drank plus me tag with
      | none => ([], .fault 3)
      | some ps => if ps.all fun p => (s.port p).carriesJob then (ps, .port 0) else ([], .fault 4)
  else
    match s.routeRank me drank tag with
    | .port p => ([p], .port p)
    | r => ([], r)

/-- Acknowledgements that a transfer to a rank waits for (R343). -/
def State.acksFor (s : State) (drank : BitVec 16) : Nat :=
  if isMulticast drank && s.ranks.gridCols != 0#16 then (s.axisOf drank s.ranks.myRank).n - 1 else 1

/-- An own flit of a transfer. -/
def State.ownFlit (s : State) (p : Nat) (type : BitVec 4) (cls : BitVec 3) (xfer : Nat) (payload : BitVec 1024)
    (ends : Bool) : OutFlit :=
  ⟨type, cls, s.outVc p none, 0#6, none, xfer, none, payload, none, ends, false⟩

/-- Open a transfer on each port with its HEAD: the state and the transfer numbers. -/
def State.sendHeads (s : State) (cls : BitVec 3) (head : BitVec 1024) : List Nat → State × List (Nat × Nat)
  | [] => (s, [])
  | p :: ps =>
    let r := s.newXfer p
    let s := r.1.enqueue p [r.1.ownFlit p typeHead cls r.2 head false]
    let q := s.sendHeads cls head ps
    (q.1, (p, r.2) :: q.2)

/-- The bytes of packet `x` as a payload (R308). -/
def Transfer.packet (t : Transfer) (x : Nat) : BitVec 1024 :=
  BitVec.ofNat 1024 (t.buf.readLE (128 * x) (min 128 (PDesc.bytes t.desc - 128 * x)))

/-- The HEAD's transfer needs output ports, none of which a circuit claims for its class (R321). -/
def State.openHead (s : State) (k : Nat) (t : Transfer) (drank : BitVec 16) (cls : BitVec 3) (head : BitVec 1024) :
    State × Bool :=
  let tag := PDesc.tag t.desc
  match s.outPorts drank tag cls with
  | ([], r) => (s.routeFailed r drank s.ranks.myRank 63 tag, false)
  | (ps, _) =>
    match ps.find? fun p => s.claimed p cls with
    | some p =>
      let label := (((s.port p).freeLabel cls (s.outVc p none)).getD 0#10).toNat
      (s.linkError p (linkErrorWord 8 0 0 label cls.toNat) .jobFatal, false)
    | none =>
      let r := s.sendHeads cls head ps
      (r.1.updTransfer k t.start fun t => { t with outs := r.2 }, true)

end Sys2Proof.Machine
end

