-- ==== Sys2Proof/Machine/Packets.lean ====
section
/-! DEFINITION. Packets on the way: injection, writes at the destination, completion, acknowledgements and
signals (R197 to R207, R308, R331, R544). -/

namespace Sys2Proof.Machine

/-! ### Injection -/

/-- Send the request of a remote read: a REQ HEAD (R331). -/
def State.sendRequest (s : State) (k : Nat) (t : Transfer) : State × Bool :=
  let d := t.desc
  let drank := (PDesc.src d).rank
  s.openHead k t drank clsReq (routeBlock drank s.ranks.myRank (PDesc.word d 0) (PDesc.word d 4 ++ PDesc.word d 3)
    (PDesc.word d 2 ++ PDesc.word d 1) (PDesc.word d 5))

/-- Inject the request of a remote read on beat `b`. -/
def State.injectRequest (s : State) (k : Nat) (t : Transfer) (b : Nat) : State :=
  s.onBeat b fun s =>
    let r := s.sendRequest k t
    if r.2 then (r.1.updTransfer k t.start fun t => t.injectedAt 0 b).noteInjected k t.start else r.1

/-- The last packet of a descriptor for another member has left: its acknowledgements are to come (R206, R343). -/
def State.oweAcks (s : State) (k : Nat) (t : Transfer) : State :=
  let n := s.acksFor (PDesc.dst t.desc).rank
  s.updTransfer k t.start fun t => { t with acks := some n, heldLast := [] }

/-- The last packet of a job-scope signal waits at its ports until every earlier descriptor of the porter has completed: a
remote one with its acknowledgement (R207), a local one with its write (R208, R213; DEDUCED, log row 125). -/
def State.holdsLast (s : State) (k : Nat) (t : Transfer) : Bool :=
  PDesc.sig t.desc && PDesc.scope t.desc == 3 && ((s.porter k).active.head?.map (·.start)) != some t.start

/-- A packet leaves the module at the ports of its transfer, in the transfer's class. -/
def State.sendPacket (s : State) (k : Nat) (t : Transfer) (x : Nat) (cls : BitVec 3) : State :=
  let serve := t.isServe
  let last := x + 1 == PDesc.packets t.desc
  let type := if last then typeLast else typeData
  let fs := t.outs.map fun o => (o.1, s.ownFlit o.1 type cls o.2 (t.packet x) (serve && last))
  if last && !serve && s.holdsLast k t then s.updTransfer k t.start fun t => { t with heldLast := fs }
  else
    let s := fs.foldl (fun s f => s.enqueue f.1 [f.2]) s
    if last && !serve then s.oweAcks k t else s

/-- The oldest descriptor of a porter has no earlier one to wait for: a last packet that its ports hold leaves. -/
def State.releaseLast (s : State) (k : Nat) : State :=
  match (s.porter k).active with
  | t :: _ =>
    if t.heldLast.isEmpty then s else (t.heldLast.foldl (fun s f => s.enqueue f.1 [f.2]) s).oweAcks k t
  | [] => s

/-- A read context whose last packet has left is free (R351). -/
def State.freeContext (s : State) (k : Nat) (t : Transfer) (x : Nat) : State :=
  if t.isServe && x + 1 == PDesc.packets t.desc then
    s.setTransfers k ((s.transfers k).filter fun y => y.start != t.start)
  else s

/-- A packet bound for another member: to the port's attachment tile, then onto the port behind its HEAD. -/
def State.injectFar (s : State) (k : Nat) (t : Transfer) (x plane b : Nat) : State :=
  let d := t.desc
  let drank := if t.isServe then t.srank else (PDesc.dst d).rank
  let cls := if t.isServe then clsRpl else fabricClass d
  s.onBeat b fun s =>
    let head := routeBlock drank s.ranks.myRank (PDesc.word d 0) (PDesc.word d 4 ++ PDesc.word d 3) 0#128
      (PDesc.word d 5)
    let r := if x = 0 then s.openHead k t drank cls head else (s, true)
    if r.2 then
      match r.1.transferAt k t.start with
      | none => r.1
      | some t =>
        let q := r.1.spread k t.start x plane (PDesc.route d) (r.1.meshEntry k t) b
          (t.outs.map fun o => (portTower o.1, portTile o.1))
        let s := q.1.updTransfer k t.start fun t => t.injectedAt plane q.2.1
        ((s.sendPacket k t x cls).noteInjected k t.start).freeContext k t x
    else r.1

/-- A packet bound for memories of the module. -/
def State.injectNear (s : State) (k : Nat) (t : Transfer) (x plane b : Nat) : State :=
  let d := t.desc
  s.onBeat b fun s =>
    let places := (List.range t.dests).map fun j => s.routerOf (PDesc.dst d) (t.destHall j)
    let q := s.spread k t.start x plane (PDesc.route d) (s.meshEntry k t) b places
    let flights := (List.range t.dests).zip q.2.2 |>.map fun e => (⟨x, e.1, e.2⟩ : Flight)
    let due := (PDesc.dst d).remote && decide (PDesc.cls d < 2)
    (q.1.updTransfer k t.start fun t =>
      { t.injectedAt plane q.2.1 with
        buf := t.forwarded (128 * x) (min (PDesc.bytes d) (128 * (x + 1))), flights := t.flights ++ flights,
        injBeats := if due then SMap.put t.injBeats x b else t.injBeats }).noteInjected k t.start

/-- The next flit of a transfer is the HEAD of a class that the gate holds (R356). -/
def State.headGated (s : State) (k : Nat) (t : Transfer) : Bool :=
  t.injected == 0 && (if k < 256 && s.farSource t then s.gated clsReq
    else if t.isServe then s.gated clsRpl
    else s.farAway (PDesc.dst t.desc) && s.gated (fabricClass t.desc))

/-- The transfer whose next packet may inject. -/
def State.injectable (s : State) (k : Nat) (t : Transfer) : Bool :=
  decide (t.injected < s.toInject k t) && !s.headGated k t
    && (s.farSource t || decide (min (128 * (t.injected + 1)) (PDesc.bytes t.desc) ≤ t.readBytes))

/-- Inject the next packet of a transfer (R201, R203, R544). -/
def State.injectPacket (s : State) (k : Nat) (t : Transfer) : State :=
  let x := t.injected
  let plane := if isHallPorter k then 0 else x % 2
  let prev := if plane = 0 then t.lastLower else t.lastUpper
  let b := max (max (slotOf k t x) (SMap.get 0 t.avail x)) (prev + 1)
  if k < 256 && s.farSource t then s.injectRequest k t b
  else if t.isServe || s.farAway (PDesc.dst t.desc) then s.injectFar k t x plane b
  else s.injectNear k t x plane b

/-- A mover injects its next packet. -/
def execPacketInject (m : Mover) (s : State) : Res :=
  let k := moverKey m
  if s.moverThere k then
    match (s.transfers k).find? (s.injectable k) with
    | some t => if s.moving then .next (s.injectPacket k t) else .next s
    | none => .next s
  else .fault .disabledHall

/-- Porter 13 of the tower whose loader descriptor, in order of start and tower, has packets that the landing
buffer has not delivered. -/
def State.landingNext (s : State) : Option (Nat × Transfer) :=
  ([0, 1, 2, 3].filterMap fun t =>
    ((s.porter (16 * t + 13)).active.find? fun x =>
      x.supplied.isSome && decide (x.readBytes < PDesc.bytes x.desc)).map fun x => (16 * t + 13, x)).foldl
    (fun best e =>
      match best with
      | none => some e
      | some f => if e.2.start < f.2.start then some e else some f) none

/-- The landing buffer delivers the next packet of transfer `t` of porter `k` on beat `b` (R544). -/
def State.landPacket (s : State) (k : Nat) (t : Transfer) (b : Nat) : State :=
  let s := { s with por := { s.por with
    landBeat := b, landCount := if b = s.por.landBeat then s.por.landCount + 1 else 1 } }
  s.updTransfer k t.start fun t =>
    { t with readBytes := min (PDesc.bytes t.desc) (t.readBytes + 128),
             avail := SMap.set 0 t.avail (t.readBytes / 128) (b + 1) }

/-- The landing buffer delivers a packet, at most 8 on a beat; it may inject on the beat after (R544). -/
def execLandingDeliver (s : State) : Res :=
  match s.landingNext with
  | none => .next s
  | some (k, t) =>
    let b0 := max t.start s.por.landBeat
    let b := if b0 = s.por.landBeat ∧ 8 ≤ s.por.landCount then b0 + 1 else b0
    .next (if s.moving then s.onBeat b fun s => s.landPacket k t b else s)

/-! ### Writes at the destination (R160, R201, R203) -/

/-- Plan the write of spans of bytes of a transfer to a Larder region, one after another from beat `b` on; those of one
column group hold the slice (R151, R156). The bytes are those that the packets carry. -/
def State.writeLines (s : State) (k : Nat) (t : Transfer) (h x b : Nat) (spans : List (Nat × Nat)) : State :=
  let e := PDesc.dst t.desc
  let slice := s.sliceAt e h
  let acts := spans.map fun sp =>
    Act.line k t.start e.e0 e.e1 h sp.1 sp.2 (t.buf.filter fun c => decide (sp.1 ≤ c.1 ∧ c.1 < sp.2)) t.srank
      (s.duesOf t sp.1 sp.2)
  let r := s.grantSlice (moverRank k) (.write k t.start x) slice b acts
  (r.1.gridSerial e slice (spans.map fun sp => e.accessOf sp.1)).updTransfer k t.start fun t =>
    { t with lastWrite := max t.lastWrite r.2.last }

/-- A stream of writes to a Cellar destination, 2 beats after its last packet arrived (R203). -/
def State.writeStream (s : State) (k : Nat) (t : Transfer) : State :=
  let e := PDesc.dst t.desc
  let n := PDesc.bytes t.desc
  let count := ceilDiv n 512
  let x := s.stack e.stackCode
  let c : CellarStream :=
    { porter := k, agent := BitVec.ofNat 8 (moverAgent k), ident := t.start, write := true, addr := e.addr,
      stride := 512 * e.stride, count, ahead := 0, data := t.buf, len := n, arrive := t.lastArrive + 2,
      order := cellarOrder k e.tower, slots := [], started := 0, ended := 0, taken := [] }
  (s.setCtl e.stackCode { x with arriving := x.arriving ++ [c] }).updTransfer k t.start fun t => { t with blocksLeft := some count }

/-- Accesses of the destination that packet `f` of `t`, arrived, has completed: row by row, and by column group where the
beats of one were completed together (R156, R160). -/
def Transfer.completed (t : Transfer) (f : Flight) : List (List (Nat × Nat)) :=
  let e := PDesc.dst t.desc
  let n := PDesc.bytes t.desc
  let j0 := e.accessOf (128 * f.packet)
  let j1 := e.accessOf (min n (128 * f.packet + 128) - 1)
  let js := ((List.range (j1 + 1 - j0)).map fun i => j0 + i).filter fun j =>
    let r := e.access n j
    t.arrived r.1 r.2 f.dest
  (js.splitBy fun i j => e.groups && i / e.groupBeats == j / e.groupBeats).map fun g => g.map (e.access n)

/-- Packet `f` has reached its router: a Larder row or line that it completes, or in a word-atomic region the packet, is
written 5 beats later (R160, R201); a Cellar destination gets its stream. -/
def State.packetReaches (s : State) (k : Nat) (t : Transfer) (f : Flight) : State :=
  let e := PDesc.dst t.desc
  let h := t.destHall f.dest
  let t := { t with flights := t.flights.erase f, lastArrive := max t.lastArrive f.arrives }
  let s := s.updTransfer k t.start fun _ => t
  if e.space = 1 then
    let en := s.handle (h / 48) e.handle
    let groups := if en.grid && en.wordAtomic
      then [[(128 * f.packet, min (PDesc.bytes t.desc) (128 * f.packet + 128))]] else t.completed f
    groups.foldl (fun s g => s.writeLines k t h f.packet (f.arrives + 5) g) s
  else if t.flights.isEmpty && t.injected == PDesc.packets t.desc then s.writeStream k t
  else s

/-- A packet is written into a Pantry on beat `b`, 5 after it reached its router (R201). -/
def State.packetStored (s : State) (k : Nat) (t : Transfer) (f : Flight) (b : Nat) : State :=
  let lo := 128 * f.packet
  let hi := min (PDesc.bytes t.desc) (lo + 128)
  let h := t.destHall f.dest
  let s := s.updTransfer k t.start fun t =>
    { t with flights := t.flights.erase f, lastArrive := max t.lastArrive f.arrives, lastWrite := max t.lastWrite b }
  let s := (s.markBanks (PDesc.dst t.desc) h lo hi b).writeOut (PDesc.dst t.desc) h lo hi t.buf
  s.slipCheck k t.srank (s.duesOf t lo hi) b

/-- A packet arrives and what it completes is written. -/
def State.packetArrives (s : State) (k : Nat) (t : Transfer) (f : Flight) : State :=
  let pantry := (PDesc.dst t.desc).space == 0
  s.onBeat (if pantry then f.arrives + 5 else f.arrives) fun s =>
    match s.transferAt k t.start with
    | none => s
    | some t => if pantry then s.packetStored k t f (f.arrives + 5) else s.packetReaches k t f

/-- The packet that arrives next among the mover's transfers. -/
def nextFlight (ts : List Transfer) : Option (Transfer × Flight) :=
  ts.foldl (fun best t =>
    t.flights.foldl (fun best f =>
      match best with
      | none => some (t, f)
      | some (_, g) => if f.arrives < g.arrives then some (t, f) else best) best) none

/-- A mover's next packet reaches its destination and is written. -/
def execPacketWrite (m : Mover) (s : State) : Res :=
  let k := moverKey m
  if s.moverThere k then
    match nextFlight (s.transfers k) with
    | some (t, f) => if s.moving then .next (s.packetArrives k t f) else .next s
    | none => .next s
  else .fault .disabledHall

/-! ### Completion and signals (R206, R207, R308, R343) -/

/-- Beat on which a transfer's last packet was written, if it was: for a destination in another member the beat on which the
acknowledgement of that write arrived, the first at which this member knows of it (R206; DEDUCED, log row 126). -/
def State.doneAt (s : State) (k : Nat) (t : Transfer) : Option Nat :=
  let e := PDesc.dst t.desc
  if t.isEmpty then some t.start
  else if k < 256 && s.farSource t then (if t.closed then some t.lastWrite else none)
  else if k < 256 && s.farAway e then (if t.acks = some 0 then some t.lastWrite else none)
  else if t.injected = PDesc.packets t.desc ∧ t.flights.isEmpty ∧ (e.space ≠ 2 ∨ t.blocksLeft = some 0)
    ∧ (k < 256 ∨ t.closed) then some t.lastWrite
  else none

/-- The signals of a mover. -/
def State.signalsOf (s : State) (k : Nat) : List PorterSignal :=
  if k < 256 then (s.porter k).signals else SMap.get [] s.por.inboundSignals (k - 256)

def State.setSignals (s : State) (k : Nat) (xs : List PorterSignal) : State :=
  if k < 256 then s.setPorter k { s.porter k with signals := xs }
  else { s with por := { s.por with inboundSignals := SMap.set [] s.por.inboundSignals (k - 256) xs } }

/-- The signal of a descriptor that completed at `c`, with the tower of its destination. -/
def signalOf (d : PDesc) (tower c rank : Nat) : List PorterSignal :=
  if PDesc.sig d && PDesc.sinc d != 0 then
    [⟨PDesc.stower d, PDesc.sbell d, PDesc.sinc d, c + 6 + 10 * bridgesOn tower (PDesc.stower d) 0, rank⟩]
  else []

/-- A porter's oldest descriptor completes at `c`: every earlier one has, so its signal has nothing else to wait for (R206,
R207), and a last packet that waited behind it leaves. -/
def State.completePorter (s : State) (k : Nat) (t : Transfer) (c : Nat) : State :=
  let p := s.porter k
  let d := t.desc
  let far := !t.isEmpty && s.farAway (PDesc.dst d)
  let tower := if t.isEmpty || PDesc.cast d != 0 then moverTower k else (PDesc.dst d).tower
  let sigs := if far then [] else signalOf d tower c 0
  let s := s.setPorter k { p with active := p.active.tail, lastDone := c, signals := p.signals ++ sigs }
  let s : State := { s with por := { s.por with done := bump s.por.done (moverTower k) 1 } }
  let s := s.releaseLast k
  if isLoaderPorter k && t.supplied.isSome then s.loaderWritten (k / 16) else s

/-- The porter and descriptor that wait for read data with these words (R331). -/
def State.readerOf (s : State) (key : BitVec 256) : Option (Nat × Transfer) :=
  s.por.porters.findSome? fun e =>
    (e.2.active.find? fun t => s.farSource t && !t.isEmpty && !t.closed && PDesc.ackKey t.desc == key).map fun t => (e.1, t)

/-- A transfer of another member completes at `c`: read data closes its descriptor; a write applies its signal
and is acknowledged. -/
def State.completeFabric (s : State) (k : Nat) (t : Transfer) (c : Nat) : State :=
  let s := s.setTransfers k ((s.transfers k).filter fun y => y.start != t.start)
  let d := t.desc
  if t.cls = clsRpl then
    match s.readerOf (PDesc.ackKey d) with
    | some (q, r) => s.updTransfer q r.start fun r => { r with closed := true, lastWrite := max r.lastWrite c }
    | none => s
  else
    let sigs := signalOf d (PDesc.dst d).tower c t.srank.toNat
    let s := s.setSignals k (s.signalsOf k ++ sigs)
    s.sendSingle clsRpl 3#8 t.srank ((PDesc.ackKey d).setWidth 960)

/-- A transfer of a mover completes on beat `c`, in the way `f`, if it is still there. -/
def State.completeAt (s : State) (k : Nat) (t : Transfer) (c : Nat) (f : State → Nat → Transfer → Nat → State) : State :=
  s.onBeat c fun s =>
    match s.transferAt k t.start with
    | none => s
    | some t => f s k t c

/-- A descriptor completes: the oldest of a porter, or one that arrived on a port. -/
def execDescriptorComplete (m : Mover) (s : State) : Res :=
  let k := moverKey m
  if s.moverThere k then
    if s.moving then
      if k < 256 then
        match (s.porter k).active with
        | t :: _ =>
          match s.doneAt k t with
          | some c => .next (s.completeAt k t (max c (s.porter k).lastDone) State.completePorter)
          | none => .next s
        | [] => .next s
      else
        match (s.transfers k).findSome? fun t => (if t.isServe then none else s.doneAt k t).map fun c => (t, c) with
        | some (t, c) => .next (s.completeAt k t c State.completeFabric)
        | none => .next s
    else .next s
  else .fault .disabledHall

/-- The transfer waits for the acknowledgement that these words name. -/
def State.awaits (s : State) (key : BitVec 256) (t : Transfer) : Bool :=
  !t.isEmpty && s.farAway (PDesc.dst t.desc) && PDesc.ackKey t.desc == key && t.acks != none && t.acks != some 0

/-- The porter and the oldest of its descriptors that wait for the acknowledgement that these words name. -/
def State.awaiting (s : State) (key : BitVec 256) : Option (Nat × Transfer) :=
  s.por.porters.findSome? fun e => (e.2.active.find? (s.awaits key)).map fun t => (e.1, t)

/-- The oldest acknowledgement that has arrived returns to its porter: one less is to come for the descriptor that it names
(R206, R343). -/
def execWriteAckReceive (s : State) : Res :=
  match s.ranks.acks with
  | [] => .next s
  | f :: rest =>
    let s := { s with ranks := { s.ranks with acks := rest } }
    match s.awaiting ((singleBody f).setWidth 256) with
    | none => .next s
    | some (k, t) => .next (s.updTransfer k t.start fun t =>
        { t with acks := t.acks.map (· - 1), lastWrite := max t.lastWrite s.milestone })

/-- The signal that is due next. -/
def nextSignal (xs : List PorterSignal) : Option PorterSignal :=
  xs.foldl (fun best x =>
    match best with
    | none => some x
    | some y => if x.due < y.due then some x else some y) none

/-- A mover's next signal changes its bell. -/
def execPorterSignal (m : Mover) (s : State) : Res :=
  let k := moverKey m
  if s.moverThere k then
    match nextSignal (s.signalsOf k) with
    | some x =>
      .next (if s.moving then s.onBeat x.due fun s =>
          (s.setSignals k ((s.signalsOf k).erase x)).addBell x.tower x.bell x.inc (moverAgent k) x.rank
        else s)
    | none => .next s
  else .fault .disabledHall

end Sys2Proof.Machine
end

