-- ==== Sys2Proof/Machine/Ports.lean ====
section
/-! DEFINITION. The Eothar ports: training, receipt of flits, retry, circuits, credits, lane sparing, loss of a
port (spec/11, spec/12, R375). -/

namespace Sys2Proof.Machine

def State.spare (s : State) (g : Nat) : Spare := SMap.get Spare.reset s.eo.spares g
def State.setSpare (s : State) (g : Nat) (x : Spare) : State :=
  { s with eo := { s.eo with spares := SMap.set Spare.reset s.eo.spares g x } }

/-- STATE of SPARE_STATE: 0 idle, 1 in use, 2 failed, 3 not wired. -/
def Spare.state (x : Spare) : Nat := (x.word.extractLsb' 6 2).toNat

/-- A group's spare lane trains with its ports (R322): the NONCE that it carries, or not wired. -/
def State.trainSpare (s : State) (g : Nat) (peer : W64) : State :=
  let x := s.spare g
  s.setSpare g { x with
    peer := peer,
    word := if x.state = 1 ∨ x.state = 2 then x.word else if peer = 0#64 then 0xC0#32 else 0#32 }

/-! ### Training and loss (R317, R325, R361, R375) -/

/-- The INIT flit that this end sends: its format version is the module's own; the depths are those of Table 12.3. How its
payload spells them is not stated, so what it carries is kept as it stands (log row 128). -/
def Port.ownInit (p : Port) (spareNonce : W64) : InitInfo :=
  ⟨true, p.role, p.channelNs, 512#16, (List.range 10).map (SMap.get 0#16 Port.depths), spareNonce⟩

/-- A port whose INIT exchange is complete: SEQ and ACK start at 0, and nothing is in flight. -/
def Port.init (p : Port) : Port :=
  { p with
    up := true, lock := true, retraining := false, nextSeq := 0#10, replay := [], expect := 0#10, nak := none,
    txLabels := [], rxLabels := [], sent := [], freedSeen := [], freed := [], reported := [], unreported := none,
    mgt := [], credits := [], sinceIdle := 0,
    helloSent := none }

/-- The ports of a signpost's group. -/
def groupPorts (port0 width : Nat) : List Nat := (List.range width).map fun i => port0 + i

/-- A signpost entry whose primary group may hold the port fails its check: its value is not used (R8). -/
def State.badDetour (s : State) : Option Nat := badEntry s.ranks.signposts

/-- Some valid signpost entry whose primary group holds the port has a detour that cannot carry job traffic. -/
def State.noDetour (s : State) (n : Nat) : Bool :=
  s.ranks.signposts.any fun e =>
    let w := e.2.v
    spValid w && (groupPorts (spPort0 w) (spWidth w)).contains n
      && (!spDvalid w || (groupPorts (spDport0 w) (spDwidth w)).any fun q => !(s.port q).carriesJob)

/-- LAST_RESHAPE (Table 13.9). -/
def reshapeWord (cause n : Nat) (p : Port) : W64 :=
  BitVec.ofNat 4 cause ++ BitVec.ofNat 5 n ++ p.neighbour.extractLsb' 48 16
    ++ BitVec.ofBool (p.neighbour.getLsbD 33) ++ 0#38

/-- Port that leads to the parent in the time tree; 0xFE root, 0xFF none. -/
def State.parentPort (s : State) : Nat :=
  (if s.shp.backup then s.shp.timeParent2 else s.shp.timeParent).toNat

/-- Record a loss, raise its event and the error (R375). -/
def State.reshape (s : State) (cause n : Nat) (cls : ErrClass) : State :=
  let w := reshapeWord cause n (s.port n)
  (({ s with shp := { s.shp with lastReshape := w } }).event 0x0A#16 (bytesLE w.toNat 8)).raiseError cls 0x4230#16
    (BitVec.ofNat 8 n) w

/-- What R375 makes of the loss of port `n` for the job that is loaded. -/
def State.lossOf (s : State) (n : Nat) : State :=
  match s.badDetour with
  | some k => s.mismatch 0 2 k 0
  | none =>
    if s.noDetour n then s.reshape 2 n .jobFatal
    else if s.parentPort = n then
      let p2 := s.shp.timeParent2.toNat
      if !s.shp.backup && decide (p2 < 32) && (s.port p2).carriesJob then
        ({ s with shp := { s.shp with backup := true } }).reshape 3 n .transient
      else s.reshape 4 n .jobFatal
    else s.reshape 1 n .transient

/-- Port `n` goes down: a swap of its lanes by hand fails. It keeps its neighbour, marked STALE, and retrains. While a job
is loaded it is excluded, and R375 decides what becomes of the job. -/
def State.portDown (s : State) (n : Nat) : State :=
  let p := s.port n
  let s := (s.setPort n { p.fallen with
    retraining := p.role != 0#8, outq := [], replay := [], txLabels := [], rxLabels := [], nak := none, swap := .none,
    excluded := s.jobLoaded || p.excluded, lanesOk := if p.role = 0#8 then 0#4 else p.lanesOk,
    creditWait := p.creditBeats s.milestone, schedWait := none }).endOwed 0x4020 2 (some n) false
  if s.jobLoaded then s.lossOf n else s

/-- A port goes down: all its lanes are lost (Table 11.11, cause 4). -/
def execPortDown (port : PortId) (s : State) : Res :=
  let n := port.val
  if (s.port n).up then
    .next ((s.setPort n { s.port n with lastError := linkErrorWord 4 0 0 0 0, lanesOk := 0#4 }).portDown n)
  else .next s

/-- The ends have exchanged valid INIT flits (R325): port `n` is UP, and what each carried is kept. -/
def State.portUp (s : State) (n : Nat) (i : InitInfo) : State :=
  let p := s.port n
  let depth := (List.range 10).foldl (fun m b => SMap.set 0#16 m b (i.depths.getD b 0#16)) ([] : SMap (BitVec 16))
  let s := s.trainSpare (n / 4) i.sparePeer
  (s.setPort n { p.init with
    depth := depth, lanesOk := if p.spared then p.lanesOk else 0xF#4,
    initSent := some (p.ownInit s.shp.bootNonce), initSeen := some i }).pump n

/-- A port trains and exchanges INIT flits (R325); `none` where training fails. A version that differs leaves it
down, with cause 7. An INIT that comes in on a port that is UP is that of a far end which begins anew (R317), and so does this
end (DEDUCED, log row 128). -/
def execPortTrain (port : PortId) (init : Option InitInfo) (s : State) : Res :=
  let n := port.val
  let p := s.port n
  if p.role = 0#8 ∨ s.boot.phase = .off ∨ s.boot.phase = .held ∨ s.integ.fatalState = 1#8
      ∨ s.tap.landsTaken = true then .next s
  else
    match init with
    | none => .next (if p.up then s else s.setPort n { p with retraining := true })
    | some i =>
      if i.sameVersion then .next (s.portUp n i)
      else
        let s := s.setPort n { p with lastError := linkErrorWord 7 0 0 0 0 }
        .next (if p.up then s.portDown n else s.setPort n { s.port n with retraining := true })

/-! ### NAKs and replay (R315 to R317) -/

/-- Send a NAK for the expected SEQ unless one is outstanding. -/
def State.nakNow (s : State) (n : Nat) : State :=
  let p := s.port n
  if p.nak.isSome then s
  else (s.setPort n { p with nak := some (p.expect, s.wall), pins := [] }).sendBare n typeNak

/-- A protocol error of a label (Table 11.11 cause 6), raised as a contained transient fault (log row 18). -/
def State.protocolError (s : State) (n label : Nat) : State :=
  s.linkError n (linkErrorWord 6 0 0 label 0) .transient

/-- A NAK arrives: every flit from the named SEQ is replayed. -/
def execNak (port : PortId) (seq : BitVec 10) (s : State) : Res :=
  if (s.port port.val).up then .next ((s.takeAck port.val seq).replayFrom port.val seq) else .next s

/-- The oldest unacknowledged flit has waited 2 µs. -/
def execReplayTimeout (port : PortId) (s : State) : Res :=
  let p := s.port port.val
  match p.replay with
  | r :: _ =>
    if p.up then .next ((s.toWall (r.since + wallOfUs 2)).replayFrom port.val r.flit.seq) else .next s
  | [] => .next s

/-- 1 µs after the NAK nothing has been accepted: it is sent again. -/
def execNakRepeat (port : PortId) (s : State) : Res :=
  let n := port.val
  let p := s.port n
  match p.nak with
  | some (seq, at_) =>
    if p.up then
      let s := s.toWall (at_ + wallOfUs 1)
      .next ((s.setPort n { s.port n with nak := some (seq, s.wall), pins := [] }).sendBare n typeNak)
    else .next s
  | none => .next s

/-- A SEQ has been sent 8 times unacknowledged: the port realigns and reinitialises, or goes down, and the
member raises a contained transient fault. -/
def execRetryDefeated (port : PortId) (realigned : Bool) (s : State) : Res :=
  let n := port.val
  let p := s.port n
  match p.replay.find? fun r => decide (8 ≤ r.times) with
  | some r =>
    if p.up then
      let w := linkErrorWord 1 0 r.flit.seq.toNat 0 0
      if realigned then .next ((s.setPort n p.init).linkError n w .transient)
      else
        let s := s.linkError n w .transient
        .next ((s.setPort n { s.port n with lastError := linkErrorWord 5 0 0 0 0 }).portDown n)
    else .next s
  | none => .next s

/-- A port sends an IDLE flit, at least one in 4,096. -/
def execIdleInsert (port : PortId) (s : State) : Res :=
  let n := port.val
  let p := s.port n
  if p.up && p.swap == .none then .next (((s.setPort n { p with sinceIdle := 0 }).pump n).sendBare n typeIdle)
  else .next s

/-! ### Credits (R346, R347) -/

/-- The circuit whose input is port `n` and that carries buffer `b`'s class. -/
def State.circuitOf (s : State) (n b : Nat) : Option (BitVec 32) :=
  s.eo.installed.find? fun w => circuitIn w == n && circuitCarries w (BitVec.ofNat 3 (b / 2))

/-- The counter that a CREDIT frame reports: a circuit's is what its far end reported. -/
def State.creditCount (s : State) (n b : Nat) : BitVec 16 :=
  match s.circuitOf n b with
  | some w => SMap.get 0#16 (s.port (circuitOut w)).freedSeen b
  | none => SMap.get 0#16 (s.port n).freed b

/-- Credits of a buffer that are freed and not reported: for a circuit's classes those that its output's far end has freed
(R346). -/
def State.owesCredit (s : State) (n b : Nat) : Nat := (s.creditCount n b - SMap.get 0#16 (s.port n).reported b).toNat

/-- What a CREDIT frame of port `n` reports now. -/
def State.creditsNow (s : State) (n : Nat) : SMap (BitVec 16) :=
  (List.range 10).foldl (fun m b => SMap.set 0#16 m b (s.creditCount n b)) []

/-- A CREDIT body: ten counters at bytes 24 to 43 of the flit. -/
def State.creditBody (s : State) (n : Nat) : BitVec 960 :=
  (List.range 10).foldl (fun w b => w ||| ((s.creditCount n b).setWidth 960 <<< (64 + 16 * b))) 3#960

/-- Send a CREDIT frame: 16 credits of a buffer unreported, or 256 ns since the oldest. -/
def execCredit (port : PortId) (s : State) : Res :=
  let n := port.val
  let p := s.port n
  match p.unreported with
  | none => .next s
  | some w =>
    if p.up then
      let s := if (List.range 10).any fun b => decide (16 ≤ s.owesCredit n b) then s else s.toWall (w + wallOfNs 256)
      let s := s.setPort n { s.port n with reported := s.creditsNow n, unreported := none }
      .next (s.enqueue n [ownSingle s n clsMgt (singleOf 5#8 0#16 0#16 (s.creditBody n))])
    else .next s

/-- A received CREDIT frame updates the sender's available credit, and a circuit passes it on. -/
def execCreditReceive (port : PortId) (s : State) : Res :=
  let n := port.val
  let p := s.port n
  match p.credits with
  | [] => .next s
  | c :: rest =>
    let seen := (List.range 10).foldl (fun m b => SMap.set 0#16 m b (c.extractLsb' (16 * b) 16)) ([] : SMap (BitVec 16))
    let s := s.setPort n { p with credits := rest, freedSeen := seen }
    let s := (s.eo.installed.filter fun w => circuitOut w == n).foldl (fun s w =>
      let q := s.port (circuitIn w)
      s.setPort (circuitIn w) { q with unreported := q.unreported.orElse fun _ => some s.wall }) s
    .next (s.pump n)

/-! ### Local delivery of a HEAD and its packets (R308, R309, R313, R351) -/

/-- The descriptor words that a HEAD carries. -/
def descOfHead (p : BitVec 1024) : PDesc := 0#128 ++ headW5 p ++ headDest p ++ headSrc p ++ headW0 p

/-- An endpoint as the module that holds its memory reads it. -/
def Endpoint.local (e : Endpoint) : Endpoint := ⟨e.e0 &&& ~~~(0x2000000000000000#64), e.e1⟩

/-- Refuse a read for want of a context (R351; the body is the model's, log row 14). -/
def State.refuseRead (s : State) (d : PDesc) (srank : BitVec 16) : State :=
  let s := { s with ranks := { s.ranks with reqRefused := s.ranks.reqRefused + 1 } }
  s.sendSingle clsRpl 4#8 srank (((1#1 : BitVec 1) ++ PDesc.ackKey d).setWidth 960)

/-- The label that a HEAD opens. -/
def rxLabel (f : Flit) (deliver : Bool) (forward : Option (Nat × Nat)) : RxLabel :=
  ⟨f.label, deliver, forward, headDrank f.payload, headSrank f.payload, headTag f.payload⟩

/-- Add a transfer to those that arrive on port `n`. -/
def State.openInbound (s : State) (n : Nat) (t : Transfer) : State :=
  s.setTransfers (256 + n) (s.transfers (256 + n) ++ [t])

/-- The injection beat of a flit: the latest at or before now with its low 20 bits (R313). -/
def State.injBeat (s : State) (inj : BitVec 20) : Nat :=
  s.milestone - (s.milestone - inj.toNat) % 2 ^ 20

/-- A HEAD for this member: a read takes a context or is refused; a write or read data opens a transfer. The
endpoint's handle is checked as at a start. -/
def State.deliverHead (s : State) (n : Nat) (f : Flit) : Res :=
  let d := descOfHead f.payload
  let srank := headSrank f.payload
  let read := isReadHead f.cls f.payload
  let r := s.draw
  let hd : Handed := ⟨d, 0, r.2.setWidth 8, r.2.extractLsb' 8 15, none, none⟩
  let e := (if read then PDesc.src d else PDesc.dst d).local
  let label := rxLabel f true none
  let open_ (s : State) (deliver : Bool) : State :=
    if read then s
    else s.setPort n { s.port n with rxLabels := (s.port n).rxLabels ++ [{ label with deliver := deliver }] }
  if s.integ.halted then .next (open_ s false)
  else if read && decide (64 ≤ s.ranks.contexts) then .next (s.refuseRead d srank)
  else
    match r.1.checkEnd (256 + n) hd e e.mhall with
    | .absent => .fault .disabledHall
    | .stopped s' => .next (open_ s' false)
    | .good =>
      let halls := match s.readerOf (PDesc.ackKey d) with
        | some (_, q) => if f.cls = clsRpl then q.halls else []
        | none => []
      let t := { Transfer.begin d (s.port n).flitsRx.toNat 0#8 0#15 with
        label := f.label, srank := srank, cls := f.cls, hops := f.hops.toNat + 1, halls := halls, lastRead := s.milestone }
      if read then
        let s := { s with ranks := { s.ranks with contexts := s.ranks.contexts + 1 } }
        let s := s.openInbound n t
        .next (if (PDesc.src d).space = 2 then s.sourceStream (256 + n) t 0 else s)
      else .next (open_ (s.openInbound n t) true)

/-- A packet of an open transfer enters the mesh at the port's attachment tile. -/
def State.deliverPacket (s : State) (n : Nat) (f : Flit) : State :=
  let k := 256 + n
  match (s.transfers k).find? fun t => t.label == f.label && !t.closed && !t.isServe with
  | none => s
  | some t =>
    let x := t.injected
    let places := (List.range t.dests).map fun j => s.routerOf (PDesc.dst t.desc) (t.destHall j)
    let q := s.spread k t.start x (x % 2) 0 (portTower n, portTile n) s.milestone places
    let flights := (List.range t.dests).zip q.2.2 |>.map fun e => (⟨x, e.1, e.2⟩ : Flight)
    let size := min 128 (PDesc.bytes t.desc - 128 * x)
    q.1.updTransfer k t.start fun t =>
      { t with
        injected := x + 1, flights := t.flights ++ flights, closed := f.type == typeLast,
        buf := t.buf.writeLE (128 * x) size f.payload.toNat,
        injBeats := if f.cls = clsSched ∨ f.cls = clsColl then SMap.put t.injBeats x (s.injBeat f.inj) else t.injBeats }

/-! ### Local delivery of a SINGLE (Table 11.5) -/

/-- The stage entry of a remote send that a descriptor names. -/
def State.stageEntryOf (s : State) (d : PostDesc) : Option (Nat × StageEntry) :=
  s.pb.stages.findSome? fun g =>
    (g.2.entries.find? fun e => e.state == .flying && PostDesc.remote e.desc && e.desc == d).map fun e => (g.1, e)

/-- A post send of another member goes to its post. -/
def State.deliverPost (s : State) (n : Nat) (body : BitVec 960) : State :=
  let d : PostDesc := body.setWidth 256
  let cause := s.postFault d
  if cause ≠ 0 then s.raisePostFault cause (portTower n) 210 d
  else
    let r := s.travel (rankFabric n) (.post 0#32 d)
      (meshRoute 0 0 (portTower n) (portTile n) (postTower d.key) (postTile d.key)) s.milestone
    { r.1 with pb := { r.1.pb with flights := r.1.pb.flights ++ [⟨.fabric n, 0#32, d, r.2⟩] } }

/-- An outcome settles the send that it names. -/
def State.deliverOutcome (s : State) (n : Nat) (body : BitVec 960) : State :=
  let o : PostDesc := body.setWidth 256
  match s.stageEntryOf (o.withOutcome 0#2) with
  | none => s
  | some (g, e) =>
    let path := routeBeats (meshRoute 0 0 (portTower n) (portTile n) (stageTower g) (stageTile g))
    s.settle g e.num (o.outcome == 2#2) s.milestone path

/-- A refusal reaches the read's porter or the send's stage; it is injected again 64 beats later (R238, R351). -/
def State.deliverRefusal (s : State) (n : Nat) (body : BitVec 960) : State :=
  if body.getLsbD 256 then
    match s.readerOf (body.setWidth 256) with
    | some (k, t) =>
      let p := s.porter k
      s.setPorter k { p with refused := p.refused ++ [(t.start, s.milestone + 64)] }
    | none => s
  else
    match s.stageEntryOf (body.setWidth 256) with
    | some (g, e) =>
      let at_ := s.milestone + routeBeats (meshRoute 0 0 (portTower n) (portTile n) (stageTower g) (stageTile g))
      s.setStage g ((s.stage g).mark e.num (.refused (e.held.getD at_) (at_ + 64)))
    | none => s

/-- A SINGLE for this member, of a class other than MGT. A halted member discards it (R451). -/
def State.deliverSingle (s : State) (n : Nat) (f : Flit) : State :=
  let body := singleBody f.payload
  if s.integ.halted then s
  else
    match (singleKind f.payload).toNat with
    | 1 => s.deliverPost n body
    | 2 => s.deliverOutcome n body
    | 3 => { s with ranks := { s.ranks with acks := s.ranks.acks ++ [f.payload] } }
    | 4 => s.deliverRefusal n body
    | _ => s.protocolError n f.label.toNat

/-! ### Where a received flit goes (R318, R329, R338, R342, R348, R358) -/

/-- The flit as it leaves port `q`. -/
def State.transitFlit (s : State) (n q xfer : Nat) (f : Flit) : OutFlit :=
  ⟨f.type, f.cls, s.outVc q (some (n, f.vc)), f.hops + 1, some f.inj, xfer, none, f.payload,
   some (n, bufferOf f.cls f.vc), false, false⟩

/-- Open a label at the receiving end, towards an output where there is one. -/
def State.openLabel (s : State) (n : Nat) (l : RxLabel) : State :=
  s.setPort n { s.port n with rxLabels := (s.port n).rxLabels ++ [l] }

/-- A discarded HEAD keeps its label open for its packets, which are discarded. -/
def State.dropHead (s : State) (n : Nat) (f : Flit) : State :=
  if isReadHead f.cls f.payload then s else s.openLabel n (rxLabel f false none)

/-- A circuit claims the flit's class at output `q`: a job-fatal error at its HEAD (R321). -/
def State.claimError (s : State) (q : Nat) (f : Flit) : State :=
  s.linkError q (linkErrorWord 8 0 0 f.label.toNat f.cls.toNat) .jobFatal

/-- Forward a HEAD out of port `q`. -/
def State.forwardHead (s : State) (n q : Nat) (f : Flit) : State :=
  if s.claimed q f.cls then (s.claimError q f).dropHead n f
  else
    let r := s.newXfer q
    let s := if isReadHead f.cls f.payload then r.1 else r.1.openLabel n (rxLabel f false (some (q, r.2)))
    s.enqueue q [s.transitFlit n q r.2 f]

/-- The port on which a multicast flit goes on, if it does (R342). -/
def State.multicastNext (s : State) (n : Nat) (f : Flit) : Option Nat :=
  let d := headDrank f.payload
  let sr := headSrank f.payload
  let a := s.axisOf d sr
  let me := (s.axisOf d s.ranks.myRank).pos
  let plus := inGroup (s.axisGroup d false) n
  if a.forwards me plus then s.axisPort d plus sr (headTag f.payload) else none

/-- A multicast HEAD that has been taken goes on out of port `q` as well (R342). -/
def State.spreadHead (s : State) (n q : Nat) (f : Flit) : State :=
  if s.claimed q f.cls then s.claimError q f
  else
    let r := s.newXfer q
    let p := r.1.port n
    let s := r.1.setPort n { p with rxLabels := p.rxLabels.map fun l =>
      if l.label = f.label then { l with forward := some (q, r.2) } else l }
    s.enqueue q [s.transitFlit n q r.2 f]

/-- A HEAD (R329): local, multicast, or routed. -/
def State.receiveHead (s : State) (n : Nat) (f : Flit) : Res :=
  let d := headDrank f.payload
  let sr := headSrank f.payload
  let tag := headTag f.payload
  if d = s.ranks.myRank then s.deliverHead n f
  else if isMulticast d && s.ranks.gridCols != 0#16 && f.cls == clsColl then
    match s.deliverHead n f with
    | .next s' =>
      match s'.multicastNext n f with
      | some q => .next (s'.spreadHead n q f)
      | none => .next s'
    | r => r
  else
    match s.routeRank sr d tag with
    | .port q => .next (s.forwardHead n q f)
    | r => .next ((s.routeFailed r d sr n tag).dropHead n f)

/-- A DATA or LAST flit follows its label; LAST closes it. -/
def State.receivePacket (s : State) (n : Nat) (f : Flit) : State :=
  let p := s.port n
  match p.rxLabels.find? fun l => l.label == f.label with
  | none => s.protocolError n f.label.toNat
  | some l =>
    let s := if f.type = typeLast then
      s.setPort n { p with rxLabels := p.rxLabels.filter fun x => x.label != f.label } else s
    let s := if l.deliver && !s.integ.halted then s.deliverPacket n f else s
    match l.forward with
    | some (q, x) => s.enqueue q [s.transitFlit n q x f]
    | none => s

/-- A management frame (R348): CREDIT to the port, link-local frames and DICT frames for this member to the
Steward's queue, other DICT frames onward, reserved types dropped. -/
def State.receiveMgt (s : State) (n : Nat) (f : Flit) (frac : BitVec 4) : State :=
  let p := s.port n
  let take := s.setPort n { p with mgt := p.mgt ++ [⟨f.payload, f.vc, s.milestone, frac⟩] }
  let d := singleDrank f.payload
  match (mtype f.payload).toNat with
  | 3 => s.setPort n { p with credits := p.credits ++ [(singleBody f.payload).extractLsb' 64 160] }
  | 1 => take
  | 2 => take
  | 5 => take
  | 6 => take
  | 4 =>
    if d = s.ranks.myRank then take
    else
      match s.routeRank (singleSrank f.payload) d 0#16 with
      | .port q => s.enqueue q [s.transitFlit n q 0 f]
      | r => (s.routeFailed r d (singleSrank f.payload) n 0#16).freeCredit (some (n, bufferOf f.cls f.vc))
  | _ => ({ s with ranks := { s.ranks with mgtDropped := s.ranks.mgtDropped + 1 } }).freeCredit
      (some (n, bufferOf f.cls f.vc))

/-- A SINGLE. Management and HALT frames are of class MGT (R348), pass-along frames of class COLL (R422); others go by their
rank (R329). -/
def State.receiveSingle (s : State) (n : Nat) (f : Flit) (frac : BitVec 4) : State :=
  let d := singleDrank f.payload
  let sr := singleSrank f.payload
  let credit := some (n, bufferOf f.cls f.vc)
  let kind := (singleKind f.payload).toNat
  if f.cls = clsMgt ∧ kind = 5 then s.receiveMgt n f frac
  else if f.cls = clsMgt ∧ kind = 7 then { s with ranks := { s.ranks with halts := s.ranks.halts ++ [(n, f)] } }
  else if f.cls = clsColl ∧ kind = 6 then
    { s with ranks := { s.ranks with passAlong := s.ranks.passAlong ++ [(n, f.payload)] } }
  else if d = s.ranks.myRank then (s.deliverSingle n f).freeCredit credit
  else if s.integ.halted && f.cls != clsMgt then s.freeCredit credit
  else
    match s.routeRank sr d 0#16 with
    | .port q => s.enqueue q [s.transitFlit n q 0 f]
    | r => (s.routeFailed r d sr n 0#16).freeCredit credit

/-- A packet that a halted member discards after its due beat: a hop slip that is recorded and not raised (R451). -/
def State.recordLate (s : State) (n : Nat) (f : Flit) : State :=
  let due := s.injBeat f.inj + (f.hops.toNat + 1) * s.job.hopBeats.toNat + s.job.hopSlack.toNat
  if (f.cls = clsSched ∨ f.cls = clsColl) ∧ due < s.milestone then
    let w : W64 := 1#2 ++ s.ranks.myRank ++ BitVec.ofNat 5 n ++ BitVec.ofNat 16 (min (s.milestone - due) 65535) ++ 0#25
    ({ s with job := { s.job with lastSlip := w } } : State).recordError .transient false true 0xA040#16 0#8 w 0#32
  else s

/-- A flit of a job class that arrives while the member is halted is accepted, and discarded (R451). -/
def State.discardHalted (s : State) (n : Nat) (f : Flit) : State :=
  let p := s.port n
  let s :=
    if f.type = typeHead then s.dropHead n f
    else if f.type = typeSingle then s
    else
      match p.rxLabels.find? fun l => l.label == f.label with
      | none => s.protocolError n f.label.toNat
      | some l =>
        let s := if f.type = typeLast then
          s.setPort n { p with rxLabels := p.rxLabels.filter fun x => x.label != f.label } else s
        if l.forward.isNone then s.recordLate n f else s
  s.freeCredit (some (n, bufferOf f.cls f.vc))

/-- Job-class flits that a halted member discards: all but pass-along frames, which are the loader's (R420). -/
def discards (f : Flit) : Bool :=
  f.cls != clsMgt && !(f.type == typeSingle && f.cls == clsColl && singleKind f.payload == 6#8)

/-- Ranks and TAG that route a flit: those of a SINGLE or a HEAD, or of the HEAD that opened a packet's label. -/
def Port.ranksOf (p : Port) (f : Flit) : BitVec 16 × BitVec 16 × BitVec 16 :=
  if f.type = typeHead then (headDrank f.payload, headSrank f.payload, headTag f.payload)
  else if f.type = typeSingle then (singleDrank f.payload, singleSrank f.payload, 0#16)
  else
    match p.rxLabels.find? fun l => l.label == f.label with
    | some l => (l.drank, l.srank, l.tag)
    | none => (0#16, 0#16, 0#16)

/-- A flit whose HOPS holds 63 is discarded: a route fault (R338). Its HEAD's label stays open for packets to discard. -/
def State.hopsSpent (s : State) (n : Nat) (f : Flit) : State :=
  let r := (s.port n).ranksOf f
  let s := s.routeFault 5 r.1 r.2.1 n r.2.2
  if f.type = typeHead then s.dropHead n f
  else if f.type = typeLast then
    s.setPort n { s.port n with rxLabels := (s.port n).rxLabels.filter fun x => x.label != f.label }
  else s

/-- Count a flit that the member has received: HOPS beyond the job's diameter (R378), and classes that a gate drains
(R374). -/
def State.countHops (s : State) (f : Flit) : State :=
  let diameter := if s.ranks.jobSize = 1#32 then 0 else s.shp.jobDiameter.toNat
  { s with shp := { s.shp with
    diameterExceeded :=
      if diameter < f.hops.toNat + 1 then s.shp.diameterExceeded + 1 else s.shp.diameterExceeded,
    gatedReceived := if s.gated f.cls then s.shp.gatedReceived + 1 else s.shp.gatedReceived } }

/-- The port expects the next SEQ. -/
def Port.accept (p : Port) : Port := { p with expect := p.expect + 1, nak := none, flitsRx := p.flitsRx + 1 }

/-- The flit's label leads on to an output: its buffer keeps it until it leaves (R347). -/
def Port.leads (p : Port) (f : Flit) : Bool := p.rxLabels.any fun l => l.label == f.label && l.forward.isSome

/-- An accepted flit: HOPS rises, counters count, and it is delivered or forwarded. -/
def State.accepted (s : State) (n : Nat) (f : Flit) (frac : BitVec 4) : Res :=
  let s := (s.setPort n (s.port n).accept).countHops f
  let credit := some (n, bufferOf f.cls f.vc)
  if s.integ.halted && discards f then .next (s.discardHalted n f)
  else if f.hops = 63#6 then .next ((s.hopsSpent n f).freeCredit credit)
  else if f.type = typeSingle then .next (s.receiveSingle n f frac)
  else if f.type = typeHead then
    match s.receiveHead n f with
    | .next s' => .next (if (s'.port n).leads f then s' else s'.freeCredit credit)
    | r => r
  else .next (if (s.port n).leads f then s.receivePacket n f else (s.receivePacket n f).freeCredit credit)

/-- The flit belongs to a circuit whose input is the port (R319). -/
def State.onCircuit (s : State) (n : Nat) (f : Flit) : Option (BitVec 32) :=
  if typeHead.toNat ≤ f.type.toNat ∧ f.type.toNat ≤ typeSingle.toNat then
    s.eo.installed.find? fun w => circuitIn w == n && circuitCarries w f.cls
  else none

/-- Count what the FEC did. -/
def Port.countFec (p : Port) (fec : Fec) : Port :=
  match fec with
  | .clean => p
  | .corrected => { p with fecCorrected := p.fecCorrected + 1 }
  | .uncorrectable => { p with fecUncorrected := p.fecUncorrected + 1 }

/-- A CRC failure (R306, R307, R309): the flit is discarded and a NAK is sent. -/
def State.crcFailure (s : State) (n : Nat) : State :=
  let p := s.port n
  (s.setPort n { p with crcFails := p.crcFails + 1 }).nakNow n

/-- A flit's CRC holds and its TYPE and CLASS are ones that the receiver takes (R306, R307). -/
def wellFormed (f : Flit) : Bool :=
  f.crc == f.computed && decide (f.type.toNat < 7) && (decide (f.type.toNat < 3) || decide (f.cls.toNat < 5))

/-- A HEAD names a label that is open already (R309). -/
def Port.reopens (p : Port) (f : Flit) : Bool := f.type == typeHead && p.rxLabels.any fun l => l.label == f.label

/-- What the SEQ of a sequenced flit decides (R315). -/
inductive SeqCase where
  | expected | ahead | behind
deriving DecidableEq, Repr

def Port.seqCase (p : Port) (f : Flit) : SeqCase :=
  let d := (f.seq - p.expect).toNat
  if d = 0 then .expected else if d < 512 then .ahead else .behind

/-- A flit arrives on a port that is UP. -/
def execFlitReceive (port : PortId) (flit : Flit) (fec : Fec) (frac : BitVec 4) (s : State) : Res :=
  let n := port.val
  let p := s.port n
  if !p.up || (s.onCircuit n flit).isSome then .next s
  else
    let s := s.setPort n (p.countFec fec)
    if fec = .uncorrectable then .next (s.nakNow n)
    else if flit.crc = ~~~flit.computed then
      .next (s.setPort n { s.port n with stomped := (s.port n).stomped + 1 })
    else if !wellFormed flit then .next (s.crcFailure n)
    else
      let s := s.takeAck n flit.ack
      if flit.type = typeNak then .next (s.replayFrom n flit.ack)
      else if flit.type.toNat < 3 then .next (s.pump n)
      else
        match p.seqCase flit with
        | .behind => .next s
        | .ahead => .next (s.nakNow n)
        | .expected =>
          if p.reopens flit then .next (s.crcFailure n)
          else
            match s.accepted n flit frac with
            | .next s' => .next (s'.pump n)
            | r => r

/-- Flits of the circuit with input `n` that wait at output `q`. -/
def State.circuitHeld (s : State) (n q : Nat) : Nat :=
  ((s.port q).outq.filter fun f => f.from_ == some (n, circuitBuffer)).length

/-- Ranks and TAG of a flit on a circuit: a HEAD's own; those of a packet are free, as a circuit keeps no label (DESIGN
CHOICE, log row 129). -/
def State.circuitRanks (s : State) (f : Flit) : State × BitVec 48 :=
  if f.type = typeHead then (s, headDrank f.payload ++ headSrank f.payload ++ headTag f.payload)
  else
    let r := s.draw
    (r.1, r.2.setWidth 48)

/-- A flit of a circuit's class, whole and in sequence, goes on out of port `q`. A halted member discards it (R451). -/
def State.circuitFlit (s : State) (n q : Nat) (f : Flit) (out : OutFlit) : State :=
  let s := (s.setPort n (s.port n).accept).countHops f
  if s.integ.halted then s.freeCredit (some (n, circuitBuffer))
  else if f.hops = 63#6 then
    let r := s.circuitRanks f
    r.1.routeFault 5 (r.2.extractLsb' 32 16) (r.2.extractLsb' 16 16) n (r.2.setWidth 16)
  else s.enqueue q [out]

/-- A flit of a circuit's class goes on with no lookup, under its own label and the output's SEQ; one that fails
its CRC goes on stomped and is NAKed upstream (R319, R320). One that finds the circuit's 512-flit buffer full is not
accepted, and is asked for again (R321; DEDUCED, log row 129). -/
def execCircuitForward (port : PortId) (flit : Flit) (fec : Fec) (s : State) : Res :=
  let n := port.val
  let p := s.port n
  match s.onCircuit n flit with
  | none => .next s
  | some w =>
    if !p.up then .next s
    else
      let q := circuitOut w
      let out : OutFlit := ⟨flit.type, flit.cls, s.outVc q (some (n, flit.vc)), flit.hops + 1, some flit.inj, 0,
        some flit.label, flit.payload, some (n, circuitBuffer), false, false⟩
      let s := s.setPort n (p.countFec fec)
      if fec = .uncorrectable then .next ((s.nakNow n).enqueue q [{ out with stomp := true }])
      else if flit.crc = ~~~flit.computed then
        .next (s.setPort n { s.port n with stomped := (s.port n).stomped + 1 })
      else if flit.crc ≠ flit.computed then .next ((s.crcFailure n).enqueue q [{ out with stomp := true }])
      else
        let s := s.takeAck n flit.ack
        match p.seqCase flit with
        | .behind => .next s
        | .ahead => .next (s.nakNow n)
        | .expected => .next (if 512 ≤ s.circuitHeld n q then s.nakNow n else s.circuitFlit n q flit out)

/-- The refused REQ HEAD of a porter that is injected again first (R351). -/
def nextRefused (xs : List (Nat × Nat)) : Option (Nat × Nat) :=
  xs.foldl (fun best x =>
    match best with
    | none => some x
    | some y => if x.2 < y.2 then some x else some y) none

/-- A refused REQ HEAD is injected again 64 beats after the refusal reached its porter (R351). -/
def execReqReinject (p : Fin 256) (s : State) : Res :=
  let k := p.val
  if s.moverThere k then
    match nextRefused (s.porter k).refused with
    | none => .next s
    | some x =>
      .next (if s.active && !s.gated clsReq then s.onBeat x.2 fun s =>
          let s := s.setPorter k { s.porter k with refused := (s.porter k).refused.erase x }
          match s.transferAt k x.1 with
          | some t => (s.sendRequest k t).1
          | none => s
        else s)
  else .fault .disabledHall

/-! ### Lane sparing (R322 to R324) -/

/-- The spare protects the port (R322). -/
def State.protected (s : State) (n : Nat) : Bool := (s.port n).spareOk && (s.spare (n / 4)).state == 0

/-- Put a SWAP or SWAP_ACK on the spare frames of port `n`'s group. -/
def State.spareSend (s : State) (n : Nat) (ack : Bool) (lane : BitVec 2) : State :=
  s.setSpare (n / 4) { s.spare (n / 4) with sent := [(ack, BitVec.ofNat 5 n, lane)] }

/-- A port of the group other than `n` with a swap under way. -/
def State.swapOther (s : State) (n : Nat) : Option Nat :=
  ((List.range 4).map fun i => 4 * (n / 4) + i).find? fun q => q != n && (s.port q).swap != .none

/-- Port `n` goes down for its lane. -/
def State.laneDown (s : State) (n : Nat) (lane : BitVec 2) : State :=
  (s.setPort n { s.port n with lastError := linkErrorWord 3 lane.toNat 0 0 0 }).portDown n

/-- Ask the far end for a swap. -/
def State.askSwap (s : State) (n : Nat) (lane : BitVec 2) : State :=
  (s.setPort n { s.port n with swap := .asked lane s.milestone }).spareSend n false lane

/-- A lane is lost in the beat in force. -/
def State.loseLane (s : State) (n : Nat) (lane : BitVec 2) : State :=
  let p := s.port n
  let s := s.setPort n { p with lanesOk := p.lanesOk &&& ~~~(1#4 <<< lane.toNat) }
  if p.swap ≠ .none then
    (match p.swap with
     | .asked l _ => if l = lane then s else s.laneDown n lane
     | _ => s.laneDown n lane)
  else if !s.protected n then s.laneDown n lane
  else
    match s.swapOther n with
    | none => s.askSwap n lane
    | some q =>
      match (s.port q).swap with
      | .asked l b =>
        if b = s.milestone ∧ n < q then (s.laneDown q l).askSwap n lane else s.laneDown n lane
      | _ => s.laneDown n lane

/-- A lane of a port is lost, or its group's idle spare (`none`). -/
def execLaneLost (port : PortId) (lane : Option (BitVec 2)) (s : State) : Res :=
  let n := port.val
  match lane with
  | none =>
    let x := s.spare (n / 4)
    if x.state = 0 then
      .next ((s.setSpare (n / 4) { x with word := 0x80#32 }).event 0x07#16
        [BitVec.ofNat 8 (n / 4), 0xFF#8, 0#8, 0#8, 0#8, 0#8, 0#8, 0#8])
    else .next s
  | some l =>
    if (s.port n).up then
      .next ((s.event 0x07#16 [BitVec.ofNat 8 (n / 4), l.setWidth 8, 0#8, 0#8, 0#8, 0#8, 0#8, 0#8]).loseLane n l)
    else .next s

/-- Answer a SWAP of port `n`, which has none of its own under way. The spare in use takes the port down; where another port
of the group asks too, the ends have lost lanes of different ports, and the spare goes to the lower one (R324). -/
def State.takeSwap (s : State) (n : Nat) (lane : BitVec 2) : State :=
  let grant (s : State) : State := (s.setPort n { s.port n with swap := .steered lane }).spareSend n true lane
  if !s.protected n then (if (s.spare (n / 4)).state = 1 then s.laneDown n lane else s)
  else
    match s.swapOther n with
    | none => grant s
    | some q =>
      match (s.port q).swap with
      | .asked l _ => if q < n then s.laneDown n lane else grant (s.laneDown q l)
      | _ => s.laneDown n lane

/-- A SWAP arrives on the spare frames: it is answered, and both ends steer the spare in. SWAPs of different
lanes take the port down. -/
def execSwap (port : PortId) (lane : BitVec 2) (s : State) : Res :=
  let n := port.val
  let p := s.port n
  if !p.up then .next s
  else
    match p.swap with
    | .none => .next (s.takeSwap n lane)
    | .asked l _ =>
      if l = lane then .next ((s.setPort n { p with swap := .steered lane }).spareSend n true lane)
      else .next (s.laneDown n lane)
    | .steered l => if l = lane then .next s else .next (s.laneDown n lane)

/-- A SWAP_ACK arrives: this end steers the spare in. -/
def execSwapAck (port : PortId) (lane : BitVec 2) (s : State) : Res :=
  let n := port.val
  let p := s.port n
  match p.swap with
  | .asked l _ =>
    if l = lane then .next (s.setPort n { p with swap := .steered lane }) else .next (s.laneDown n lane)
  | _ => .next s

/-- FEC relocks on the spare, and replay resumes; a failure takes the port down. -/
def execSpareRelock (port : PortId) (locked : Bool) (s : State) : Res :=
  let n := port.val
  let p := s.port n
  match p.swap with
  | .steered lane =>
    if locked then
      let s := s.setPort n { p with swap := .none, spared := true, slane := lane,
                                    lanesOk := p.lanesOk &&& ~~~(1#4 <<< lane.toNat),
                                    lastError := linkErrorWord 2 lane.toNat 0 0 0 }
      let s := s.setSpare (n / 4) { s.spare (n / 4) with
        word := 0#24 ++ 1#2 ++ BitVec.ofNat 2 (n % 4) ++ lane ++ 0#2 }
      let s := match (s.port n).replay with
        | r :: _ => s.replayFrom n r.flit.seq
        | [] => s
      .next ((s.drain n).endOwed 0x4020 2 (some n) true)
    else
      let s := s.setPort n { p with lastError := linkErrorWord 5 0 0 0 0 }
      .next (s.portDown n)
  | _ => .next s

/-- 4020.02: a swap by hand, with a COMPLETE when it ends; BUSY while the spare is in use. -/
def execSwapRequest (w : DictWrite) (s : State) : Res :=
  let rule : WriteRule := ⟨false, false, false, fun _ => decide (wnum w ≤ 3), false,
    fun n => (s.spare (n / 4)).state == 1 || (s.swapOther n).isSome || (s.port n).swap != .none⟩
  .next (s.serveWrite 0x4020 2 w rule true fun s n =>
    if s.protected n && (s.port n).up then s.askSwap n (BitVec.ofNat 2 (wnum w))
    else s.endOwed 0x4020 2 (some n) false)

end Sys2Proof.Machine
end

