-- ==== Sys2Proof/Machine/Ranks.lean ====
section
/-! DEFINITION. Signpost writes and the gate of one member (spec/12). -/

namespace Sys2Proof.Machine

/-- R333: the value of a signpost entry lies in range. -/
def signpostOk (w : W64) : Bool :=
  decide (spPlen w ≤ 16) && (w.extractLsb' 42 16 &&& (0xFFFF#16 >>> spPlen w) == 0#16)
    && w.extractLsb' 35 2 != 3#2 && w.extractLsb' 27 2 != 3#2
    && decide (spPort0 w % spWidth w = 0) && decide (spDport0 w % spDwidth w = 0)
    && w.setWidth 27 == 0#27

/-- A write of entry `entry`: free with no job loaded, and while GATE_STATE reads 2 (R355). -/
def execSignpost (entry : Fin 4096) (w : DictWrite) (s : State) : Res :=
  let p := wpair w
  let k := entry.val
  let rule : WriteRule := ⟨false, false, !p.ok, fun _ => signpostOk p.v, s.ranks.gateState == 2#8, fun _ => false⟩
  .next (s.serveWrite (0x4150 + k / 256) (k % 256) w rule false fun s _ =>
    { s with ranks := { s.ranks with signposts := SMap.set Ranks.noEntry s.ranks.signposts k p,
                                         master := SMap.set 0#64 s.ranks.master k p.v } })

/-! ### Gates (R356) -/

/-- Every port sends what may leave now. -/
def State.pumpAll (s : State) : State := (List.range 32).foldl (fun s p => s.pump p) s

/-- Fail the operations of an object that a rewritten mask ends (Table 17.11); `keep` spares the newest, which
the present write has begun. -/
def State.failOlder (s : State) (index sub : Nat) (keep : Bool) : State :=
  let fail (o : Owed) : Owed :=
    if o.index.toNat == index && o.sub.toNat == sub && o.ended.isNone then { o with ended := some (false, s.milestone) }
    else o
  let n := s.dict.owed.length - keep.toNat
  { s with dict := { s.dict with owed := (s.dict.owed.take n).map fail ++ s.dict.owed.drop n } }

/-- Apply a mask to this member's GATE_CLASSES: a mask holds new injections and drains, 0 releases them. -/
def State.applyGate (s : State) (mask : BitVec 8) : State :=
  if mask = 0#8 then
    ({ s with ranks := { s.ranks with gateClasses := 0#8, gateState := 0#8 } }).pumpAll
  else { s with ranks := { s.ranks with gateClasses := mask, gateState := 1#8 } }

/-- 4140.01: a write of a mask is pending until the member has drained. -/
def execGateClasses (w : DictWrite) (s : State) : Res :=
  let v := BitVec.ofNat 8 (wnum w)
  .next (s.serveWrite 0x4140 1 w (WriteRule.plain fun _ => !v.getLsbD 0) (v != 0#8) fun s _ =>
    (s.failOlder 0x4140 1 (v != 0#8)).applyGate v)

/-- A flit of a gated class stands in a port's input buffers (it waits there for its output), in what the port has still to
send, in its replay buffer or in open labels. -/
def Port.holdsGated (p : Port) (mask : BitVec 8) : Bool :=
  let gated (c : Nat) : Bool := mask.getLsbD c
  p.outq.any (fun f => gated f.cls.toNat)
    || p.replay.any (fun r => gated r.flit.cls.toNat)
    || p.txLabels.any (fun l => gated (l.label.toNat / 200))
    || p.rxLabels.any (fun l => gated (l.label.toNat / 200))

/-- The member holds a flit of a gated class: at a port, or a pass-along frame that waits in its input buffer. -/
def State.holdsGated (s : State) : Bool :=
  ((List.range 32).any fun p => (s.port p).holdsGated s.ranks.gateClasses)
    || (!s.ranks.passAlong.isEmpty && s.ranks.gateClasses.getLsbD clsColl.toNat)

/-- No flit of a gated class remains: GATE_STATE becomes 2. -/
def execGateDrained (s : State) : Res :=
  if s.ranks.gateState = 1#8 ∧ s.holdsGated = false then
    .next (({ s with ranks := { s.ranks with gateState := 2#8 } } : State).endOwed 0x4140 1 none true)
  else .next s

end Sys2Proof.Machine
end

