-- ==== Sys2Proof/Machine/Shape.lean ====
section
/-! DEFINITION. Discovery, the Milestone counter's time tree, announcements and job-wide gates (spec/13). -/

namespace Sys2Proof.Machine

/-! ### Link-local frames (R358) -/

/-- Word HBk of a management frame's body. -/
def bodyWord (b : BitVec 960) (k : Nat) : W64 := b.extractLsb' (64 * k) 64

/-- A body from its words, HB0 first. -/
def bodyOf (ws : List W64) : BitVec 960 := BitVec.ofNat 960 (numLE (ws.flatMap fun w => bytesLE w.toNat 8))

def MgtFrame.body (f : MgtFrame) : BitVec 960 := singleBody f.payload

/-- The first frame of the Steward's inbox that satisfies `p`, and the inbox without it. -/
def takeFrame (p : BitVec 960 → Bool) : List (Nat × MgtFrame) → Option ((Nat × MgtFrame) × List (Nat × MgtFrame))
  | [] => none
  | e :: es =>
    if p e.2.body then some (e, es)
    else (takeFrame p es).map fun r => (r.1, e :: r.2)

def State.setInbox (s : State) (l : List (Nat × MgtFrame)) : State := { s with shp := { s.shp with inbox := l } }

/-- Children of this member in the time tree whose ports are UP. -/
def State.childPorts (s : State) : List Nat := s.shp.children.filter fun p => (s.port p).up

/-- Send a link-local frame to every child. -/
def State.sendDown (s : State) (body : BitVec 960) : State :=
  s.childPorts.foldl (fun s p => s.sendLocal p body) s

/-! ### HELLO (R359 to R362) -/

/-- Number of enabled halls (1000.06). -/
def State.enabledHalls (s : State) : Nat := ((List.range 192).filter s.hallEnabled).length

/-- 1010.01 of tower t. -/
def Part.disabledOf (p : Part) (t : Nat) : W64 := (p.disabled.extractLsb' (48 * t) 48).setWidth 64

/-- R21. -/
def Part.digest (p : Part) : W64 :=
  BitVec.ofNat 64 (numLE (shake256 ((List.range 4).flatMap fun t => bytesLE (p.disabledOf t).toNat 8) 8))

/-- The HELLO body of port `n` (Table 13.1). -/
def State.helloBody (s : State) (n : Nat) : BitVec 960 :=
  let p := s.port n
  let hb0 : W64 := s.ranks.myRank ++ BitVec.ofNat 8 s.enabledHalls ++ 0#4 ++ s.part.grade.setWidth 2
    ++ BitVec.ofBool s.shp.transitOnly ++ BitVec.ofBool s.jobLoaded ++ 0#1
    ++ BitVec.ofNat 2 (s.spare (n / 4)).state ++ p.role.setWidth 2 ++ BitVec.ofNat 5 n ++ 0#6 ++ 1#8 ++ 1#8
  let serial := numLE s.part.serial
  bodyOf [hb0, s.boot.version, s.part.digest, s.shp.bootNonce, (s.spare (n / 4)).peer,
    BitVec.ofNat 64 serial, BitVec.ofNat 64 (serial / 2 ^ 64)]

/-- A port sends a HELLO: when it comes UP, when the content has changed, and every 100 ms. -/
def execHello (port : PortId) (s : State) : Res :=
  let n := port.val
  let p := s.port n
  if p.role ≠ 0#8 ∧ p.up then
    let s := match p.helloSent with
      | some (b, w) => if b = s.helloBody n then s.toWall (w + wallOfUs 100000) else s
      | none => s
    let b := s.helloBody n
    .next ((s.setPort n { s.port n with helloSent := some (b, s.wall) }).sendLocal n b)
  else .next s

/-- HELLO fields. -/
def helloVersion (b : BitVec 960) : BitVec 8 := b.extractLsb' 8 8
def helloPort (b : BitVec 960) : Nat := (b.extractLsb' 22 5).toNat
def helloNonce (b : BitVec 960) : W64 := bodyWord b 3

/-- A HELLO without RANK and JOB, in which a change is no news (R361). -/
def helloNews (b : BitVec 960) : BitVec 960 := b &&& ~~~((0xFFFF#960 <<< 48) ||| (1#960 <<< 32))

/-- R362: the four HELLOs of group `g` show one neighbour, port for port and spare to spare. -/
def State.spareWired (s : State) (g : Nat) : Bool :=
  let x (i : Nat) : Port := s.port (4 * g + i)
  let nonce := helloNonce (x 0).neighbour
  let h := helloPort (x 0).neighbour
  (List.range 4).all (fun i => (x i).valid && helloNonce (x i).neighbour == nonce
      && helloPort (x i).neighbour == h + i)
    && decide (h % 4 = 0) && nonce == (s.spare g).peer

/-- A HELLO is stored; its news raise NEIGHBOUR_CHANGED; another HVER leaves the port class MGT only. -/
def execHelloReceive (s : State) : Res :=
  match takeFrame (fun b => b.setWidth 8 == 1#8) s.shp.inbox with
  | none => .next s
  | some ((n, f), rest) =>
    let b := f.body
    let p := s.port n
    let news := p.valid && helloNews b != helloNews p.neighbour
    let s := (s.setInbox rest).setPort n { p with
      neighbour := b, hellos := p.hellos + 1, valid := true, stale := false, changed := p.changed || news,
      mgtOnly := helloVersion b != 1#8 }
    let ok := s.spareWired (n / 4)
    let s := (List.range 4).foldl (fun s i =>
      s.setPort (4 * (n / 4) + i) { s.port (4 * (n / 4) + i) with spareOk := ok }) s
    let s := s.pump n
    .next (if news then s.event 0x08#16 (BitVec.ofNat 8 n :: List.replicate 7 0#8 ++ bytesLE b.toNat 120) else s)

/-! ### TIME (R366 to R369, R372) -/

/-- A TIME body (Table 13.3); `kind` is 0 request, 1 response, 2 resync. -/
def timeBody (depth : BitVec 6) (kind : BitVec 2) (locked : Bool) (f1 f2 f3 : BitVec 4) (t1 t2 t3 : W64)
    (delay : BitVec 32) : BitVec 960 :=
  let hb0 : W64 := 0#16 ++ depth ++ kind ++ BitVec.ofBool locked ++ 0#11 ++ f1 ++ f2 ++ f3 ++ 0#8 ++ 2#8
  bodyOf [hb0, t1, t2, t3, delay.setWidth 64]

def isTimeKind (kind : BitVec 2) (b : BitVec 960) : Bool := b.setWidth 8 == 2#8 && b.extractLsb' 40 2 == kind

def timeDepth (b : BitVec 960) : Nat := (b.extractLsb' 42 6).toNat
def timeLocked (b : BitVec 960) : Bool := b.getLsbD 39

/-- T1, T2 and T3 with their fractions, in sixteenths of a beat. -/
def timeT1 (b : BitVec 960) : Nat := 16 * (bodyWord b 1).toNat + (b.extractLsb' 24 4).toNat
def timeT2 (b : BitVec 960) : Nat := 16 * (bodyWord b 2).toNat + (b.extractLsb' 20 4).toNat
def timeT3 (b : BitVec 960) : Nat := 16 * (bodyWord b 3).toNat + (b.extractLsb' 16 4).toNat

/-- This member is the root of the time tree (R365). -/
def State.isRoot (s : State) : Bool := s.shp.timeParent == 0xFE#8

/-- LOCKED of a TIME frame. -/
def State.timeIsLocked (s : State) : Bool := s.shp.timeState == 2#2

/-- The member that is not the root asks its parent, every 16 µs; `frac` is the sixteenth of the beat at which
the frame departs. -/
def execTimeRequest (frac : BitVec 4) (s : State) : Res :=
  let n := s.parentPort
  if n < 32 ∧ (s.port n).up then
    let s := if s.shp.requestAt = 0 then s else s.toWall (s.shp.requestAt + wallOfUs 16)
    let s := { s with shp := { s.shp with requestAt := s.wall } }
    .next (s.sendLocal n (timeBody s.shp.depth 0#2 s.timeIsLocked frac 0#4 0#4 (BitVec.ofNat 64 s.milestone)
      0#64 0#64 0#32))
  else .next s

/-- The parent answers the oldest TIME request with T2, of its receipt, and T3, of the answer's departure. A port
on which a request comes leads to a child. -/
def execTimeResponse (frac : BitVec 4) (s : State) : Res :=
  match takeFrame (isTimeKind 0#2) s.shp.inbox with
  | none => .next s
  | some ((n, f), rest) =>
    let b := f.body
    let s := s.setInbox rest
    let s := { s with shp := { s.shp with
      children := if s.shp.children.contains n then s.shp.children else s.shp.children ++ [n] } }
    .next (s.sendLocal n (timeBody s.shp.depth 1#2 s.timeIsLocked (b.extractLsb' 24 4) f.frac frac (bodyWord b 1)
      (BitVec.ofNat 64 f.beat) (BitVec.ofNat 64 s.milestone) 0#32))

/-- Half of a count of sixteenths; which way an odd one rounds is not stated, and `up` decides. -/
def halfOf (n : Int) (up : Bool) : Int := (n + if up then 1 else 0) / 2

/-- Whole beats in a count of sixteenths, to the nearest; `up` decides a tie. -/
def nearestBeat (n : Int) (up : Bool) : Int := (n + if up then 8 else 7) / 16

/-- Trim of up to ±200 ppm in Q16.16, against the offset: a member that trails its parent runs faster (R368). How large it is
for an offset is not stated, and free. -/
def trimOf (offset : Int) (free : W64) : BitVec 32 :=
  BitVec.ofInt 32 (if offset = 0 then 0 else offset.sign * ((free.toNat % 13107200 : Nat) + 1))

/-- The exchange counts towards LOCKED (R368). -/
def lockStep (offset : Int) (parentLocked : Bool) : Bool :=
  parentLocked && decide (-8 ≤ offset) && decide (offset ≤ 8)

/-- The child computes offset and delay, trims, and becomes LOCKED after 8 good exchanges in a row. A depth above
JOB_DIAMETER leaves it locking and raises TIME_DEPTH. -/
def execTimeResponseReceive (s : State) : Res :=
  match takeFrame (isTimeKind 1#2) s.shp.inbox with
  | none => .next s
  | some ((n, f), rest) =>
    let s := s.setInbox rest
    if n ≠ s.parentPort then .next s
    else
      let b := f.body
      let t1 : Int := timeT1 b
      let t2 : Int := timeT2 b
      let t3 : Int := timeT3 b
      let t4 : Int := 16 * f.beat + f.frac.toNat
      let r := s.draw
      let offset := halfOf ((t2 - t1) - (t4 - t3)) (r.2.getLsbD 63)
      let delay := halfOf ((t4 - t1) - (t3 - t2)) (r.2.getLsbD 62)
      let s := r.1
      let depth := timeDepth b + 1
      let diameter := if s.ranks.jobSize = 1#32 then 0 else s.shp.jobDiameter.toNat
      let deep := decide (diameter < depth)
      let s := if deep && (!s.shp.deepSaid || s.shp.depth.toNat != depth) then s.event 0x09#16 (bytesLE depth 8) else s
      let s := { s with shp := { s.shp with depth := BitVec.ofNat 6 depth, deepSaid := deep } }
      if s.shp.delay ≠ 0#32 ∧ (s.shp.delay.toNat : Int) + 16 < delay then .next s
      else
        let good := if lockStep offset (timeLocked b) then s.shp.goodExchanges + 1 else 0
        let lock := s.shp.timeState == 1#2 && decide (8 ≤ good) && !deep
        let s := { s with shp := { s.shp with
          offset := BitVec.ofInt 32 offset, delay := BitVec.ofInt 32 delay, stepped := false,
          goodExchanges := good, trimPpm := trimOf offset (r.2.setWidth 62 |>.setWidth 64),
          timeState := if lock then 2#2 else s.shp.timeState } }
        .next (if lock then s.endOwed 0x4220 8 none true else s)

/-- Move a controller's slot indices to the first slot at or after a program beat (R369). -/
def Stack.atCount (x : Stack) (k b : Nat) : Stack :=
  let i := slotAt k b
  { x with unitNext := SMap.mapV 0 x.unitNext fun _ => i, bankNext := SMap.mapV 0 x.bankNext fun _ => i, last := i,
           windowAt := b }

/-- Step the count by whole beats: every slot index follows, and grants of passed beats are void. -/
def State.stepCount (s : State) (d : Int) : State :=
  let m := ((s.milestone : Int) + d).toNat
  let ctl := (List.range 24).foldl (fun c k =>
    SMap.set Stack.reset c k ((SMap.get Stack.reset c k).atCount k (m - s.integ.jobOffset))) s.cel.ctl
  { s with milestone := m, cel := { s.cel with ctl := ctl }, ld := { s.ld with runs := [] },
           shp := { s.shp with timeSteps := s.shp.timeSteps + 1 } }

/-- No Cellar stream is outstanding. -/
def State.cellarIdle (s : State) : Bool :=
  (List.range 24).all fun k => (s.stack k).arriving.isEmpty && (s.stack k).streams.isEmpty

/-- With no program running, a locking member whose offset exceeds 1 beat steps its count by it. -/
def execTimeStep (s : State) : Res :=
  let o := s.shp.offset.toInt
  if s.job.loadState ≠ 5#8 ∧ s.shp.timeState = 1#2 ∧ s.shp.stepped = false ∧ (16 < o ∨ o < -16) ∧ s.cellarIdle then
    let r := s.draw
    let s := r.1.catchUp.stepCount (nearestBeat o (r.2.getLsbD 0))
    .next { s with shp := { s.shp with stepped := true } }
  else .next s

/-- 4220.08: TRUE starts locking; the root is LOCKED at once. -/
def execTimeLock (w : DictWrite) (s : State) : Res :=
  let on := w.value == [1#8]
  let rule : WriteRule := { WriteRule.plain fun _ => true with notReady := true }
  .next (s.serveWrite 0x4220 8 w rule on fun s _ =>
    let root := s.isRoot
    let s := { s with shp := { s.shp with
      timeLock := on, backup := false, deepSaid := false, goodExchanges := 0, lockAt := s.wall,
      depth := if root then 0#6 else s.shp.depth,
      timeState := if on then (if root then 2#2 else 1#2) else 0#2 } }
    if on && root then s.endOwed 0x4220 8 none true else s)

/-- Send a resync to every child; the DELAY16 that a child stored reached this member by no rule of spec/, so it
is a free value. -/
def State.resyncDown (s : State) (frac : BitVec 4) : State :=
  s.childPorts.foldl (fun s p =>
    let r := s.draw
    r.1.sendLocal p (timeBody s.shp.depth 2#2 s.timeIsLocked 0#4 0#4 frac 0#64 0#64 (BitVec.ofNat 64 s.milestone)
      (r.2.setWidth 32))) s

/-- The member is halted for a rewind. -/
def State.rewinding (s : State) : Bool :=
  s.integ.halted && s.integ.window.isNone && s.integ.frames.any fun f => !f.stop

/-- During a rewind's halt the root resyncs its children, and a child takes T3 + DELAY16, projected to now, as its
count and goes on to its own children. Its catch-up has been run as it halted, and no Cellar stream is outstanding (R369,
R372). -/
def execTimeResync (frac : BitVec 4) (s : State) : Res :=
  if !s.rewinding then .next s
  else if s.isRoot then
    if s.shp.resynced then .next s
    else .next (({ s with shp := { s.shp with resynced := true } } : State).resyncDown frac)
  else
    match takeFrame (isTimeKind 2#2) s.shp.inbox with
    | none => .next s
    | some ((n, f), rest) =>
      if n ≠ s.parentPort then .next (s.setInbox rest)
      else if !s.cellarIdle then .next s
      else
        let s := s.setInbox rest
        let b := f.body
        let r := s.draw
        let here : Int := 16 * f.beat + f.frac.toNat
        let there : Int := timeT3 b + ((bodyWord b 4).setWidth 32).toNat
        let d := (there - here + if r.2.getLsbD 0 then 15 else 0) / 16
        let s := r.1.stepCount d
        .next (({ s with shp := { s.shp with resynced := true } } : State).resyncDown frac)

/-! ### Announcements (R373) -/

/-- An ANNOUNCE or GATE body (Table 13.4). -/
def gateBody (type kind : BitVec 8) (epoch : BitVec 32) (mask : BitVec 8) (op : BitVec 4) (at_ : W64) : BitVec 960 :=
  let hb0 : W64 := epoch ++ mask ++ op ++ 0#4 ++ kind ++ type
  bodyOf [hb0, at_]

def gateKind (b : BitVec 960) : BitVec 8 := b.extractLsb' 8 8
def gateMask (b : BitVec 960) : BitVec 8 := b.extractLsb' 24 8
def gateEpoch (b : BitVec 960) : BitVec 32 := b.extractLsb' 32 32

/-- An ANNOUNCE frame goes on down the tree and sets the change for its beat; one whose beat has passed is a
contained transient fault (cause 11 of Table 16.10, tower 0). A reserved KIND is dropped. -/
def execAnnounce (s : State) : Res :=
  match takeFrame (fun b => b.setWidth 8 == 5#8) s.shp.inbox with
  | none => .next s
  | some ((_, f), rest) =>
    let b := f.body
    let s := s.setInbox rest
    if gateKind b ≠ 1#8 then .next s
    else
      let s := s.sendDown b
      let at_ := (bodyWord b 1).toNat
      if at_ < f.beat then
        .next (s.raiseIntegrity .transient 0 11 0 0 0)
      else .next { s with clock := { s.clock with announced := some ((b.extractLsb' 20 4).setWidth 8, at_) } }

/-! ### Job-wide gates (R374) -/

/-- Begin a round of the gate: nothing has been reported in it. -/
def State.beginRound (s : State) (epoch : BitVec 32) (mask : BitVec 8) : State :=
  let s := { s with shp := { s.shp with epoch := epoch, reported := [], reportCount := 0#64, reportSent := false } }
  (s.sendDown (gateBody 6#8 1#8 epoch mask 0#4 0#64)).applyGate mask

/-- 4230.03, at the desk rank: a mask gates every member and runs rounds; 0 opens the gate everywhere. -/
def execJobGate (w : DictWrite) (s : State) : Res :=
  let v := BitVec.ofNat 8 (wnum w)
  let rule : WriteRule := { WriteRule.plain fun _ => !v.getLsbD 0 with denied := s.ranks.myRank != s.ranks.deskRank }
  .next (s.serveWrite 0x4230 3 w rule (v != 0#8) fun s _ =>
    let s := s.failOlder 0x4230 3 (v != 0#8)
    let s := { s with shp := { s.shp with jobGate := v, roundDone := false } }
    if v = 0#8 then
      ({ s with shp := { s.shp with jobGateState := 0#8 } }.sendDown (gateBody 6#8 3#8 s.shp.epoch 0#8 0#4 0#64)).applyGate 0#8
    else
      ({ s with shp := { s.shp with jobGateState := 1#8, gatedReceived := 0#64 } }).beginRound (s.shp.epoch + 1) v)

def isGate (kind : BitVec 8) (b : BitVec 960) : Bool := b.setWidth 8 == 6#8 && gateKind b == kind

/-- A GATE close frame: the member gates itself under the new round and passes the frame on. -/
def execGateClose (s : State) : Res :=
  match takeFrame (isGate 1#8) s.shp.inbox with
  | none => .next s
  | some ((_, f), rest) => .next ((s.setInbox rest).beginRound (gateEpoch f.body) (gateMask f.body))

/-- Every child has reported in this round, and this member has drained. -/
def State.roundReady (s : State) : Bool :=
  s.ranks.gateState == 2#8 && !s.shp.reportSent && s.childPorts.all fun p => s.shp.reported.contains p

/-- Report up the tree; at the desk rank, end the round: two rounds in a row with every report, the second with
COUNT 0, drain the job. -/
def State.endRound (s : State) : State :=
  let total := s.shp.gatedReceived + s.shp.reportCount
  let s := { s with shp := { s.shp with gatedReceived := 0#64, reportSent := true } }
  if s.ranks.myRank = s.ranks.deskRank then
    if s.shp.jobGateState ≠ 1#8 then s
    else if total = 0#64 ∧ s.shp.roundDone then
      ({ s with shp := { s.shp with jobGateState := 2#8 } }).endOwed 0x4230 3 none true
    else ({ s with shp := { s.shp with roundDone := true } }).beginRound (s.shp.epoch + 1) s.shp.jobGate
  else if s.parentPort < 32 then s.sendLocal s.parentPort (gateBody 6#8 2#8 s.shp.epoch 0#8 0#4 total)
  else s

/-- A GATE report arrives, if one waits; once drained and with every child's report, the member reports. -/
def execGateReport (s : State) : Res :=
  let s := match takeFrame (isGate 2#8) s.shp.inbox with
    | none => s
    | some ((n, f), rest) =>
      let s := s.setInbox rest
      if gateEpoch f.body = s.shp.epoch ∧ ¬ s.shp.reported.contains n then
        { s with shp := { s.shp with reported := s.shp.reported ++ [n],
                                     reportCount := s.shp.reportCount + bodyWord f.body 1 } }
      else s
  .next (if s.roundReady then s.endRound else s)

/-- A GATE open frame releases this member's gate and goes on down the tree. -/
def execGateOpen (s : State) : Res :=
  match takeFrame (isGate 3#8) s.shp.inbox with
  | none => .next s
  | some ((_, f), rest) => .next (((s.setInbox rest).sendDown f.body).applyGate 0#8)

end Sys2Proof.Machine
end

