-- ==== Sys2Proof/Machine/Clock.lean ====
section
/-! DEFINITION. Clock stretch and slips, the governor, operating points, heat, input power, and the mode settings
outside the image (spec/10, spec/01). -/

namespace Sys2Proof.Machine

/-! ### Stretch, slips, reference (R276, R280 to R283) -/

/-- The monitors of region `r` report (R279). -/
def State.reportMargin (s : State) (r : Nat) (codes : BitVec 32) : State :=
  let e := SMap.get Region.idle s.clock.regions r
  { s with clock := { s.clock with regions := SMap.set Region.idle s.clock.regions r { e with codes := codes, low := if marginOf codes < 5 then s.milestone else e.low } } }

/-- Region `r` begins or ends a stretch on its own margin; its count goes on from what it has made (R281). -/
def State.setStretch (s : State) (r : Nat) (own : Bool) : State :=
  let e := SMap.get Region.idle s.clock.regions r
  { s with clock := { s.clock with regions := SMap.set Region.idle s.clock.regions r { e with own := own, count := s.clock.regionCount r } } }

/-- A region's margin falls below 3: it stretches its next beat and every following one; not once the reference is lost,
when the generators hold their frequency (R276). -/
def execStretchStart (region : Fin 144) (codes : BitVec 32) (s : State) : Res :=
  let r := region.val
  let s := s.reportMargin r codes
  .next (if marginOf codes < 3 ∧ (SMap.get Region.idle s.clock.regions r).own = false ∧ s.clock.refLost = false then
      s.setStretch r true else s)

/-- A region's margin has been 5 or more for 16 beats in a row, the last of which this is at the earliest: its stretch ends.
A margin below 5 begins the 16 anew. -/
def execStretchEnd (region : Fin 144) (codes : BitVec 32) (s : State) : Res :=
  let r := region.val
  let e := SMap.get Region.idle s.clock.regions r
  if 5 ≤ marginOf codes ∧ e.own = true ∧ s.clock.refLost = false then
    let s := s.toBeat (e.low + 16)
    .next ((s.reportMargin r codes).setStretch r false)
  else .next (s.reportMargin r codes)

/-- Tower of a beat region (Table 10.1). -/
def regionTower (r : Nat) : Nat := if r < 128 then r / 32 else if r < 144 then (r - 128) / 4 else (r - 144) / 2

/-- A crossing between two regions finds their edges 4 beats or more apart: a contained transient fault. -/
def execClockSlip (a : Fin 144) (b : Fin 144) (s : State) : Res :=
  let c := s.clock
  let s := { s with clock := { c with
    slips := c.slips + 1, slip := c.slip ||| (1#152 <<< a.val) ||| (1#152 <<< b.val) } }
  .next (s.raiseIntegrity .transient (regionTower a.val) 8 0 0 0)

/-- No reference edge for 1 µs: module-fatal, until the next reset. -/
def execReferenceLost (s : State) : Res :=
  let s := { s with clock := { s.clock with refLost := true } }
  .next (s.raiseIntegrity .moduleFatal 0 9 0 0 0)

/-! ### Operating points (R284 to R286) -/

/-- Typical draw of each point, watts (Table 10.2). -/
def typicalDraw (op : Nat) : Nat :=
  [1710, 1840, 1980, 2120, 2280, 2440, 2610, 2800, 2990, 3190, 3400, 3550, 3700, 3850, 4010, 4170].getD op 4170

/-- A temperature or a flow of `n` units in Q16.16. -/
def q16 (n : Int) : Int := 65536 * n

/-- LIMIT_EFFECTIVE_W (R295); which way a fraction of a watt rounds is not stated, and `up` decides. -/
def effectiveLimit (limit : Nat) (inlet flow : Int) (up : Bool) : Nat :=
  let x := q16 4200 - 120 * max 0 (inlet - q16 55) - 250 * max 0 (q16 6 - flow)
  min limit ((x + if up then 65535 else 0) / 65536).toNat

/-- The hottest die sensor. -/
def hottest (m : GovInputs) : Int := (m.upper ++ m.lower).foldl (fun a t => max a t.toInt) (-2147483648)

/-- Two adjacent points whose measured draws bracket the setpoint: the lower one (R288). -/
def bracketOf (draw : SMap Nat) (setpoint top : Nat) : Option Nat :=
  (List.range 15).find? fun k =>
    let a := SMap.get 0 draw k
    let b := SMap.get 0 draw (k + 1)
    decide (0 < a ∧ a ≤ setpoint ∧ setpoint < b ∧ k + 1 ≤ top)

/-- Of 400 control windows, those spent at the upper of the two points. -/
def upperShare (draw : SMap Nat) (setpoint k : Nat) : Nat :=
  let a := SMap.get 0 draw k
  400 * (setpoint - a) / (SMap.get 0 draw (k + 1) - a)

/-- What the limits of R286 allow at the end of a window. -/
structure GovLimits where
  top : Nat
  limit : Nat
  lowerPower : Bool
  lowerHeat : Bool
  raisePower : Bool
  raiseHeat : Bool
  coolant : Bool
deriving DecidableEq, Repr

def GovLimits.lower (g : GovLimits) : Bool := g.lowerPower || g.lowerHeat || g.coolant
def GovLimits.mayRaise (g : GovLimits) (r : Nat) : Bool := g.raisePower && g.raiseHeat && decide (r < g.top)

/-- The limits, from the measurements and the settings in force. -/
def State.govLimits (s : State) (m : GovInputs) (up : Bool) : GovLimits :=
  let c := s.clock
  let hot := c.hotSeen || s.cel.ctl.any fun e => e.2.hot
  let limit := effectiveLimit c.powerLimit.toNat m.coolantIn.toInt c.flow.toInt up
  let power := m.power.toNat
  let r := c.opRequest.toNat
  { top := min s.job.maxOp.toNat c.opCeiling.toNat, limit := limit,
    lowerPower := decide (65536 * limit < power),
    lowerHeat := decide (q16 100 ≤ hottest m) || hot,
    raisePower := decide (power * typicalDraw (r + 1) < 65536 * limit * typicalDraw c.opNow.toNat),
    raiseHeat := decide (hottest m ≤ q16 95) && !hot,
    coolant := decide (q16 65 < m.coolantIn.toInt ∨ c.flow.toInt < q16 4) }

/-- The point that steady draw aims at next (R288): the windows at the upper point that a 100 ms window still needs
fall anywhere in what is left of it, and `free` decides. -/
def steadyTarget (share spent left : Nat) (free : Bool) (k : Nat) : Nat :=
  if share ≤ spent then k else if left ≤ share - spent then k + 1 else if free then k + 1 else k

/-- One point towards a target. -/
def stepTowards (g : GovLimits) (r target : Nat) : Nat :=
  if r < target then (if g.mayRaise r then r + 1 else r) else if target < r then r - 1 else r

/-- The governor's request before the hard limits (R286 to R288, R296). -/
def govRequest (g : GovLimits) (steady : Bool) (r : Nat) (target : Option Nat) (power setpoint : Nat) : Nat :=
  if g.lower then r - 1
  else if !steady then (if g.mayRaise r then r + 1 else r)
  else
    match target with
    | some t => stepTowards g r t
    | none => if power < setpoint then (if g.mayRaise r then r + 1 else r) else if setpoint < power then r - 1 else r

/-- A job in resident placement is loaded: one operating point for all members (R28). -/
def State.residentJob (s : State) : Bool := s.jobLoaded && s.job.placement == 1#8

/-- At the start of a control window the point in force becomes the request; in a resident job it does not (R285). -/
def State.windowOp (s : State) : State := if s.residentJob then s else s.changeOp s.clock.opRequest

/-- The limits keep steady draw from the windows at point `k` + 1 that it needs, or from `k` itself (R286, R290). -/
def GovLimits.blocks (g : GovLimits) (req k share spent : Nat) : Bool :=
  decide (req < k ∨ (req = k ∧ spent < share)) && (g.lower || !g.raisePower || !g.raiseHeat)

/-- A control window of 250 µs ends and the next begins: measurements are taken, written settings come into force, the
request for the next window is set, and but in a resident job the point follows it (R285). -/
def execGovernorWindow (m : GovInputs) (s : State) : Res :=
  if s.boot.phase ≠ .ready then .next s
  else
    let d := (s.toWall (s.clock.windowStart + wallOfUs 250)).draw
    let s := d.1
    let c := s.clock
    let n := c.windows + 1
    let full := n % 400 = 0
    let sum := c.windowSum + m.power.toNat
    let p100 := if full then BitVec.ofNat 32 (sum / 400) else c.power100
    let steady := s.modes.powerMode == 1#8
    let draw := SMap.set 0 c.draw c.opNow.toNat m.power.toNat
    let setpoint := 65536 * c.setpoint.toNat
    let g := s.govLimits m (d.2.getLsbD 0)
    let r := c.opRequest.toNat
    let k := bracketOf draw setpoint g.top
    let spent := match k with
      | some k => c.dithered + (if c.opNow.toNat = k + 1 then 1 else 0)
      | none => 0
    let spent := if full then 0 else spent
    let share := match k with
      | some k => upperShare draw setpoint k
      | none => 0
    let target := k.map fun k => steadyTarget share spent (400 - n % 400) (d.2.getLsbD 1) k
    let want := govRequest g steady r target m.power.toNat setpoint
    let req := min want g.top
    let held := s.residentJob && decide (c.opNow.toNat < req)
    let off := decide (1000 * ((m.power.toNat : Int) - setpoint).natAbs > 15 * setpoint)
    let unreachable := steady && (held || (match k with
      | some k => g.blocks req k share spent
      | none => off
        && (decide (m.power.toNat < setpoint ∧ req ≤ r) || decide (setpoint < m.power.toNat ∧ r = 0))))
    let shortfall : Int := if unreachable then
        ((setpoint : Int) - p100.toNat + if d.2.getLsbD 2 then 65535 else 0) / 65536
      else 0
    let wants := if steady then decide (m.power.toNat < setpoint) else decide (r < 15)
    let s := { s with clock := { c with
      opRequest := BitVec.ofNat 8 req, setpointNow := c.setpoint, powerLimitNow := c.powerLimit,
      flowNow := c.flow, powerModeNow := s.modes.powerMode, opCeilingNow := c.opCeiling, powerW := m.power,
      power100 := p100, inputV := m.inputV, coolantIn := m.coolantIn, coolantOut := m.coolantOut,
      flowEst := Config.flowEstimate m.power m.coolantIn m.coolantOut c.glycol,
      upperTemp := (List.range 4).foldl (fun a t => SMap.set 0#32 a t (m.upper.getD t 0#32)) c.upperTemp,
      lowerTemp := (List.range 4).foldl (fun a t => SMap.set 0#32 a t (m.lower.getD t 0#32)) c.lowerTemp,
      temp := (List.range 152).foldl (fun a t => SMap.set 0#8 a t (m.regions.getD t 0#8)) c.temp,
      windows := n, windowSum := if full then 0 else sum, windowStart := c.windowStart + wallOfUs 250,
      draw := draw, dithered := spent, limitEffective := BitVec.ofNat 16 g.limit,
      shortfall := BitVec.ofInt 32 shortfall,
      thermalSteps := if g.lowerHeat && decide (req < r) then c.thermalSteps + 1 else c.thermalSteps,
      emergency := c.emergencyNow, emergencyNow := false, hotSeen := false,
      coolantRange := g.coolant, unreachable := unreachable,
      heldByJob := held, thermal := g.lowerHeat || (wants && !g.raiseHeat),
      power := g.lowerPower || (wants && !g.raisePower), ceiling := decide (req = g.top ∧ g.top < 15) } }
    let s := if unreachable && !c.unreachable then
        s.event 0x04#16 (bytesLE (BitVec.ofInt 32 shortfall).toNat 4 ++ [0#8, 0#8, 0#8, 0#8]) else s
    let s := if g.coolant && !c.coolantRange then
        s.event 0x06#16 (bytesLE m.coolantIn.toNat 4 ++ bytesLE c.flow.toNat 4) else s
    .next s.windowOp

/-- A change of operating point: at the beat that was announced; at the desk rank of a resident job, its
announcement, no earlier than the diameter's hops and the slack allow (`lowest` is the lowest request of the other
members, `later` the beats that the desk adds). A point equal to the desk rank's own is announced all the same: another
member may stand at another (R28, R292). With no resident job the change came with the control window (R285). -/
def execOpChange (lowest : BitVec 4) (later : BitVec 32) (s : State) : Res :=
  match s.clock.announced with
  | some (op, at_) =>
    let s := s.toBeat at_
    .next ({ s with clock := { s.clock with announced := none } }.changeOp op)
  | none =>
    if s.residentJob && s.ranks.myRank == s.ranks.deskRank then
      let one := s.ranks.jobSize == 1#32
      let own := s.clock.opRequest.toNat
      let op := if one then own else min own lowest.toNat
      let diameter := if one then 0 else s.shp.jobDiameter.toNat
      let at_ := s.milestone + diameter * s.job.hopBeats.toNat + s.job.hopSlack.toNat + later.toNat
      let s := s.sendDown (gateBody 5#8 1#8 0#32 0#8 (BitVec.ofNat 4 op) (BitVec.ofNat 64 at_))
      .next { s with clock := { s.clock with announced := some (BitVec.ofNat 8 op, at_) } }
    else .next s

/-- A die sensor at 105 °C or a mean of more than 4,400 W over 100 µs: four points down at once. -/
def execEmergencyStep (temp : BitVec 32) (power : BitVec 32) (s : State) : Res :=
  if (q16 105 ≤ temp.toInt ∨ 4400 * 65536 < power.toNat) ∧ s.clock.refLost = false then
    let op := BitVec.ofNat 8 (s.clock.opNow.toNat - 4)
    let s := s.changeOp op
    let s := { s with clock := { s.clock with
      opRequest := op, emergencyNow := true, emergency := true, emergencySteps := s.clock.emergencySteps + 1 } }
    .next (s.event 0x05#16 [op, 0#8, 0#8, 0#8, 0#8, 0#8, 0#8, 0#8])
  else .next s

/-- A die sensor at 110 °C or more: module-fatal. -/
def execDieTrip (temp : BitVec 32) (s : State) : Res :=
  if q16 110 ≤ temp.toInt then .next (s.raiseIntegrity .moduleFatal 0 15 0 0 0) else .next s

/-- Fuses whose programming is cut short are left blown or not, as free values have it (R528): the part, and the free
values drawn. -/
def cutFuses (draws : Nat) (part : Part) : List Bool → Part × Nat
  | [] => (part, draws)
  | f :: fs =>
    let blown := (Config.freeWord draws).getLsbD 0
    cutFuses (draws + 1) (if f then { part with testClose := part.testClose || blown }
      else { part with debugClose := part.debugClose || blown }) fs

/-- The state in which a cold boot begins: what is fused stays, the TAP, which no reset of the module reaches, and the
record of what has left the module; nothing else (R298, R512). -/
def State.coldBoot (s : State) : State :=
  let c := cutFuses s.draws s.part s.boot.fuses
  { State.reset with
    pending := s.pending, part := c.1, draws := c.2, wall := s.wall, tap := s.tap,
    dict := { Dictionary.reset with replies := s.dict.replies }, kl := { Kloder.reset with pins := s.kl.pins },
    i3c := { I3c.reset with sent := s.i3c.sent }, flash := { Flash.reset with answers := s.flash.answers } }

/-- The state after the supply is lost: the regulators are off, and the TAP has no supply (R299, R537). -/
def State.powerLost (s : State) : State :=
  { s.coldBoot with tap := Tap.reset, boot := { Boot.reset with phase := .off } }

/-- Input below 38 V for 10 µs: outputs quiet, regulators off. -/
def execPowerLoss (s : State) : Res := .next s.powerLost

/-! ### Settings (R26, R35, R291) -/

/-- 1100.01, in force from the next control window. -/
def execPowerMode (w : DictWrite) (s : State) : Res :=
  .next (s.serveWrite 0x1100 1 w (WriteRule.plain fun _ => decide (wnum w ≤ 1)) false fun s _ =>
    { s.modesWritten with modes := { s.modesWritten.modes with powerMode := BitVec.ofNat 8 (wnum w) } })

/-- 2030.03. -/
def execSetpointW (w : DictWrite) (s : State) : Res :=
  .next (s.serveWrite 0x2030 3 w (WriteRule.plain fun _ => decide (2000 ≤ wnum w ∧ wnum w ≤ 4000)) false fun s _ =>
    { s with clock := { s.clock with setpoint := BitVec.ofNat 16 (wnum w) } })

/-- 2030.04. -/
def execPowerLimitW (w : DictWrite) (s : State) : Res :=
  .next (s.serveWrite 0x2030 4 w (WriteRule.plain fun _ => decide (2000 ≤ wnum w ∧ wnum w ≤ 4200)) false fun s _ =>
    { s with clock := { s.clock with powerLimit := BitVec.ofNat 16 (wnum w) } })

/-- 2020.03. -/
def execOpCeiling (w : DictWrite) (s : State) : Res :=
  .next (s.serveWrite 0x2020 3 w (WriteRule.plain fun _ => decide (wnum w ≤ 15)) false fun s _ =>
    { s with clock := { s.clock with opCeiling := BitVec.ofNat 8 (wnum w) } })

/-- 2040.04, 0.0 to 12.0 in Q16.16. -/
def execFlowDeclared (w : DictWrite) (s : State) : Res :=
  .next (s.serveWrite 0x2040 4 w (WriteRule.plain fun _ => decide (wnum w ≤ 12 * 65536)) false fun s _ =>
    { s with clock := { s.clock with flow := BitVec.ofNat 32 (wnum w) } })

/-- 1100.08: the next job loads in guarded mode. -/
def execForceGuarded (w : DictWrite) (s : State) : Res :=
  .next (s.serveWrite 0x1100 8 w (WriteRule.plain fun _ => true) false fun s _ =>
    { s with modes := { s.modes with forceGuarded := w.value == [1#8] } })

end Sys2Proof.Machine
end

