-- ==== Sys2Proof/Machine/Load.lean ====
section
/-! DEFINITION. Loading a program, program start and unload (spec/09, spec/05). -/

namespace Sys2Proof.Machine

/-! ### The staged image (R251, Tables 9.1 and 9.2) -/

/-- Stack and byte address of the staging area (A000.04), and its size. -/
def stagingStack : Nat := 16
def stagingBase : Nat := 163208757248
def stagingBytes : Nat := 8589934592

def State.imgBytes (s : State) (a n : Nat) : List Byte := s.readStack stagingStack (stagingBase + a) n
/-- `n` bytes of the image at byte `a`, little-endian. -/
def State.img (s : State) (a n : Nat) : Nat := numLE (s.imgBytes a n)
def State.imgWord (s : State) (a : Nat) : W64 := BitVec.ofNat 64 (s.img a 8)

/-- Word IHk of the header. -/
def State.ih (s : State) (k : Nat) : W64 := s.imgWord (8 * k)

def State.imgPages (s : State) : Nat := ((s.ih 7).extractLsb' 0 32).toNat
def State.imgSignature (s : State) : Nat := ((s.ih 7).extractLsb' 32 32).toNat
def State.imgShapes (s : State) : Nat := ((s.ih 2).extractLsb' 39 5).toNat
def State.imgVariants (s : State) : Nat := ((s.ih 2).extractLsb' 32 7).toNat

/-- A part that takes `n` bytes from page `p` lies within the image. -/
def State.partIn (s : State) (p n : Nat) : Bool := decide (4096 * p + n ≤ 4096 * s.imgPages)

/-- JOB_DIAMETER as the rules use it: 0 for a job of one (R377). -/
def State.diameter (s : State) : Nat := if s.ranks.jobSize = 1#32 then 0 else s.shp.jobDiameter.toNat

/-- Beats of a hop at MAX_OP: ceil ((96 + D) ns × f), D the largest CHANNEL_NS of a port that is not off
(Table 11.6, R271). -/
def State.hopMinimum (s : State) (maxOp : Nat) : Nat :=
  let d := ((List.range 32).filter fun p => (s.port p).role != 0#8).foldl
    (fun m p => max m (s.port p).channelNs.toNat) 0
  beatsOfUs maxOp (96 + d) 1000

/-- The header fields lie in their ranges (R257, R271, R313, R377). -/
def State.headerOk (s : State) : Bool :=
  let ih1 := s.ih 1
  let ih2 := s.ih 2
  let interval := (ih1.extractLsb' 32 32).toNat
  let slack := (ih1.extractLsb' 16 16).toNat
  let two (lo : Nat) : Bool := ih1.extractLsb' lo 2 == 1#2 || ih1.extractLsb' lo 2 == 2#2
  let hop := (ih2.extractLsb' 48 16).toNat
  let pages := s.imgPages
  let page (n : Nat) : Bool := decide (1 ≤ n ∧ n < pages)
  let idle (k : Nat) : Bool :=
    let b := ((s.ih 4).extractLsb' (16 * k) 16).toNat
    decide (b < 8192 ∨ b = 0xFFFF)
  let one := s.ranks.jobSize == 1#32
  decide (7200 ≤ interval ∧ interval ≤ 28800) && decide (32 ≤ slack) && two 6 && two 4 && two 2 && two 0
    && (one || (decide (s.hopMinimum (ih2.extractLsb' 44 4).toNat ≤ hop) && s.shp.jobDiameter != 0#8))
    && decide (s.diameter * hop + slack < 2 ^ 19)
    && decide (1 ≤ s.imgShapes ∧ s.imgShapes ≤ 16) && decide (1 ≤ s.imgVariants ∧ s.imgVariants ≤ 64)
    && (List.range 4).all idle
    && page ((s.ih 5).extractLsb' 32 32).toNat && page ((s.ih 6).extractLsb' 0 32).toNat && page s.imgSignature
    && ((s.ih 5).setWidth 32 == 0#32 || page ((s.ih 5).extractLsb' 0 32).toNat)
    && ((s.ih 6).extractLsb' 32 32 == 0#32 || page ((s.ih 6).extractLsb' 32 32).toNat)

/-- Falcon-1024 over the first 64 B of the SHAKE256 output of the pages before the signature, with the installed
program key; a key that is not installed fails (R252, R522). -/
def State.imageSigned (s : State) : Bool :=
  let key := s.boot.programKey.readBytes 0 1793
  !(s.boot.programKey == []) && Config.falconVerify key (shake256 (s.imgBytes 0 (4096 * s.imgSignature)) 64)
    (s.imgBytes (4096 * s.imgSignature) (4096 * (s.imgPages - s.imgSignature)))

/-- A010.03 LOAD_REFUSAL (Table 9.10). -/
def refusalWord (cause handle lhall shape member : Nat) : W64 :=
  BitVec.ofNat 8 cause ++ BitVec.ofNat 12 handle ++ BitVec.ofNat 8 lhall ++ BitVec.ofNat 4 shape
    ++ BitVec.ofNat 16 member ++ 0#16

/-- The first block of the image that the Steward cannot read. -/
def badBlock (len : Nat) (r : StagingReads) : Option Nat :=
  match r.bad with
  | some b => if 512 * b.toNat < len then some b.toNat else none
  | none => none

/-- The Steward reads the image from staging: a corrected block is counted, and the first uncorrectable one is counted and
recorded under its own agent code; what fails is the load (R186; DEDUCED, log row 130). -/
def State.readStaging (s : State) (len : Nat) (r : StagingReads) : State :=
  let x := s.stack stagingStack
  let bad := badBlock len r
  let s := s.setCtl stagingStack (x.countEcc r.corrected.toNat (if bad.isSome then 1 else 0))
  match bad with
  | some b => s.cellarRecord stagingStack 1 (stagingBase + 512 * b) 253#8
  | none => s

/-- The Steward's checks in their order (R257, step 2). -/
def State.checkImage (s : State) (len : Nat) (reads : StagingReads) : Option W64 :=
  if (badBlock len reads).isSome then some (refusalWord 8 0 0 0 0)
  else if (s.ih 0).extractLsb' 32 32 ≠ 0x5449524D#32 ∨ (s.ih 0).extractLsb' 16 16 ≠ 1#16
      ∨ len ≠ 4096 * s.imgPages ∨ stagingBytes < len then some (refusalWord 2 0 0 0 0)
  else if !s.headerOk then some (refusalWord 3 0 0 0 0)
  else if !s.imageSigned then some (refusalWord 1 0 0 0 0)
  else none

/-! ### Variants and the hall map (R253 to R255) -/

/-- Hall order of R253. -/
def hallOrder : List Nat :=
  [0, 1, 3, 2].flatMap fun t => (List.range 12).flatMap fun y =>
    let row := (List.range 4).map fun x => 48 * t + 4 * y + x
    if y % 2 = 0 then row else row.reverse

/-- Halls that the loader may use, in hall order: enabled, and not in HALLS_OFF (R458). -/
def State.loadHalls (s : State) : List Nat := hallOrder.filter s.hallUp

/-- A variant entry (Table 9.3). -/
structure Variant where
  index : Nat
  halls : Nat
  pinned : Bool
  nhandles : Nat
  digest : W64
  handleList : Nat
  shapeTable : Nat
  coreTable : Nat
deriving DecidableEq, Repr

def State.variantAt (s : State) (i : Nat) : Variant :=
  let a := 4096 * ((s.ih 5).extractLsb' 32 32).toNat + 32 * i
  let v0 := s.imgWord a
  let v2 := s.imgWord (a + 16)
  ⟨i, (v0.extractLsb' 56 8).toNat, v0.getLsbD 55, (v0.extractLsb' 32 16).toNat, s.imgWord (a + 8),
   (v2.extractLsb' 32 32).toNat, (v2.extractLsb' 0 32).toNat, ((s.imgWord (a + 24)).extractLsb' 32 32).toNat⟩

/-- Of several variants, the one with most halls, the lowest index among equals. -/
def mostHalls (vs : List Variant) : Option Variant :=
  vs.foldl (fun best v =>
    match best with
    | none => some v
    | some b => if b.halls < v.halls then some v else some b) none

/-- The variant that the loader takes (R254). `fewest` is the smallest enabled count of any other member. -/
def State.chooseVariant (s : State) (fewest : BitVec 8) : Option Variant :=
  let n := s.loadHalls.length
  let vs := ((List.range s.imgVariants).map s.variantAt).filter fun v => decide (1 ≤ v.halls ∧ v.halls ≤ 192)
  if (s.ih 1).extractLsb' 0 2 = 2#2 then
    let pins := vs.filter fun v => v.pinned && v.digest == s.part.digest && decide (v.halls ≤ n)
      && s.integ.hallsOff == 0#192
    match mostHalls pins with
    | some v => some v
    | none => mostHalls (vs.filter fun v => !v.pinned && decide (v.halls ≤ n))
  else
    let m := if s.ranks.jobSize = 1#32 then n else min n fewest.toNat
    mostHalls (vs.filter fun v => !v.pinned && decide (v.halls ≤ m))

/-! ### Handles (R166, R167) -/

/-- A handle list entry (Table 9.5) resolved under the map: its handle, logical hall, towers, the physical slices
of the module that it names, W0 as bound, W1, first row, rows, and its contents. -/
structure Binding where
  handle : Nat
  lhall : Nat
  towers : List Nat
  slices : List Nat
  w0 : W64
  w1 : W64
  initPage : Nat
  initRows : Nat
deriving DecidableEq, Repr

/-- W0 and W1 as they are bound: reserved bits read 0 (Tables 5.4 and 5.5). -/
def boundW0 (w : W64) : W64 := w &&& (if w.getLsbD 62 then 0xFC0FFFFFFFC00000#64 else 0xFFFFFFFFFFC00000#64)
def boundW1 (w : W64) : W64 := w &&& 0xFFFFFFFFFFFF0000#64

def Binding.entry (b : Binding) : HandleEntry := ⟨Pair64.of b.w0, Pair64.of b.w1⟩
def Binding.row0 (b : Binding) : Nat := b.entry.row0
def Binding.rows (b : Binding) : Nat := b.entry.lenm1 + 1

/-- Entry `i` of the chosen variant's handle list; `halls` is the map. -/
def State.bindingAt (s : State) (v : Variant) (halls : List Nat) (i : Nat) : Binding :=
  let a := 4096 * v.handleList + 32 * i
  let h0 := s.imgWord a
  let w0 := boundW0 (s.imgWord (a + 8))
  let h3 := s.imgWord (a + 24)
  let lhall := (h0.extractLsb' 44 8).toNat
  let pos := (w0.extractLsb' 50 2).toNat
  let h := halls.getD lhall 0
  let perHall := w0.getLsbD 62
  let w0' : W64 := if perHall then w0
    else w0.extractLsb' 58 6 ++ BitVec.ofNat 8 (tileOf h pos) ++ w0.extractLsb' 0 50
  { handle := (h0.extractLsb' 52 12).toNat, lhall := lhall,
    towers := if perHall then (halls.map hallTower).eraseDups else [hallTower h],
    slices := if perHall then halls.map fun g => 144 * hallTower g + tileOf g pos
      else [144 * hallTower h + tileOf h pos],
    w0 := w0', w1 := boundW1 (s.imgWord (a + 16)), initPage := (h3.extractLsb' 32 32).toNat,
    initRows := (h3.extractLsb' 0 32).toNat }

/-- Two regions share a physical row and differ in MODE or ATOM. -/
def Binding.clashes (a b : Binding) : Bool :=
  a.w0.extractLsb' 58 2 != b.w0.extractLsb' 58 2
    && decide (a.row0 < b.row0 + b.rows ∧ b.row0 < a.row0 + a.rows)
    && a.slices.any fun k => b.slices.contains k

/-- R166: the entry cannot be bound beside those before it. A mapped hall is enabled, so no entry names a slice of
a disabled hall. -/
def State.refusesBinding (s : State) (n : Nat) (before : List Binding) (b : Binding) : Bool :=
  let e := b.entry
  !e.valid || (!e.perHall && decide (n ≤ b.lhall))
    || before.any (fun a => a.handle == b.handle && a.towers.any fun t => b.towers.contains t)
    || (b.w0.extractLsb' 50 2 == 3#2 && e.perHall)
    || decide (16383 < e.row0 + e.lenm1)
    || (e.grid && (decide (e.row0 % 32 ≠ 0) || decide (b.rows % 32 ≠ 0)))
    || decide (b.rows < e.nslot * e.slotRows) || decide (b.rows < b.initRows)
    || (b.initPage != 0 && !s.partIn b.initPage (512 * b.initRows))
    || before.any fun a => a.clashes b

/-- POS of a KIND 0 entry as the image gives it is 3. -/
def State.badPos (s : State) (v : Variant) (i : Nat) : Bool :=
  (s.imgWord (4096 * v.handleList + 32 * i + 8)).extractLsb' 50 2 == 3#2

/-- Every entry of the handle list in order, or the first that is refused. -/
def State.bindings (s : State) (v : Variant) (halls : List Nat) : Nat → Nat → List Binding → List Binding × Option Binding
  | 0, _, done => (done, none)
  | n + 1, i, done =>
    let b := s.bindingAt v halls i
    if s.badPos v i || s.refusesBinding halls.length done b then (done, some b)
    else s.bindings v halls n (i + 1) (done ++ [b])

/-- Write an entry into the table and the master copy of each of its towers. -/
def State.bindEntry (s : State) (b : Binding) : State :=
  { s with ld := { s.ld with
      handles := b.towers.foldl (fun m t => SMap.set HandleEntry.unbound m (4096 * t + b.handle) b.entry) s.ld.handles,
      master := b.towers.foldl (fun m t => SMap.set (0#64, 0#64) m (4096 * t + b.handle) (b.w0, b.w1)) s.ld.master } }

/-- Zero every row of a region. -/
def State.zeroRegion (s : State) (b : Binding) : State :=
  b.slices.foldl (fun s k => s.setSlice k ((s.sliceOf k).place (512 * b.row0) (512 * b.rows) [])) s

/-- Write the contents that the image supplies for a region, row by row from offset 0. Entries that share rows are filled in
the order of the list, so the later one's bytes stand (R167; DESIGN CHOICE, log row 122). -/
def State.fillRegion (s : State) (b : Binding) : State :=
  if b.initPage = 0 then s
  else
    b.slices.foldl (fun s k =>
      (List.range b.initRows).foldl (fun s r =>
        s.writeRow k b.row0 r b.entry.grid
          (Memory.writeBytes [] 0 (s.imgBytes (4096 * b.initPage + 512 * r) 512))) s) s

/-! ### Core records, groups, watched and idle bells (Tables 9.2, 9.4) -/

/-- Address of core record 3 i + c. -/
def coreRecord (v : Variant) (i c : Nat) : Nat := 4096 * v.coreTable + 80 * (3 * i + c)

def State.coreStart (s : State) (a : Nat) : Nat := ((s.imgWord (a + 8)).extractLsb' 47 17).toNat
def State.coreEntry (s : State) (a q : Nat) : Nat := s.img (a + 16 + 4 * q) 4 % 2 ^ 17

/-- R257: START, ENTRY and INIT_GRANULES lie within the core's Pantry, and the contents within the image. -/
def State.coreOk (s : State) (v : Variant) (i c : Nat) : Bool :=
  let a := coreRecord v i c
  let size := pantrySize c
  let c0 := s.imgWord a
  let page := (c0.extractLsb' 32 32).toNat
  let n := (c0.extractLsb' 16 16).toNat
  s.partIn v.coreTable (80 * (3 * i + c) + 80)
    && decide (8 * s.coreStart a < size) && (List.range s.imgShapes).all (fun q => decide (8 * s.coreEntry a q < size))
    && decide (32 * n ≤ size) && (page == 0 || s.partIn page (32 * n))

/-- Load one core's Pantry, START and ENTRY addresses. -/
def State.loadCore (s : State) (v : Variant) (i c h : Nat) : State :=
  let a := coreRecord v i c
  let key := 3 * h + c
  let c0 := s.imgWord a
  let page := (c0.extractLsb' 32 32).toNat
  let n := (c0.extractLsb' 16 16).toNat
  let s := if page = 0 then s else s.setPantry key (Memory.writeBytes [] 0 (s.imgBytes (4096 * page) (32 * n)))
  { s with job := { s.job with
      starts := SMap.set 0 s.job.starts key (s.coreStart a),
      entries := (List.range s.imgShapes).foldl (fun m q => SMap.set 0 m (16 * key + q) (s.coreEntry a q))
        s.job.entries } }

/-- Hall group `g`, translated through the map (R255). -/
def State.hallGroupOf (s : State) (halls : List Nat) (g : Nat) : BitVec 192 :=
  let page := ((s.ih 5).extractLsb' 0 32).toNat
  if page = 0 then 0#192
  else
    let m := s.img (4096 * page + 24 * g) 24
    (List.range halls.length).foldl (fun b i => if m.testBit i then b ||| (1#192 <<< halls.getD i 0) else b) 0#192

/-- Write 3230 HALL_GROUP, 3330 WATCH_BELL and 3302 IDLE_BELL. An image without a watch table watches no bell. -/
def State.loadBells (s : State) (halls : List Nat) : State :=
  let watch := ((s.ih 6).extractLsb' 32 32).toNat
  let bells := if watch = 0 then []
    else (List.range 256).foldl (fun m k =>
      SMap.set 0xFFFF#16 m k (BitVec.ofNat 16 (s.img (4096 * watch + 2 * (k % 64)) 2))) []
  let groups := (List.range 16).foldl (fun m g => SMap.set 0#192 m g (s.hallGroupOf halls g)) s.por.hallGroup
  let idle := (List.range 16).foldl
    (fun m k => SMap.set 0xFFFF#16 m k ((s.ih 4).extractLsb' (16 * (k % 4)) 16)) s.pb.idleBell
  { s with por := { s.por with hallGroup := groups }, pb := { s.pb with watchBell := bells, idleBell := idle } }

/-! ### Shapes (R262) -/

def State.shapeAddr (v : Variant) (q : Nat) : Nat := 4096 * v.shapeTable + 16 * q

/-- Shape `q` of the image, with its commit list. -/
def State.shapeAt (s : State) (v : Variant) (q : Nat) : Shape :=
  let a := State.shapeAddr v q
  let e1 := s.imgWord (a + 8)
  let page := (e1.extractLsb' 0 32).toNat
  ⟨s.imgWord a, (List.range (e1.extractLsb' 48 16).toNat).map fun k => s.img (4096 * page + 4 * k) 4⟩

def Shape.g (x : Shape) : Nat := (x.se0.extractLsb' 48 16).toNat
def Shape.p (x : Shape) : Nat := (x.se0.extractLsb' 32 16).toNat
def Shape.beats (x : Shape) : Nat := (x.se0.extractLsb' 0 32).toNat

/-- Offsets ascend by at most the interval and end no more than it before STEP_BEATS. -/
def offsetsOk (interval beats : Nat) : List Nat → Bool
  | [] => false
  | [o] => decide (o < beats ∧ beats ≤ o + interval)
  | o :: o' :: os => decide (o < o' ∧ o' ≤ o + interval) && offsetsOk interval beats (o' :: os)

def Shape.ok (x : Shape) (interval : Nat) : Bool :=
  decide (1 ≤ x.beats ∧ x.g ≤ 8192 ∧ 1 ≤ x.g + x.p) && x.commits.head? == some 0 && offsetsOk interval x.beats x.commits

/-- The first shape that the loader refuses (R257, R262). -/
def State.badShape (s : State) (v : Variant) : Option Nat :=
  let interval := ((s.ih 1).extractLsb' 32 32).toNat
  (List.range s.imgShapes).find? fun q =>
    let e1 := s.imgWord (State.shapeAddr v q + 8)
    let n := (e1.extractLsb' 48 16).toNat
    !(s.partIn v.shapeTable (16 * q + 16) && s.partIn (e1.extractLsb' 0 32).toNat (4 * n)
      && (s.shapeAt v q).ok interval)

/-- STEADY_SHAPE names a shape of the variant or none (R408). -/
def State.steadyOk (s : State) : Bool :=
  s.desk.steadyShape == 0xFF#8 || decide (s.desk.steadyShape.toNat < s.imgShapes)

/-! ### What a load resets -/

/-- Counters and records that reset when a job loads (R169, R220, R247, R352, R379, R409, R438, R466). -/
def State.resetCounters (s : State) : State :=
  { s with
    ld := { s.ld with sliceLost := [], pantryLost := [], gridSerial := [] },
    por := { s.por with done := [], linkLost := [], queueFull := [], stagingHits := [] },
    pb := { s.pb with handActions := 0#32, sendsAccepted := [], sendsClosed := [], stageFull := [], rsvFull := [],
                      remoteRefusals := [] },
    cel := { s.cel with ctl := SMap.mapV Stack.reset s.cel.ctl fun x =>
      { x with bankWait := 0#64, turnSlots := 0#64, limit := false } },
    eo := { s.eo with ports := SMap.mapV Port.reset s.eo.ports fun p => { p with creditWait := 0#64, schedWait := p.schedWait.map fun _ => s.milestone, transit := 0#64 } },
    ranks := { s.ranks with reqRefused := 0#64, mgtDropped := 0#64 },
    shp := { s.shp with diameterExceeded := 0#64, timeSteps := 0#32, backup := false },
    desk := { s.desk with retired := [], reckonerColumns := [], noCandidate := [], tokensReleased := 0#64,
                          lastBoundary := 0#64, ignored := 0#64 },
    loader := { s.loader with bytesLanded := 0#64, retries := 0#32, peerFetches := 0#32, discarded := 0#64,
                              gens := ⟨0#8, 0#8, []⟩, lastSwitch := 0#64 },
    integ := { s.integ with lastCommit := 0, commits := 0#64, jobOffset := 0, confirmed := 0, rewinds := 0#32,
                            lastResume := 0, lastInterruptionUs := 0#32, ledger := [], ledgerStep := 0#64 } }

/-- Blocks that the loader writes hold what it wrote, after the temperature limit too (R188). -/
def State.markRewritten (s : State) (k a n : Nat) : State :=
  if s.cel.invalid.isSome then
    let new := ((List.range n).map fun i => (k, a + 512 * i)).filter fun x => !s.cel.rewritten.contains x
    { s with cel := { s.cel with rewritten := s.cel.rewritten ++ new } }
  else s

/-- Zeros in every adapter slot (R435). -/
def State.zeroAdapters (s : State) : State :=
  let n := s.loader.slotBytes.toNat
  let ca := s.loader.adapterCa
  let k := (ca.extractLsb' 38 5).toNat
  let a := (ca.extractLsb' 0 38).toNat
  if n = 0 then s
  else (s.setStack k ((s.stackOf k).place a (1024 * n) [])).markRewritten k a (2 * n)

/-- The module clears a job that is unloaded or refused: handles, bells, posts and the lodger table, and the work of its
porters, loader and desk (R259, R274, R168). A written BARRIER and the manifest digests stay (R474). -/
def State.clearJob (s : State) : State :=
  { s with
    mc := SMap.mapV MCore.idle s.mc fun m => { m with running := false },
    vc := SMap.mapV VCore.idle s.vc fun v => { v with running := false },
    ld := { s.ld with handles := [], master := [], runs := [] },
    pb := { s.pb with bells := [], posts := [], stages := [], flights := [], returns := [] },
    por := { s.por with porters := [], inbound := [], inboundSignals := [], landBeat := 0, landCount := 0 },
    cel := { s.cel with ctl := SMap.mapV Stack.reset s.cel.ctl fun x => { x with arriving := [], streams := [] } },
    eo := { s.eo with
      installed := [], ports := SMap.mapV Port.reset s.eo.ports fun p => { p with excluded := false } },
    shp := { s.shp with backup := false },
    desk := { s.desk with
      role := 0#8, launchLead := 0#32, decided := [], latched := [], tab := DeskTable.empty, releases := [],
      prompts := [], masks := [], reckoners := [], late := [], transitMembers := [] },
    loader := { s.loader with
      queue := [], active := none, state := 0#4, form := 0#2, set := false, gen := 0#8, layer := 0#16,
      shardsDone := 0#28, barrierState := 0#8, gens := ⟨0#8, 0#8, []⟩, ready := none, switchAt := none,
      switched := none },
    integ := { s.integ with halted := false, frames := [], seen := [], faulted := false, window := none, unconfirmed := [],
                            rewindWalls := [], interruptionOpen := false, failedReads := [], ledgerAcc := [],
                            ledgerTouched := [] },
    snaps := [],
    modes := { s.modes with wordUpset := 0#64 },
    job := { Job.absent with load := s.job.load } }

/-- The load ends: LOAD_STATE 6, nothing stays bound, and the job's span ends as a completed unload ends it (R257,
R274). -/
def State.refuseLoad (s : State) (w : W64) : State :=
  let s := s.clearJob
  let s := { s with job := { s.job with loadState := 6#8, refusal := w } }
  (s.endOwed 0xA010 1 none false).failOwed

/-- LAUNCH_LEAD (R382). -/
def State.launchLead (s : State) : Nat :=
  if s.job.placement = 1#8 then
    s.diameter * s.job.hopBeats.toNat + s.job.hopSlack.toNat + 16 * s.ranks.jobSize.toNat + 64
  else 0

/-- Role of the desk (R380). -/
def State.roleOf (s : State) : BitVec 8 :=
  if s.job.placement = 2#8 ∨ s.ranks.myRank = s.ranks.deskRank ∨ s.ranks.jobSize = 1#32 then 1#8 else 2#8

/-- LOAD_STATE becomes 4 (R257, steps 6 and 7); from here on no point lies above MAX_OP (R268, R286). -/
def State.armJob (s : State) : State :=
  let s := { s with
    desk := { s.desk with role := s.roleOf, launchLead := BitVec.ofNat 32 s.launchLead },
    job := { s.job with
      loadState := 4#8, startBeat := if s.ranks.jobSize = 1#32 then s.milestone + 1800 else 0 } }
  let s := { s with clock := { s.clock with
    opRequest := if s.job.maxOp.ult s.clock.opRequest then s.job.maxOp else s.clock.opRequest } }
  ((s.changeOp s.clock.opNow).modesWritten).endOwed 0xA010 1 none true

/-- The job's objects from the header. -/
def State.jobOfHeader (s : State) (len : Nat) : Job :=
  let ih1 := s.ih 1
  let ih2 := s.ih 2
  { Job.absent with
    load := BitVec.ofNat 64 len, loadState := 1#8,
    placement := (ih1.extractLsb' 0 2).setWidth 8,
    check := if s.modes.forceGuarded then 2#8 else (ih1.extractLsb' 2 2).setWidth 8,
    swapMode := (ih1.extractLsb' 4 2).setWidth 8, interval := ih1.extractLsb' 32 32,
    compile := (ih1.extractLsb' 6 2).setWidth 8,
    digest := digest32 (s.imgBytes 0 (4096 * s.imgPages)),
    hopSlack := ih1.extractLsb' 16 16, hopBeats := ih2.extractLsb' 48 16,
    maxOp := (ih2.extractLsb' 44 4).setWidth 8, stepBell := (ih2.extractLsb' 19 13).setWidth 16, seed := s.ih 3 }

/-- Steps 3 to 6 of R257 on a member that holds job state; parts of the variant that lie beyond the image are
refused with the cause of the part. -/
def State.placeJob (s : State) (v : Variant) : State :=
  let halls := s.loadHalls.take v.halls
  let s := { s with job := { s.job with
    variant := BitVec.ofNat 8 v.index, logicalHalls := BitVec.ofNat 8 v.halls,
    hallMap := (List.range v.halls).foldl (fun m i => SMap.set 0xFF#8 m i (BitVec.ofNat 8 (halls.getD i 0))) [] } }
  let r := s.bindings v halls v.nhandles 0 []
  if !s.partIn v.handleList (32 * v.nhandles) then s.refuseLoad (refusalWord 5 0 0 0 0)
  else
    match r.2 with
    | some b =>
      -- LHALL of a KIND 1 entry, which the loader ignores, is a free value of the refusal.
      let d := s.draw
      if b.entry.perHall then d.1.refuseLoad (refusalWord 5 b.handle (d.2.toNat % 256) 0 0)
      else s.refuseLoad (refusalWord 5 b.handle b.lhall 0 0)
    | none =>
      let s := r.1.foldl (fun s b => s.bindEntry b) s
      let s := r.1.foldl (fun s b => s.zeroRegion b) s
      let s := r.1.foldl (fun s b => s.fillRegion b) s
      match (List.range v.halls).find? fun i => !((List.range 3).all fun c => s.coreOk v i c) with
      | some i => s.refuseLoad (refusalWord 7 0 i 0 0)
      | none =>
        let s := { s with pantry := [] }
        let s := (List.range v.halls).foldl (fun s i =>
          (List.range 3).foldl (fun s c => s.loadCore v i c (halls.getD i 0)) s) s
        let s := s.loadBells halls
        match s.badShape v with
        | some q => s.refuseLoad (refusalWord 6 0 0 q 0)
        | none =>
          if s.steadyOk then
            let shapes := (List.range s.imgShapes).foldl (fun m q => SMap.set Shape.absent m q (s.shapeAt v q)) []
            ({ s with job := { s.job with shapes := shapes } } : State).zeroAdapters.armJob
          else s.refuseLoad (refusalWord 6 0 0 s.desk.steadyShape.toNat 0)

/-- A load (R257). It happens whole, and no beats pass (log row 20). -/
def State.loadImage (s : State) (len : Nat) (fewest : BitVec 8) (reads : StagingReads) : State :=
  let s := { s with job := { s.job with load := BitVec.ofNat 64 len } }
  let s := s.readStaging len reads
  match s.checkImage len reads with
  | some w => s.refuseLoad w
  | none =>
    let s := { s.resetCounters with
      job := s.jobOfHeader len,
      clock := { s.clock with slip := 0#152 } }
    match s.chooseVariant fewest with
    | none => s.refuseLoad (refusalWord 4 0 0 0 0)
    | some v => if s.shp.transitOnly then s.armJob else s.placeJob v

/-- A write of the image length to A010.01. `fewest` is the smallest enabled hall count of the other members, and
`reads` what the reads of staging found. -/
def execLoad (fewest : BitVec 8) (reads : StagingReads) (w : DictWrite) (s : State) : Res :=
  let rule : WriteRule := { WriteRule.plain (fun _ => true) with notReady := true }
  .next (s.serveWrite 0xA010 1 w rule true fun s _ => s.loadImage (wnum w) fewest reads)

/-! ### Program start (R258) -/

/-- The posts of every enabled hall at program start: OPEN in a used hall, CLOSED in an idle one. -/
def State.startPosts (s : State) : SMap Post :=
  let used := s.usedHalls
  ((List.range 192).filter fun h => s.hallEnabled h && !used.contains h).foldl (fun m h =>
    (List.range 96).foldl (fun m p => SMap.set Post.empty m (96 * h + p) { Post.empty with closed := true }) m) []

/-- Circuits that the program start installs (R319, Table 11.12). -/
def State.validCircuits (s : State) : List (BitVec 32) := (s.eo.circuits.map (·.2)).filter fun w => w.getLsbD 31

/-- The cores of every used hall in their reset state, fetching at START (R85, R110, R258). -/
def State.startCores (s : State) (b : Nat) : State :=
  let start (key : Nat) : Nat := SMap.get 0 s.job.starts key
  let mc := s.usedHalls.foldl (fun m h => (List.range 2).foldl (fun m c =>
    SMap.set MCore.idle m (2 * h + c) { MCore.idle with running := true, pc := start (3 * h + c), nextIssue := b }) m) []
  let vc := s.usedHalls.foldl (fun m h =>
    SMap.set VCore.idle m h { VCore.idle with running := true, pc := BitVec.ofNat 16 (start (3 * h + 2)), nextIssue := b }) []
  { s with mc := mc, vc := vc, ftq := [] }

/-- A run that belongs to the loader's porters, which a program start does not touch. -/
def RunOwner.ofLoader : RunOwner → Bool
  | .source m _ | .write m _ _ | .packet m _ _ _ => isLoaderPorter m
  | _ => false

/-- Everything that a program start sets, with the Milestone count at START_BEAT. -/
def State.startProgram (s : State) : State :=
  let b := s.job.startBeat
  let s := s.startCores b
  { s with
    ld := { s.ld with runs := s.ld.runs.filter fun r => r.owner.ofLoader },
    pb := { s.pb with bells := [], posts := s.startPosts, stages := [], flights := [], returns := [] },
    por := { s.por with porters := s.por.porters.filter fun e => isLoaderPorter e.1, inbound := [],
                        inboundSignals := [] },
    cel := { s.cel with ctl := SMap.mapV Stack.reset s.cel.ctl fun x =>
      { x with arriving := x.arriving.filter fun c => isLoaderPorter c.porter,
               streams := x.streams.filter fun c => isLoaderPorter c.porter } },
    eo := { s.eo with installed := s.validCircuits },
    desk := { s.desk with decided := [], latched := [], reckoners := [], releases := [], late := [],
                          inbox := s.desk.inbox.map fun r => { r with arrived := 0, applied := none },
                          tab := { DeskTable.empty with stepEnd := b } },
    loader := { s.loader with switchAt := s.loader.switchAt.map fun x => (0, x.2), switched := none },
    integ := { s.integ with jobOffset := 0, unconfirmed := [], frames := [], seen := [], halted := false, faulted := false,
                            rewindWalls := [], interruptionOpen := false, failedReads := [], ledgerAcc := [],
                            ledgerTouched := [] },
    snaps := [],
    job := { s.job with loadState := 5#8, launches := 0#64, lastLaunchBeat := 0, lastShape := 0#8,
                        stepRunning := none, nextCommit := 0, commitDue := none } }

/-- Every other member has reported. -/
def State.allReported (s : State) (reports : List MemberReport) : Bool :=
  (List.range s.ranks.jobSize.toNat).all fun r =>
    r == s.ranks.myRank.toNat || reports.any fun x => x.rank.toNat == r

/-- Program start at START_BEAT. In a job of several members, the desk rank has chosen the beat from the reports of
every member: rank, image digest, LOCKED, TRANSIT_ONLY. A differing digest refuses the load (R257, steps 3 and 7). -/
def execProgramStart (start : BitVec 64) (reports : List MemberReport) (s : State) : Res :=
  if s.job.loadState ≠ 4#8 then .next s
  else if s.ranks.jobSize = 1#32 then .next ((s.toBeat s.job.startBeat).startProgram)
  else
    let desk := s.desk.role == 1#8
    match if desk then reports.find? fun r => r.digest != s.job.digest else none with
    | some r => .next (s.refuseLoad (refusalWord 9 0 0 0 r.rank.toNat))
    | none =>
      if desk && !(s.allReported reports && reports.all (·.locked) && s.shp.timeState == 2#2) then .next s
      else
        let transit : List Nat := (reports.filter (·.transit)).map (·.rank.toNat)
        let s := { s with
          job := { s.job with startBeat := if desk then max start.toNat (s.milestone + 1800) else start.toNat },
          desk := { s.desk with transitMembers := transit } }
        .next ((s.toBeat s.job.startBeat).startProgram)

/-! ### Unload (R259) -/

/-- A step is in progress: the current beat lies before the end of the latest step. -/
def State.stepRuns (s : State) : Bool :=
  match s.job.stepRunning with
  | some (l, q) => decide (s.milestone - s.integ.jobOffset < l + (SMap.get Shape.absent s.job.shapes q.toNat).beats)
  | none => false

/-- A decided launch that has not been performed. -/
def State.launchDecided (s : State) : Bool :=
  s.desk.decided.any (fun d => !d.done) || s.desk.latched.any fun l => decide (s.job.launches.toNat < l.step.toNat)

/-- The job stops: LOAD_STATE 7 until UNLOAD_DONE. -/
def State.stopJob (s : State) : State :=
  { s with job := { s.job with loadState := 7#8, unloadPending := false } }

/-- A write of TRUE to A010.04. With no job loaded it changes nothing; otherwise it stops the job at once, or waits
for the step in progress. -/
def execUnload (w : DictWrite) (s : State) : Res :=
  let idle := s.job.loadState == 0#8 || s.job.loadState == 6#8
  .next (s.serveWrite 0xA010 4 w (WriteRule.plain fun _ => w.value == [1#8]) (!idle) fun s _ =>
    if idle then s
    else if s.job.loadState = 5#8 ∧ (s.stepRuns ∨ s.launchDecided) then
      { s with job := { s.job with unloadPending := true } }
    else if s.job.loadState = 7#8 then s
    else s.stopJob)

/-- The module has cleared the job: LOAD_STATE 0, and the COMPLETE is due after those that the unload ends
(R259, R168, R549). -/
def execUnloadDone (s : State) : Res :=
  if s.job.loadState ≠ 7#8 then .next s
  else .next (s.clearJob.failOwed.endOwed 0xA010 4 none true)

end Sys2Proof.Machine
end

