-- ==== Sys2Proof/Machine/Desk.lean ====
section
/-! DEFINITION. The front desk: lodgers, rooms, records, boundaries, launch decisions, composition and followers
(spec/14, spec/15 R429 to R437). -/

namespace Sys2Proof.Machine

/-! ### Program beats and the table (R386, R452) -/

/-- The program beat in force. -/
def State.now (s : State) : Nat := s.milestone - s.integ.jobOffset

/-- Beats pass until program beat `p`. -/
def State.toProgram (s : State) (p : Nat) : State := s.toBeat (p + s.integ.jobOffset)

/-- The same, and then `f`, unless an access on the way stopped the member. -/
def State.onProgram (s : State) (p : Nat) (f : State → State) : State :=
  let s := s.toProgram p
  if s.active then f s else s

def State.setTab (s : State) (t : DeskTable) : State := { s with desk := { s.desk with tab := t } }
def State.lodger (s : State) (i : Nat) : Lodger := SMap.get Lodger.free s.desk.tab.lodgers i
def State.setLodger (s : State) (i : Nat) (l : Lodger) : State :=
  s.setTab { s.desk.tab with lodgers := SMap.set Lodger.free s.desk.tab.lodgers i l }

def lodgerFree : BitVec 4 := 0#4
def lodgerQueued : BitVec 4 := 1#4
def lodgerPrefill : BitVec 4 := 2#4
def lodgerGen : BitVec 4 := 3#4

def Lodger.inUse (l : Lodger) : Bool := l.state != lodgerFree
def Lodger.waits (l : Lodger) : Bool := l.state == lodgerQueued || l.state == lodgerPrefill
def Lodger.kv (l : Lodger) : Nat := l.kvFill.v.toNat

/-- Insert by a key, after equal ones. -/
def insertBy (key : Nat → Nat) (x : Nat) : List Nat → List Nat
  | [] => [x]
  | y :: ys => if key x < key y then x :: y :: ys else y :: insertBy key x ys

/-- Lodgers in use, by ACCEPT_SEQ. -/
def State.activeLodgers (s : State) : List Nat :=
  ((s.desk.tab.lodgers.filter fun e => e.2.inUse).map (·.1)).foldl
    (fun l i => insertBy (fun j => (s.lodger j).acceptSeq.toNat) i l) []

/-- The first lodger in use whose KV_FILL or GEN_COUNT fails its check (R386). -/
def State.badLodger (s : State) : Option Nat :=
  (s.desk.tab.lodgers.find? fun e => e.2.inUse && !(e.2.kvFill.ok && e.2.genCount.ok)).map (·.1)

/-- A failed check: a fault of state held during a job. -/
def State.lodgerMismatch (s : State) (i : Nat) : State := s.mismatch 0 5 i 208

/-! ### Pools: rooms, prompt store, mask slots (R392, R395) -/

/-- Runs (base, count) that are in use, in ascending order, turned into the free runs below `top`. -/
def freeRuns (top : Nat) : List (Nat × Nat) → Nat → List (Nat × Nat)
  | [], at_ => if at_ < top then [(at_, top - at_)] else []
  | (b, n) :: rs, at_ => (if at_ < b then [(at_, b - at_)] else []) ++ freeRuns top rs (max at_ (b + n))

/-- Insert a run by its base. -/
def insertRun (r : Nat × Nat) : List (Nat × Nat) → List (Nat × Nat)
  | [] => [r]
  | q :: qs => if r.1 < q.1 then r :: q :: qs else q :: insertRun r qs

def sortRuns (rs : List (Nat × Nat)) : List (Nat × Nat) := rs.foldl (fun l r => insertRun r l) []

/-- Free rooms, as runs (R390, R392). -/
def State.freeRooms (s : State) : List (Nat × Nat) :=
  let used := (s.desk.tab.lodgers.filter fun e => e.2.inUse).flatMap fun e =>
    e.2.ext.map fun x => (x.1.toNat, x.2.toNat)
  freeRuns (16 * s.desk.roomsPerStack.toNat) (sortRuns used) 0

/-- Whole free runs in ascending order, the last in part, until the need is met. -/
def takeRuns : List (Nat × Nat) → Nat → Option (List (Nat × Nat))
  | _, 0 => some []
  | [], _ + 1 => none
  | (b, n) :: rs, need + 1 =>
    if need + 1 ≤ n then some [(b, need + 1)]
    else (takeRuns rs (need + 1 - n)).map ((b, n) :: ·)

/-- R392: at most four runs. -/
def State.planRooms (s : State) (need : Nat) : Option (List (Nat × Nat)) :=
  match takeRuns s.freeRooms need with
  | some rs => if rs.length ≤ 4 then some rs else none
  | none => none

/-- First fit in the prompt store (R395). -/
def State.planPrompt (s : State) (n : Nat) : Option Nat :=
  let used := (s.desk.tab.lodgers.filter fun e => e.2.inUse).map fun e => (e.2.promptAt.toNat, e.2.promptLen.toNat)
  ((freeRuns 8388608 (sortRuns used) 0).find? fun r => decide (n ≤ r.2)).map (·.1)

/-- The lowest number that a rising list leaves out. -/
def firstGap : List Nat → Nat → Nat
  | [], n => n
  | x :: xs, n => if x = n then firstGap xs (n + 1) else n

/-- A free mask slot: the lowest. -/
def State.planMask (s : State) : Option Nat :=
  let used := ((s.desk.tab.lodgers.filter fun e => e.2.inUse && e.2.maskMode != 0#2).map fun e => (e.2.maskSlot.toNat, 1))
  let k := firstGap ((sortRuns used).map (·.1)) 0
  if k < 512 then some k else none

/-! ### Adapters (R436, R437) -/

/-- A QUEUED load whose idle slot no lodger pins joins the loader's queue, once that holds fewer than 16 requests (R417,
R437; DEDUCED, log row 131). -/
def State.joinQueue (s : State) (a : Nat) : State :=
  let x := s.adapter a
  if x.queued && x.pin (!x.active) == 0#16 && decide (s.loader.queue.length < 16) then
    let s := s.setAdapter a { x.setSt (!x.active) adapterLoading with queued := false }
    { s with loader := { s.loader with queue := s.loader.queue ++ [⟨3#2, a, x.loc⟩] } }
  else s

/-- A lodger lets go of slot `z`: at 0 pins a slot that is not active becomes EMPTY, and a load that waited for it
joins the loader's queue. -/
def State.unpin (s : State) (a : Nat) (z : Bool) : State :=
  let x := s.adapter a
  let n := x.pin z - 1#16
  let x := x.setPin z n
  if n = 0#16 ∧ z ≠ x.active then (s.setAdapter a (x.setSt z adapterEmpty)).joinQueue a
  else s.setAdapter a x

/-- A READY idle slot becomes the active one at a boundary. -/
def Adapter.activate (x : Adapter) : Adapter :=
  if x.fresh && x.st (!x.active) == adapterReady then { x with active := !x.active, fresh := false } else x

/-! ### Readiness (R388, R389) -/

def Lodger.maskReady (l : Lodger) (n : Nat) : Bool :=
  l.maskMode == 0#2 || (l.maskMode == 1#2 && l.maskArrived) || (l.maskMode == 2#2 && l.maskIndex.toNat == n)

def Lodger.genReady (l : Lodger) (w : BitVec 8) : Bool :=
  l.state == lodgerGen && l.wgen == w && l.maskReady (l.kv + 1)

def Lodger.prefillReady (l : Lodger) (w : BitVec 8) : Bool := l.waits && l.wgen == w

/-- g and p of R400 for generation `w`. -/
def State.readyCounts (s : State) (w : BitVec 8) : Nat × Nat :=
  s.desk.tab.lodgers.foldl (fun c e =>
    (c.1 + (if e.2.genReady w then 1 else 0), c.2 + (if e.2.prefillReady w then e.2.promptLen.toNat - e.2.kv else 0)))
    (0, 0)

def State.hasReady (s : State) (w : BitVec 8) : Bool :=
  s.desk.tab.lodgers.any fun e => e.2.genReady w || e.2.prefillReady w

/-- Generation of the step before the next one to be decided: of the last one decided, or of the latest. -/
def State.prevGen (s : State) : BitVec 8 :=
  match (s.desk.decided.filter fun d => !d.done).getLast? with
  | some d => d.wgen
  | none => s.desk.tab.stepGen

/-- Generation of the next step (R430, R431). -/
def State.nextGen (s : State) : BitVec 8 :=
  let g := s.loader.gens
  if g.old = 0#8 then g.live
  else
    let prev := if s.prevGen = g.old then g.old else g.live
    let other := if prev = g.old then g.live else g.old
    if s.hasReady other then other else prev

/-- Shape `a` is chosen before shape `b` (R400). -/
def betterShape (g p : Nat) (a b : Nat × Shape) : Bool :=
  let ka := (min a.2.g g, min a.2.p p)
  let kb := (min b.2.g g, min b.2.p p)
  decide (kb.1 < ka.1) || (decide (kb.1 = ka.1) && (decide (kb.2 < ka.2)
    || (decide (kb.2 = ka.2) && decide (a.2.beats < b.2.beats))))

def bestShape (g p : Nat) (xs : List (Nat × Shape)) : Option Nat :=
  (xs.foldl (fun best x =>
    match best with
    | none => some x
    | some b => if betterShape g p x b then some x else some b) none).map (·.1)

/-- Free bytes of the outbound queue (R506). -/
def State.outFree (s : State) : Nat := 4194304 - (s.kl.outQueue.map fun r => r.bytes.length).sum

/-- The shape and generation of a launch that the desk would decide now (R400, R408, R430, R433, R506). -/
def State.choose (s : State) : Option (Nat × BitVec 8) :=
  if s.desk.role ≠ 1#8 ∨ s.job.unloadPending ∨ s.loader.gens.live = 0#8 ∨ s.loader.barrier ∨ s.outFree < 524288 then none
  else
    let w := s.nextGen
    let c := s.readyCounts w
    let steady := s.clock.powerModeNow == 1#8
    if steady && s.desk.steadyShape != 0xFF#8 then some (s.desk.steadyShape.toNat, w)
    else if c.1 + c.2 = 0 then (if steady then some (0, w) else none)
    else (bestShape c.1 c.2 s.job.shapes).map fun q => (q, w)

/-! ### Retirement and token records (R397, R399, Table 14.5) -/

def reasonStop : BitVec 4 := 1#4
def reasonLength : BitVec 4 := 2#4
def reasonCancelled : BitVec 4 := 3#4
def reasonExpired : BitVec 4 := 4#4
def reasonNoCandidate : BitVec 4 := 5#4

def tokenRecord (lodger : Nat) (final has : Bool) (reason : BitVec 4) (wgen : BitVec 8) (token : BitVec 18)
    (id index : BitVec 32) : List Byte :=
  let t0 : W64 := BitVec.ofNat 13 lodger ++ BitVec.ofBool final ++ BitVec.ofBool has ++ reason ++ wgen ++ 0#19 ++ token
  bytesLE t0.toNat 8 ++ bytesLE (id ++ index).toNat 8

def State.queueRelease (s : State) (kind : ReleaseKind) (bs : List Byte) : State :=
  { s with desk := { s.desk with releases := s.desk.releases ++ [⟨s.now, kind, bs⟩] } }

/-- retire(): the final record, and the lodger's index, rooms, prompt run and mask slot are free; its adapter slot is
let go. -/
def State.retire (s : State) (i : Nat) (reason : BitVec 4) : State :=
  let l := s.lodger i
  let s := s.queueRelease .token (tokenRecord i true false reason l.wgen 0#18 l.submitId l.nextIndex)
  let s := s.setLodger i { l with state := lodgerFree, reason := reason }
  if l.adapter = 0x3FF#10 then s else s.unpin l.adapter.toNat l.aslot

/-- One lodger in the second loop of R397, at Milestone beat `c`. -/
def State.settleLodger (s : State) (c i : Nat) : State :=
  let l := s.lodger i
  let s := s.setLodger i { l with hasPending := false, noCandidate := false }
  let maxed (g : Nat) : Bool := g == l.maxNew.toNat
  if l.cancel then s.retire i reasonCancelled
  else if l.deadline ≠ 0#64 ∧ l.deadline.toNat ≤ c then s.retire i reasonExpired
  else if l.noCandidate then s.retire i reasonNoCandidate
  else if l.hasPending then
    let g := l.genCount.v.toNat + 1
    let t := l.pending
    let s := s.queueRelease .token (tokenRecord i false true 0#4 s.desk.tab.stepGen t l.submitId (BitVec.ofNat 32 l.kv))
    let s := s.setLodger i { l with
      hasPending := false, noCandidate := false, genCount := Pair32.of (BitVec.ofNat 32 g), lastToken := t,
      state := lodgerGen, nextIndex := BitVec.ofNat 32 (l.kv + 1) }
    if (l.stops.take l.nstop.toNat).contains t then s.retire i reasonStop
    else if maxed g then s.retire i reasonLength
    else s
  else if maxed l.genCount.v.toNat then s.retire i reasonLength
  else s

/-! ### Records (R394 to R396) -/

/-- Word k of a record; missing bytes read as 0. -/
def recWord (bs : List Byte) (k : Nat) : W64 := BitVec.ofNat 64 (numLE ((bs.drop (8 * k)).take 8))

def recToken (bs : List Byte) (i : Nat) : BitVec 32 := BitVec.ofNat 32 (numLE ((bs.drop (256 + 4 * i)).take 4))

/-- An FP32 word is infinite or NaN. -/
def notFinite (x : BitVec 32) : Bool := x.extractLsb' 23 8 == 0xFF#8

/-- What a submit record asks for (Tables 14.2 and 14.3). -/
structure Submit where
  lodger : Lodger
  forced : Nat
  nbias : Nat
  nstop : Nat
  prompt : List (BitVec 32)
deriving DecidableEq, Repr

def submitOf (bs : List Byte) : Submit :=
  let w := recWord bs
  let w0 := w 0
  let w6 := w 6
  let w7 := w 7
  let w8 := w 8
  let stop (k : Nat) : BitVec 18 := (w (14 + k / 3)).extractLsb' (18 * (k % 3)) 18
  let n := (w6.extractLsb' 32 32).toNat
  { lodger := { Lodger.free with
      state := lodgerQueued, adapter := w0.extractLsb' 38 10, maskMode := w0.extractLsb' 35 2,
      nbias := w0.extractLsb' 22 4, nstop := w0.extractLsb' 18 4, submitId := (w 1).extractLsb' 32 32, seed := w 2,
      deadline := w 3, kvFill := Pair32.of 0#32, genCount := Pair32.of ((w 5).setWidth 32),
      promptLen := w6.extractLsb' 32 32, maxNew := w6.setWidth 32, temp := w7.extractLsb' 32 32,
      topP := w7.extractLsb' 16 16, minP := w7.setWidth 16, topK := w8.extractLsb' 53 11,
      stops := (List.range 8).map stop,
      biases := (List.range 15).map fun k => ((w (17 + k)).extractLsb' 46 18, (w (17 + k)).setWidth 32),
      nextIndex := w6.extractLsb' 32 32 },
    forced := ((w 5).setWidth 32).toNat, nbias := (w0.extractLsb' 22 4).toNat, nstop := (w0.extractLsb' 18 4).toNat,
    prompt := (List.range n).map (recToken bs) }

/-- R395, RANGE. NBIAS has 4 bits and cannot exceed 15. -/
def State.submitRange (s : State) (x : Submit) : Bool :=
  let l := x.lodger
  let n := l.promptLen.toNat
  let v := s.desk.vocab.toNat
  let badTemp := notFinite l.temp || (l.temp.msb && l.temp != 0x80000000#32)
  decide (n = 0) || decide (n - 1 < x.forced) || decide (l.maxNew.toNat < x.forced)
    || decide (s.desk.maxContext.toNat < n + l.maxNew.toNat - x.forced)
    || x.prompt.any (fun t => decide (v ≤ t.toNat))
    || (l.stops.take x.nstop).any (fun t => decide (v ≤ t.toNat))
    || (l.biases.take x.nbias).any (fun b => decide (v ≤ b.1.toNat))
    || badTemp || decide (1024 < l.topK.toNat) || decide (8 < x.nstop)
    || (l.biases.take x.nbias).any (fun b => notFinite b.2)
    || (decide (512 ≤ l.adapter.toNat) && l.adapter != 0x3FF#10) || l.maskMode == 3#2
    || s.desk.tab.lodgers.any fun e => e.2.inUse && e.2.submitId == l.submitId

/-- The resources of an accepted lodger: its index, rooms, prompt run, mask slot; none is BUSY. -/
def State.submitPlan (s : State) (x : Submit) : Option (Nat × List (Nat × Nat) × Nat × Nat) :=
  let l := x.lodger
  let n := l.promptLen.toNat
  let need := ceilDiv (n + l.maxNew.toNat - x.forced) s.desk.groupTokens.toNat * s.desk.groupRooms.toNat
  let used := (s.desk.tab.lodgers.filter fun e => e.2.inUse).map (·.1)
  if s.desk.lodgerLimit.toNat ≤ used.length then none
  else
    match s.planRooms need, s.planPrompt n, if l.maskMode = 0#2 then some 0 else s.planMask with
    | some rs, some p, some m => some (firstGap used 0, rs, p, m)
    | _, _, _ => none

/-- Store a prompt. -/
def storePrompt (m : SMap (BitVec 32)) (at_ : Nat) : List (BitVec 32) → SMap (BitVec 32)
  | [] => m
  | t :: ts => storePrompt (SMap.set 0#32 m at_ t) (at_ + 1) ts

/-- The acknowledgement of Table 14.4. -/
def ackRecord (id : BitVec 32) (result : BitVec 4) (lodger beat : Nat) : List Byte :=
  let a0 : W64 := id ++ result ++ 0#15 ++ BitVec.ofNat 13 lodger
  bytesLE a0.toNat 8 ++ bytesLE beat 8

/-- A lodger is admitted (R395, R430, R436). -/
def State.takeIn (s : State) (x : Submit) (i : Nat) (rooms : List (Nat × Nat)) (prompt mask : Nat) : State :=
  let l := x.lodger
  let a := l.adapter.toNat
  let ad := s.adapter a
  let has := l.adapter != 0x3FF#10
  let s := if has then s.setAdapter a (ad.setPin ad.active (ad.pin ad.active + 1#16)) else s
  let s := s.setLodger i { l with
    acceptSeq := s.desk.tab.acceptSeq, wgen := s.loader.gens.live, aslot := has && ad.active,
    maskSlot := BitVec.ofNat 9 mask, promptAt := BitVec.ofNat 23 prompt,
    ext := rooms.map fun r => (BitVec.ofNat 24 r.1, BitVec.ofNat 24 r.2) }
  { s with desk := { s.desk with
      prompts := storePrompt s.desk.prompts prompt x.prompt,
      tab := { s.desk.tab with acceptSeq := s.desk.tab.acceptSeq + 1#32 } } }

/-- A submission at a boundary (R395), answered at Milestone beat `c`. -/
def State.applySubmit (s : State) (c : Nat) (bs : List Byte) : State :=
  let x := submitOf bs
  let id := x.lodger.submitId
  if s.desk.role ≠ 1#8 then s.queueRelease .ack (ackRecord id 3#4 0 c)
  else if s.submitRange x then s.queueRelease .ack (ackRecord id 2#4 0 c)
  else
    match s.submitPlan x with
    | none => s.queueRelease .ack (ackRecord id 1#4 0 c)
    | some (i, rooms, p, m) => (s.takeIn x i rooms p m).queueRelease .ack (ackRecord id 0#4 i c)

/-- The lodger in use with a SUBMIT_ID. -/
def State.lodgerOf (s : State) (id : BitVec 32) : Option Nat :=
  (s.desk.tab.lodgers.find? fun e => e.2.inUse && e.2.submitId == id).map (·.1)

/-- A record takes effect (R394 to R396); a TYPE that R394 does not name has no effect. -/
def State.applyRecord (s : State) (c : Nat) (bs : List Byte) : State :=
  let type := (recWord bs 0).extractLsb' 60 4
  let id := (recWord bs 1).extractLsb' 32 32
  if type = 1#4 then s.applySubmit c bs
  else if type = 2#4 ∨ type = 3#4 then
    match s.lodgerOf id with
    | none => s.queueRelease .ignored []
    | some i =>
      let l := s.lodger i
      if type = 2#4 then s.setLodger i { l with cancel := true }
      else if l.maskMode = 0#2 then s.queueRelease .ignored []
      else
        let s := s.setLodger i { l with maskIndex := (recWord bs 1).setWidth 32, maskArrived := true }
        { s with desk := { s.desk with
            masks := SMap.set [] s.desk.masks l.maskSlot.toNat (Memory.writeBytes [] 0 ((bs.drop 16).take 32768)) } }
  else s

/-! ### Switching generations (R429, R432) -/

/-- A switch that has been accepted and has not been applied in the present run of the replay. -/
def State.switchPending (s : State) : Option (Nat × BitVec 8 × Bool) :=
  match s.loader.switched with
  | some _ => none
  | none => s.loader.switchAt

/-- An adapter load is in progress: WLOAD_STATE shows it. -/
def State.adapterLoads (s : State) : Bool :=
  match s.loader.active with
  | some a => a.req.form == 3#2
  | none => false

/-- Apply a switch to generation `w` at the boundary (R429, R434). An in-place load switches as under cut and
reopens the barrier. -/
def State.applySwitch (s : State) (w : BitVec 8) (inPlace : Bool) : State :=
  let cut := s.job.swapMode == 2#8 || inPlace
  let g := s.loader.gens
  let s := { s with loader := { s.loader with
    gens := { g with live := w, old := if cut then 0#8 else g.live },
    state := if s.adapterLoads then s.loader.state else 0#4, lastSwitch := BitVec.ofNat 64 s.milestone,
    ready := if s.loader.ready = some (inPlace, w) then none else s.loader.ready, switched := some s.now,
    barrier := s.loader.barrier && !inPlace, barrierState := if inPlace then 0#8 else s.loader.barrierState } }
  let s := s.setTab { s.desk.tab with lodgers := s.desk.tab.lodgers.map fun e =>
    if e.2.inUse && (cut || e.2.state == lodgerQueued || e.2.wgen == 0#8) then (e.1, { e.2 with wgen := w }) else e }
  s.endOwed 0x6010 3 none true

/-- OLD_LODGERS (6012.03). -/
def State.oldLodgers (s : State) : Nat :=
  if s.loader.gens.old = 0#8 then 0
  else (s.desk.tab.lodgers.filter fun e => e.2.inUse && e.2.wgen == s.loader.gens.old).length

/-- The drained generation's set becomes idle (R432). A follower, which holds no lodgers, learns it from a launch record. -/
def State.checkDrained (s : State) : State :=
  if s.desk.role = 1#8 ∧ s.loader.gens.old ≠ 0#8 ∧ s.oldLodgers = 0 then
    ({ s with loader := { s.loader with gens := { s.loader.gens with old := 0#8 } } } : State).event 0x0C#16
      (s.loader.gens.old :: List.replicate 7 0#8)
  else s

/-! ### Composition and the map (R401 to R403) -/

/-- Prefill columns of one lodger within a budget. -/
def prefillCount (l : Lodger) (budget : Nat) : Nat :=
  let left := l.promptLen.toNat - l.kv
  let n := min budget left
  if n = left ∧ !l.maskReady l.promptLen.toNat then n - 1 else n

/-- Prefill columns from map entry `col` on, in order of ACCEPT_SEQ. -/
def State.composePrefill (s : State) : List Nat → Nat → Nat → List StepCol
  | [], _, _ => []
  | i :: is, budget, col =>
    let l := s.lodger i
    let n := prefillCount l budget
    let mine := (List.range n).map fun k =>
      let pos := l.kv + k
      (⟨col + k, false, pos + 1 == l.promptLen.toNat, i,
        (SMap.get 0#32 s.desk.prompts (l.promptAt.toNat + pos)).setWidth 18, BitVec.ofNat 32 pos⟩ : StepCol)
    mine ++ (if budget = n then [] else s.composePrefill is (budget - n) (col + n))

/-- The columns of a step of shape `x` that carry lodgers (R401). -/
def State.composeCols (s : State) (x : Shape) (w : BitVec 8) : List StepCol :=
  let act := s.activeLodgers
  let gens := (act.filter fun i => (s.lodger i).genReady w).take x.g
  let gcols := (List.range gens.length).map fun k =>
    let i := gens.getD k 0
    let l := s.lodger i
    (⟨k, true, true, i, l.lastToken, BitVec.ofNat 32 l.kv⟩ : StepCol)
  gcols ++ s.composePrefill (act.filter fun i => (s.lodger i).prefillReady w) x.p x.g

/-- compose(): the step's columns are fixed at its launch beat. -/
def State.compose (s : State) (d : Decision) : State :=
  let x := SMap.get Shape.absent s.job.shapes d.shape.toNat
  s.setTab { s.desk.tab with
    cols := s.composeCols x d.wgen, stepOpen := true, stepGen := d.wgen, launchAt := d.at_, stepEnd := d.at_ + x.beats }

/-- Token key (R402). -/
def tokenKey (seed : W64) (pos : BitVec 32) : BitVec 32 :=
  seed.extractLsb' 0 32 ^^^ seed.extractLsb' 32 32 ^^^ pos * 0x9E3779B9#32

/-- Map entry of a column (Table 14.7). -/
def State.mapEntry (s : State) (x : StepCol) (sidx : Nat) : List Byte :=
  let l := s.lodger x.lodger
  let m0 : W64 := (if x.gen then 1#2 else 2#2) ++ BitVec.ofBool x.sample ++ BitVec.ofNat 13 x.lodger ++ x.token
    ++ (if x.sample then BitVec.ofNat 14 sidx else 0#14) ++ 0#16
  let m1 : W64 := x.pos ++ tokenKey l.seed x.pos
  let m2 : W64 := l.adapter ++ BitVec.ofBool l.aslot ++ 0#53
  let ext (k : Nat) : W64 :=
    let e := l.ext.getD k (0#24, 0#24)
    e.1 ++ e.2 ++ 0#16
  ([m0, m1, m2, ext 0, ext 1, ext 2, ext 3, 0#64].map fun w => bytesLE w.toNat 8).flatten

/-- A pad entry: every field 0 except KEY. -/
def padEntry : List Byte := bytesLE 0 8 ++ bytesLE 0xFFFFFFFF 8 ++ List.replicate 48 0#8

/-- Entries `col`, `col` + 1, … of the map, with the sampling indices from `sidx` on. -/
def State.mapEntries (s : State) : Nat → Nat → Nat → List StepCol → List Byte
  | 0, _, _, _ => []
  | n + 1, col, sidx, xs =>
    match xs with
    | x :: rest =>
      if x.col = col then s.mapEntry x sidx ++ s.mapEntries n (col + 1) (sidx + x.sample.toNat) rest
      else padEntry ++ s.mapEntries n (col + 1) sidx xs
    | [] => padEntry ++ s.mapEntries n (col + 1) sidx []

/-- The map of the latest step: header row and entries, padded to whole rows (R403, Table 14.6). -/
def State.stepMap (s : State) (shape : BitVec 4) : List Byte :=
  let x := SMap.get Shape.absent s.job.shapes shape.toNat
  let t := s.desk.tab
  let h2 : W64 := shape ++ t.stepGen ++ BitVec.ofNat 14 x.g
    ++ BitVec.ofNat 14 (t.cols.filter (·.sample)).length ++ 0#24
  let h3 : W64 := BitVec.ofNat 16 x.p ++ 0#48
  let head := bytesLE s.job.launches.toNat 8 ++ bytesLE (t.launchAt + s.integ.jobOffset) 8 ++ bytesLE h2.toNat 8
    ++ bytesLE h3.toNat 8 ++ List.replicate 480 0#8
  let body := s.mapEntries (x.g + x.p) 0 0 t.cols
  head ++ body ++ List.replicate (roundUp body.length 512 - body.length) 0#8

/-- Towers that hold a used hall. -/
def State.usedTowers (s : State) : List Nat := (List.range 4).filter fun t => s.usedHalls.any fun h => hallTower h == t

/-- The map descriptor of tower `t`: COPY, CAST 2, GROUP 15, row 0 of MAP_HANDLE. -/
def mapDesc (t handle n : Nat) : PDesc :=
  let w0 : W64 := 1#4 ++ 0#2 ++ 2#2 ++ 15#4 ++ 0#1 ++ 1#2 ++ 0#25 ++ BitVec.ofNat 24 (n / 32 - 1)
  let e0 : W64 := 1#2 ++ 0#17 ++ BitVec.ofNat 2 t ++ 0#8 ++ BitVec.ofNat 12 handle ++ 0#23
  BitVec.ofNat 512 (w0.toNat + 2 ^ 192 * e0.toNat)

/-- Hand the map to tower porter 15 of every tower, to start at L + 3. -/
def State.handMap (s : State) (shape : BitVec 4) : State :=
  let bs := s.stepMap shape
  (List.range 4).foldl (fun s t =>
    s.handTo (16 * t + 15) ⟨mapDesc t s.desk.mapHandle.toNat bs.length, s.desk.tab.launchAt + s.integ.jobOffset + 3,
      0xFF#8, 0#15, some (Memory.writeBytes [] 0 bs), none⟩) s

/-! ### Boundaries (R397, R399) -/

/-- Columns of lodger `i` in the latest step. -/
def columnsOf (i : Nat) (cols : List StepCol) : Nat := (cols.filter fun x => x.lodger == i).length

/-- The first loop of R397. -/
def State.foldStep (s : State) : State :=
  let t := s.desk.tab
  if t.stepOpen then
    s.setTab { t with
      stepOpen := false,
      lodgers := t.lodgers.map fun e =>
        let n := columnsOf e.1 t.cols
        if n = 0 then e
        else (e.1, { e.2 with
          kvFill := Pair32.of (e.2.kvFill.v + BitVec.ofNat 32 n),
          state := if e.2.state = lodgerQueued then lodgerPrefill else e.2.state }) }
  else s

/-- The record arrived before program beat `cp`, and no boundary has applied it. -/
def InboxRec.ready (r : InboxRec) (cp : Nat) : Bool := r.applied.isNone && decide (r.arrived < cp)

/-- Apply the records that are ready, in order of arrival. -/
def State.applyInbox (s : State) (c cp : Nat) : State :=
  let recs := s.desk.inbox.filter (·.ready cp)
  let marked := s.desk.inbox.map fun r => if r.ready cp then { r with applied := some cp } else r
  let s : State := { s with desk := { s.desk with inbox := marked } }
  recs.foldl (fun s r => s.applyRecord c r.bytes) s

/-- The launch that a boundary at program beat `cp` begins. -/
def State.decisionAt (s : State) (cp : Nat) : Option Decision := s.desk.decided.find? fun d => !d.done && d.at_ == cp

/-- The desk's boundary takes the switch: it is the switch launch, or no step runs and none is decided. -/
def State.switchHere (s : State) (cp : Nat) : Option (BitVec 8 × Bool) :=
  match s.switchPending with
  | none => none
  | some (a, w) =>
    if s.desk.role ≠ 1#8 ∨ cp < a then none
    else
      match s.decisionAt cp with
      | some d => if d.switch then some w else none
      | none => if s.desk.decided.any (fun d => !d.done) then none else some w

/-- Everything a boundary does, at the beat in force. -/
def State.boundary (s : State) : State :=
  let c := s.milestone
  let cp := s.now
  let late := (List.range 4).filter fun t => (SMap.get Reckoner.idle s.desk.reckoners t).cols != []
  let s := s.foldStep
  let s := s.applyInbox c cp
  let s := s.activeLodgers.foldl (fun s i => s.settleLodger c i) s
  let s := match s.switchHere cp with
    | some w => s.applySwitch w.1 w.2
    | none => s
  let s := s.checkDrained
  let s := { s with loader := { s.loader with gens := { s.loader.gens with
    adapters := SMap.mapV Adapter.empty s.loader.gens.adapters Adapter.activate } } }
  let s := match s.decisionAt cp with
    | some d => s.compose d
    | none => s
  let s := s.setTab { s.desk.tab with boundary := some cp }
  let closed := s.loader.barrier && !s.desk.tab.stepOpen && s.desk.decided.all (·.done)
  { s with
    desk := { s.desk with lastBoundary := BitVec.ofNat 64 c, late := late },
    loader := { s.loader with barrierState := if closed then 2#8 else s.loader.barrierState },
    job := { s.job with commitDue := some cp } }

/-- A launch is decided at the decision beat itself, as LAUNCH_LEAD is 0. -/
def State.leadZero (s : State) : Bool := s.desk.launchLead == 0#32

/-- The earliest of some program beats. -/
def earliestOf (xs : List Nat) : Option Nat :=
  xs.foldl (fun best x => match best with | none => some x | some b => some (min b x)) none

/-- Latched launches that a follower has not performed. -/
def State.latchedAhead (s : State) : List Latched :=
  s.desk.latched.filter fun l => decide (s.job.launches.toNat < l.step.toNat)

/-- The program beat of the next boundary (R397, R429): a launch beat, the end of a step, or, while no step runs, the
first beat at which the inbox holds a record, a switch waits or a launch could be decided. -/
def State.boundaryBeat (s : State) : Option Nat :=
  let t := s.desk.tab
  let launches := (s.desk.decided.filter fun d => !d.done).map (·.at_) ++ s.latchedAhead.map (·.at_)
  let waits :=
    if t.stepOpen then [t.stepEnd]
    else
      ((s.desk.inbox.filter fun r => r.applied.isNone).map fun r => max t.stepEnd (r.arrived + 1))
        ++ (match s.switchPending with
            | some (a, _) => if launches = [] ∧ s.desk.role = 1#8 then [max t.stepEnd a] else []
            | none => [])
        ++ (if s.leadZero && launches == [] && s.choose.isSome then [max t.stepEnd s.now] else [])
  (earliestOf (launches ++ waits)).map fun b => max b s.now

/-- The loader has a descriptor of porter 13 in progress (R419). -/
def State.loaderBusy (s : State) : Bool :=
  match s.loader.active with
  | some a => a.writing != []
  | none => false

/-- A boundary. While no step runs it waits for the loader's descriptor in progress (R419). -/
def execStepBoundary (s : State) : Res :=
  if s.active = false ∨ s.shp.transitOnly then .next s
  else
    match s.boundaryBeat with
    | none => .next s
    | some b =>
      if s.desk.tab.boundary = some b then .next s
      else if !s.desk.tab.stepOpen && (s.decisionAt b).isNone && s.loaderBusy then .next s
      else
        .next (s.onProgram b fun s =>
          match s.badLodger with
          | some i => s.lodgerMismatch i
          | none => s.boundary)

/-! ### Decisions (R382, R383, R400) -/

/-- LIVE_GEN and OLD_GEN after the boundary at a launch (Table 14.1), as far as decisions fix them: a switch launch that is
decided and not yet performed counts. -/
def State.gensAfter (s : State) (d : Decision) : BitVec 8 × BitVec 8 :=
  if d.switch || s.desk.decided.any fun e => !e.done && e.switch && decide (e.at_ ≤ d.at_) then
    match s.switchPending with
    | some (_, w, inPlace) =>
      let cut := s.job.swapMode == 2#8 || inPlace
      (w, if cut then 0#8 else s.loader.gens.live)
    | none => (s.loader.gens.live, s.loader.gens.old)
  else (s.loader.gens.live, s.loader.gens.old)

/-- The launch record (Table 14.1); `step` is LAUNCHES after this launch. -/
def State.launchRecord (s : State) (d : Decision) (step : Nat) : List Byte :=
  let g := s.gensAfter d
  let w2 : W64 := d.shape ++ d.wgen ++ g.1 ++ g.2 ++ 0#36
  bytesLE step 8 ++ bytesLE (d.at_ + s.integ.jobOffset) 8 ++ bytesLE w2.toNat 8 ++ List.replicate 40 0#8

/-- The descriptor that carries a launch record to a member. -/
def State.recordDesc (s : State) (rank : Nat) : PDesc :=
  let w0 : W64 := 1#4 ++ 0#2 ++ 0#2 ++ 0#4 ++ 0#1 ++ 3#2 ++ 1#1 ++ 0#24 ++ 1#24
  let e0 : W64 := 1#2 ++ 1#1 ++ BitVec.ofNat 16 rank ++ 0#2 ++ 0#8 ++ s.desk.launchHandle.setWidth 12 ++ 0#23
  let w5 : W64 := s.desk.launchBell.setWidth 13 ++ 0#2 ++ 1#16 ++ 0#33
  BitVec.ofNat 512 (w0.toNat + 2 ^ 192 * e0.toNat + 2 ^ 320 * w5.toNat)

/-- Hand the launch records of a decision to tower porter 14 of T0, in ascending rank (R383). -/
def State.sendRecords (s : State) (d : Decision) : State :=
  let before := (s.desk.decided.filter fun e => !e.done && decide (e.at_ < d.at_)).length
  let bs := s.launchRecord d (s.job.launches.toNat + before + 1)
  let ranks := (List.range s.ranks.jobSize.toNat).filter fun r =>
    r != s.ranks.myRank.toNat && !s.desk.transitMembers.contains r
  ranks.foldl (fun s r =>
    s.handTo 14 ⟨s.recordDesc r, s.milestone, 0xFF#8, 0#15, some (Memory.writeBytes [] 0 bs), none⟩) s

/-- The first beat at which the next launch may fall: the end of the latest step that runs or is decided. -/
def State.nextEnd (s : State) : Nat :=
  (s.desk.decided.filter fun d => !d.done).foldl (fun m d =>
    max m (d.at_ + (SMap.get Shape.absent s.job.shapes d.shape.toNat).beats)) s.desk.tab.stepEnd

def State.addDecision (s : State) (d : Decision) : State :=
  { s with desk := { s.desk with decided := s.desk.decided ++ [d] } }

/-- A decision that the desk takes at the beat in force, and the state on which it counts: a switch that has been
accepted counts as applied, also when an earlier launch that is still to come applies it. -/
def State.decide_ (s : State) : Option Decision :=
  let sw := match s.switchPending with
    | some (a, w) => if a ≤ s.now then some w else none
    | none => none
  let v := match sw with | some w => s.applySwitch w.1 w.2 | none => s
  let first := sw.isSome && !(s.desk.decided.any fun d => !d.done && d.switch)
  v.choose.map fun c =>
    ⟨BitVec.ofNat 4 c.1, s.now + s.desk.launchLead.toNat, s.now, c.2, first, true, false⟩

/-- The state in which decision `d`, taken at a boundary itself, composes its step: a switch launch applies its switch first
(R429). -/
def State.takeSwitch (s : State) (d : Decision) : State :=
  match s.switchPending with
  | some (_, w) => if d.switch then s.applySwitch w.1 w.2 else s
  | none => s

/-- The desk decides a launch. With LAUNCH_LEAD 0 it does so at a boundary and composes the step at once; otherwise
LAUNCH_LEAD beats before the launch, and it sends the launch records. A replay only sends them again (R385). -/
def execLaunchDecision (s : State) : Res :=
  if s.active = false ∨ s.desk.role ≠ 1#8 then .next s
  else
    match s.desk.decided.find? fun d => !d.sent with
    | some d =>
      .next (s.onProgram d.decidedAt fun s => ({ s with desk := { s.desk with decided := s.desk.decided.map fun e =>
        if e = d then { e with sent := true } else e } } : State).sendRecords d)
    | none =>
      if s.leadZero then
        if s.desk.tab.boundary = some s.now ∧ s.desk.tab.stepOpen = false ∧ s.desk.tab.stepEnd ≤ s.now
            ∧ s.desk.decided.all (·.done) then
          match s.badLodger with
          | some i => .next (s.lodgerMismatch i)
          | none =>
            match s.decide_ with
            | none => .next s
            | some d => .next (((s.addDecision d).takeSwitch d).compose d)
        else .next s
      else
        .next (s.onProgram (s.nextEnd - s.desk.launchLead.toNat) fun s =>
          match s.badLodger with
          | some i => s.lodgerMismatch i
          | none =>
            match s.decide_ with
            | none => s
            | some d => (s.addDecision d).sendRecords d)

/-! ### Followers (R384) -/

/-- The launch record that stands in row 0 of LAUNCH_HANDLE of T0. -/
def State.readRecord (s : State) : List Byte :=
  let e := s.handle 0 s.desk.launchHandle.toNat
  Memory.readBytes (s.readRow (e.sliceFor 0) e.row0 0 e.grid) 0 64

/-- LAUNCH_BELL has risen: the follower reads the record and keeps the launch. Read at or after AT - 3 it is a launch
slip. -/
def execFollowerLaunch (s : State) : Res :=
  if s.active = false ∨ s.desk.role ≠ 2#8 ∨ s.shp.transitOnly then .next s
  else
    let p := s.bell 0 s.desk.launchBell.toNat
    if !p.ok then .next (s.mismatch 0 3 s.desk.launchBell.toNat 208)
    else if p.count = s.desk.tab.seen then .next s
    else
      let e := s.handle 0 s.desk.launchHandle.toNat
      if !e.ok then .next (s.mismatch 0 1 s.desk.launchHandle.toNat 208)
      else if !e.valid then .next (s.handleFault 0 1 s.desk.launchHandle.toNat 208 0)
      else
        let bs := s.readRecord
        let w2 := recWord bs 2
        let at_ := (recWord bs 1).toNat
        let s := s.setTab { s.desk.tab with seen := p.count }
        if at_ ≤ s.milestone + 3 then
          let w : W64 := 1#4 ++ 0#13 ++ 0#2 ++ BitVec.ofNat 45 s.milestone
          .next (({ s with desk := { s.desk with lastEvent := w } } : State).raiseError .transient 0x5070#16 0#8 w)
        else
          let l : Latched := ⟨recWord bs 0, at_ - s.integ.jobOffset, w2.extractLsb' 60 4, w2.extractLsb' 52 8,
            w2.extractLsb' 44 8, w2.extractLsb' 36 8⟩
          .next { s with desk := { s.desk with
            latched := (s.desk.latched.filter fun x => x.step != l.step) ++ [l] } }

/-! ### The inbox (R393) -/

/-- A whole record of the SUBMIT channel enters the inbox while it has a free entry. -/
def execInboxRecord (s : State) : Res :=
  match s.kl.submits with
  | [] => .next s
  | bs :: rest =>
    if s.desk.inbox.length < 256 then
      .next { s with
        kl := { s.kl with submits := rest },
        desk := { s.desk with inbox := s.desk.inbox ++ [⟨bs, if s.job.loadState = 5#8 then s.now else 0, none⟩] } }
    else .next s

end Sys2Proof.Machine
end

