-- ==== Sys2Proof/Machine/Reckon.lean ====
section
/-! DEFINITION. The Reckoners: sampling a column's logits (spec/14 R404 to R407). -/

namespace Sys2Proof.Machine

/-! ### Logits (R404) -/

def State.logitFp32 (s : State) : Bool := s.desk.logitFormat == 2#8

/-- Rows that one column's logits take. -/
def State.logitRows (s : State) : Nat := ceilDiv s.desk.vocab.toNat (if s.logitFp32 then 128 else 256)

/-- The logit of a token, widened to FP32. -/
def logitAt (fp32 : Bool) (m : Memory) (tok : Nat) : W32 :=
  if fp32 then BitVec.ofNat 32 (m.readLE (4 * tok) 4) else BitVec.ofNat 32 (m.readLE (2 * tok) 2) <<< 16

/-! ### Sampling (R406) -/

/-- The value of a finite FP32 word, as an integer that keeps the order; both zeros are equal. -/
def orderKey (x : W32) : Int := if x.msb then -((x.setWidth 31).toNat : Int) else (x.setWidth 31).toNat

/-- Insert a candidate into a list in falling order, after equal values. -/
def insertCand (c : W32 × Nat) : List (W32 × Nat) → List (W32 × Nat)
  | [] => [c]
  | d :: ds => if orderKey d.1 < orderKey c.1 then c :: d :: ds else d :: insertCand c ds

/-- q64(b) = floor (|value of b| × 2^64). -/
def q64 (x : W32) : Nat :=
  let e := (x.extractLsb' 23 8).toNat
  let m := (x.setWidth 23).toNat
  let sig := if e = 0 then m else m + 2 ^ 23
  let ex := max e 1
  if 86 ≤ ex then sig * 2 ^ (ex - 86) else sig / 2 ^ (86 - ex)

/-- Bias of a token: its entry in use, else 0. -/
def Lodger.bias (l : Lodger) (tok : Nat) : W32 :=
  match (l.biases.take l.nbias.toNat).find? fun b => b.1.toNat == tok with
  | some b => b.2
  | none => 0#32

/-- TEMP is 0 for a greedy lodger. -/
def Lodger.greedy (l : Lodger) : Bool := l.temp.setWidth 31 == 0#31

/-- Candidates of a column, greatest first, at most TOP_K. -/
def candidates (l : Lodger) (mask logits : Memory) (fp32 : Bool) (vocab : Nat) : List (W32 × Nat) :=
  let all := (List.range vocab).filterMap fun tok =>
    if l.maskMode != 0#2 && !(mask.read (tok / 8)).getLsbD (tok % 8) then none
    else
      let x := fadd32 (logitAt fp32 logits tok) (l.bias tok)
      let x := if l.greedy then x else fmul32 x (rcpOf l.temp)
      if notFinite x then none else some (x, tok)
  (all.foldl (fun l c => insertCand c l) []).take (if l.topK = 0#11 then 1024 else l.topK.toNat)

/-- Keep candidates, with their weights, until their sum reaches TOP_P of the total. -/
def keepTop (topP total : Nat) : Nat → List (Nat × Nat) → List (Nat × Nat)
  | _, [] => []
  | run, c :: cs =>
    let run := run + c.2
    if topP * total ≤ run * 65536 then [c] else c :: keepTop topP total run cs

/-- The token on which a running sum first exceeds `u`. -/
def pick (u : Nat) : Nat → List (Nat × Nat) → Option Nat
  | _, [] => none
  | run, c :: cs => if u < run + c.2 then some c.1 else pick u (run + c.2) cs

/-- sample(): the token, or none where no candidate is left. -/
def sampleToken (l : Lodger) (mask logits : Memory) (fp32 : Bool) (vocab : Nat) (index : BitVec 32) : Option Nat :=
  match candidates l mask logits fp32 vocab with
  | [] => none
  | c :: cs =>
    if l.greedy then some c.2
    else
      let weights := (c :: cs).map fun d => (d.2, q64 (exp2of (fmul32 (fsub32 d.1 c.1) 0x3FB8AA3B#32)))
      let keep := weights.filter fun d => decide (l.minP.toNat * 2 ^ 64 ≤ d.2 * 65536)
      let keep := if l.topP = 0#16 then keep else keepTop l.topP.toNat (keep.map (·.2)).sum 0 keep
      let total := (keep.map (·.2)).sum
      let w := philoxRounds 10 true (index, 0#32, 0#32, 0x5245434B#32)
        (l.seed.extractLsb' 0 32, l.seed.extractLsb' 32 32)
      pick ((w.2.1.toNat * 2 ^ 32 + w.1.toNat) * total / 2 ^ 64) 0 keep

/-! ### Columns (R405) -/

/-- A Reckoner begins its next column at program beat `b`: it reads the column's rows on consecutive beats of the slice, and
what it loses there moves the column's end. -/
def State.beginColumn (s : State) (t b : Nat) : State :=
  let r := s.reckoner t
  let k := s.desk.logitHandle.toNat
  let n := s.logitRows
  let m := b + s.integ.jobOffset
  let rows := (List.range n).map fun i => r.done * n + i
  let q := s.planActs rankReckoner (b + n + 2560) (m + n - 1) (.column t)
    (chainClaims ((List.range n).map fun i => ([s.logitSlice t k], m + i))) (rows.map fun o => .read [.logit t k o])
    (.logits t)
  q.1.setReckoner t { r with ends := some q.2.due, logits := [] }

/-- A Reckoner starts 3 beats after its condition was met. -/
def execReckonerStart (tower : Fin 4) (s : State) : Res :=
  let t := tower.val
  let r := s.reckoner t
  match r.met, r.ends with
  | some b, none =>
    if r.cols ≠ [] then .next (s.onProgram (b + 3) fun s => s.beginColumn t (b + 3)) else .next s
  | _, _ => .next s

/-- LAST_DESK_EVENT (Table 14.9). -/
def deskEvent (cause lodger tower beat : Nat) : W64 :=
  BitVec.ofNat 4 cause ++ BitVec.ofNat 13 lodger ++ BitVec.ofNat 2 tower ++ BitVec.ofNat 45 beat

/-- What a sampled column writes into its lodger. -/
def State.writePending (s : State) (t : Nat) (c : SampleCol) (tok : Option Nat) : State :=
  let l := s.lodger c.lodger
  match tok with
  | some k => s.setLodger c.lodger { l with hasPending := true, pending := BitVec.ofNat 18 k }
  | none =>
    let s := s.setLodger c.lodger { l with noCandidate := true }
    { s with desk := { s.desk with
        noCandidate := bump s.desk.noCandidate t 1, lastEvent := deskEvent 3 c.lodger t s.milestone } }

/-- A column has ended: the next begins, and 8 beats after the end its result is written. -/
def execReckonerColumnDone (tower : Fin 4) (s : State) : Res :=
  let t := tower.val
  match (s.reckoner t).cols, (s.reckoner t).ends with
  | c :: rest, some b =>
    .next (s.onProgram b fun s =>
      let r := s.reckoner t
      let s := if rest = [] then s
        else (s.setReckoner t { r with cols := rest, ends := none, done := r.done + 1 }).beginColumn t b
      s.onProgram (b + 8) fun s =>
        let l := s.lodger c.lodger
        let mask := SMap.get [] s.desk.masks l.maskSlot.toNat
        let tok := sampleToken l mask r.logits s.logitFp32 s.desk.vocab.toNat c.index
        let s := s.writePending t c tok
        let s : State := { s with desk := { s.desk with reckonerColumns := bump s.desk.reckonerColumns t 1 } }
        if rest = [] then s.setReckoner t Reckoner.idle else s)
  | _, _ => .next s

end Sys2Proof.Machine
end

