-- ==== Sys2Proof/Machine/Schedule.lean ====
section
/-! DEFINITION. Launches, commit points, snapshots and their confirmation (spec/09 R260 to R265, spec/16 R449, R460
to R465). -/

namespace Sys2Proof.Machine

/-! ### Launch (R260) -/

/-- At a launch the Ledger's accumulators become the digests of the completed step, and are cleared (R465). -/
def State.copyLedger (s : State) : State :=
  let layers := s.integ.ledgerTouched
  let body := bytesLE s.job.launches.toNat 8 ++ layers.flatMap fun n =>
    bytesLE n 8 ++ bytesLE (SMap.get 0#64 s.integ.ledgerAcc n).toNat 8
  let s1 : State := if s.integ.ledgerEvents = 1#8 then s.event 0x0D#16 body else s
  { s1 with integ := { s1.integ with
      ledger := s.integ.ledgerAcc, ledgerStep := s.job.launches, ledgerAcc := [], ledgerTouched := [] } }

/-- A matrix core of the tower whose WAIT on the step bell the launch has met resumes at ENTRY. -/
def entryMatrix (bell now : Nat) (shape : BitVec 4) (m : MCore) : MCore :=
  match m.hold with
  | .bell b _ _ (some w) => if b.toNat = bell ∧ w = now then { m with hold := .entry shape now } else m
  | _ => m

def entryVector (bell now : Nat) (shape : BitVec 4) (v : VCore) : VCore :=
  match v.hold with
  | .bell b _ _ (some w) => if b.toNat = bell ∧ w = now then { v with hold := .entry shape now } else v
  | _ => v

/-- Cores of the used halls latch the shape. -/
def State.latchShape (s : State) (shape : BitVec 4) : State :=
  let bell := s.job.stepBell.toNat
  let used := s.usedHalls
  { s with
    mc := s.mc.map fun e => if used.contains (e.1 / 2) then
        (e.1, { entryMatrix bell s.milestone shape e.2 with shape := shape }) else e,
    vc := s.vc.map fun e => if used.contains e.1 then
        (e.1, { entryVector bell s.milestone shape e.2 with shape := shape }) else e }

/-- Local columns of each tower's Reckoner in the step (R404, R405). Where LOGIT_BELL's pair fails, its count is not used,
and the mismatch is raised (R225). -/
def State.startReckoners (s : State) : State :=
  let samples := (s.desk.tab.cols.filter (·.sample)).map fun x => (⟨x.lodger, x.pos + 1#32⟩ : SampleCol)
  let step := s.job.launches.setWidth 48
  let bell := s.desk.logitBell.toNat
  let of (t : Nat) : Reckoner :=
    let cols := ((List.range samples.length).filter fun j => j % 4 == t).filterMap fun j => samples[j]?
    if cols = [] then Reckoner.idle
    else
      let p := s.bell t bell
      let met := if p.ok && bellMet p.count step then some s.now else none
      { Reckoner.idle with cols := cols, step := step, met := met }
  let rs := (List.range 4).foldl (fun m t => SMap.set Reckoner.idle m t (of t)) []
  let s := { s with desk := { s.desk with reckoners := rs } }
  match (List.range 4).find? fun t => (of t).cols != [] && !(s.bell t bell).ok with
  | some t => s.mismatch t 3 bell 208
  | none => s

/-- A launch of a shape on the beat in force. -/
def State.launch (s : State) (shape : BitVec 4) : State :=
  let s := s.copyLedger
  let p := s.now
  let s := { s with job := { s.job with
    launches := s.job.launches + 1#64, lastLaunchBeat := s.milestone, lastShape := shape.setWidth 8,
    stepRunning := some (p, shape), nextCommit := 1, commitDue := some p } }
  let s := s.usedTowers.foldl (fun s t => s.addBell t s.job.stepBell.toNat 1 208 0) s
  s.latchShape shape

/-- The desk's own part: the Reckoners' columns, and the map. -/
def State.deskLaunch (s : State) (d : Decision) : State :=
  let s := s.launch d.shape
  let decided := s.desk.decided.map fun e => if e = d then { e with done := true } else e
  let s : State := { s with desk := { s.desk with decided := decided } }
  s.startReckoners.handMap d.shape

/-- A follower takes LIVE_GEN and OLD_GEN from the launch record (R429). -/
def State.takeGens (s : State) (l : Latched) : State :=
  let g := s.loader.gens
  if g.live = l.live then { s with loader := { s.loader with gens := { g with old := l.old } } }
  else
    let inPlace := match s.loader.ready, s.loader.switchAt with
      | some (f, w), _ => f && w == l.live
      | none, some (_, w, f) => f && w == l.live
      | none, none => false
    ({ s with loader := { s.loader with
        gens := { g with live := l.live, old := l.old },
        state := if s.adapterLoads then s.loader.state else 0#4, lastSwitch := BitVec.ofNat 64 s.milestone,
        ready := if s.loader.ready = some (inPlace, l.live) then none else s.loader.ready,
        switchAt := some (s.now, l.live, inPlace), switched := some s.now, barrier := s.loader.barrier && !inPlace,
        barrierState := if inPlace then 0#8 else s.loader.barrierState } } : State).endOwed 0x6010 3 none true

/-- A follower's launch, on its beat: its boundary first (R397), which an earlier command may have taken. -/
def State.followerLaunch (s : State) (l : Latched) : State :=
  let s := if s.desk.tab.boundary = some l.at_ then s else s.boundary
  let s := s.takeGens l
  let beats := (SMap.get Shape.absent s.job.shapes l.shape.toNat).beats
  (s.setTab { s.desk.tab with
    stepGen := l.wgen, launchAt := l.at_, stepOpen := true, stepEnd := l.at_ + beats }).launch l.shape

/-- A launch: at the desk of a step that its boundary has composed, at a follower of a launch that it has latched. -/
def execLaunch (s : State) : Res :=
  if s.active = false ∨ s.shp.transitOnly then .next s
  else if s.desk.role = 1#8 then
    match s.decisionAt s.desk.tab.launchAt with
    | some d =>
      if s.desk.tab.boundary = some d.at_ ∧ s.desk.tab.stepOpen then .next (s.onProgram d.at_ fun s => s.deskLaunch d)
      else .next s
    | none => .next s
  else
    match s.desk.latched.find? fun l => l.step == s.job.launches + 1#64 with
    | some l => .next (s.onProgram l.at_ fun s => s.followerLaunch l)
    | none => .next s

/-! ### Quiescence (R263, R265) -/

/-- The condition's failing agents, as codes of R229. -/
def minAgent (xs : List Nat) : Option Nat := earliestOf xs

/-- Condition 1: work of cores that is not done at the beat in force, also of cores that have since stopped with END, and
Reckoners at work. -/
def State.busyCores (s : State) : List Nat :=
  (s.mc.filter fun e => decide (s.milestone < e.2.times.busyUntil) || e.2.signals != []).map
      (fun e => tileOf (e.1 / 2) (e.1 % 2))
    ++ (s.vc.filter fun e => decide (s.milestone < e.2.times.busyUntil) || e.2.signals != []).map
      (fun e => tileOf e.1 2)
    ++ s.desk.late.map fun _ => 208

/-- Condition 2: finished-tile queues and drains. -/
def State.busyQueues (s : State) : List Nat :=
  (s.ftq.filter fun e => e.2.entries != []).map (fun e => tileOf (e.1 / 2) (e.1 % 2))
    ++ (s.mc.filter fun e => e.2.pieces != []).map fun e => tileOf (e.1 / 2) (e.1 % 2)

/-- Condition 3: porters, Cellar streams, send stages and post inputs. A remote transfer is active, and a remote send staged,
until its acknowledgement is here, so what this member has injected and another has not written yet stands in it too. -/
def State.busyMovers (s : State) : List Nat :=
  (s.por.porters.filter fun e => e.2.queue != [] || e.2.active != [] || e.2.chain != []
      || e.2.arriving.any fun d => decide (d.due ≤ s.milestone)).map (fun e => porterAgent e.1)
    ++ (s.cel.ctl.flatMap fun e => (e.2.arriving ++ e.2.streams).map fun c => c.agent.toNat)
    ++ (s.pb.stages.filter fun e => e.2.entries != []).map (fun e => stageAgent e.1)
    ++ s.pb.posts.flatMap fun e => e.2.waiting.map fun a => a.sender.agent

/-- Condition 4: packets of other members that are not yet written here. -/
def State.busyArrivals (s : State) : List Nat :=
  (s.por.inbound.filter fun e => e.2 != []).map (fun _ => 210)
    ++ (s.pb.flights.map fun f => f.sender.agent)

/-- A core is held by its WAIT on the step bell, or has stopped. -/
def MCore.atRest (m : MCore) (bell : Nat) : Bool :=
  !m.running || (match m.hold with
    | .bell b _ _ _ => b.toNat == bell
    | .entry _ _ => true
    | _ => false)

def VCore.atRest (v : VCore) (bell : Nat) : Bool :=
  !v.running || (match v.hold with
    | .bell b _ _ _ => b.toNat == bell
    | .entry _ _ => true
    | _ => false)

/-- Condition 5, at offset 0. -/
def State.busyAtStart (s : State) : List Nat :=
  let bell := s.job.stepBell.toNat
  (s.mc.filter fun e => !e.2.atRest bell).map (fun e => tileOf (e.1 / 2) (e.1 % 2))
    ++ (s.vc.filter fun e => !e.2.atRest bell).map fun e => tileOf e.1 2

/-- The lowest condition that fails, and the lowest agent that fails it. -/
def State.commitFailure (s : State) (atStart : Bool) : Option (Nat × Nat) :=
  let conds := [s.busyCores, s.busyQueues, s.busyMovers, s.busyArrivals, if atStart then s.busyAtStart else []]
  (List.range 5).findSome? fun k => (minAgent (conds.getD k [])).map fun a => (k + 1, a)

/-- A commit slip: recorded, and a contained transient fault (R265). -/
def State.commitSlip (s : State) (cond agent : Nat) : State :=
  let w : W64 := 2#2 ++ s.ranks.myRank ++ 0#5 ++ 0#16 ++ BitVec.ofNat 8 agent ++ BitVec.ofNat 4 cond ++ 0#13
  let s : State := { s with job := { s.job with slips := s.job.slips + 1#32, lastSlip := w } }
  let s : State := match s.desk.late with
    | t :: _ => { s with desk := { s.desk with lastEvent := deskEvent 2 0 t s.milestone } }
    | [] => s
  s.raiseError .transient 0xA040#16 0#8 w

/-! ### The snapshot (R449, Table 16.5) -/

/-- The parts of a matrix core that a snapshot keeps. -/
def MCore.kept (m : MCore) : MCore := { m with slot0 := Tile.empty, slot1 := Tile.empty, banks := [] }

/-- The parts of a vector core that a snapshot keeps. -/
def VCore.kept (v : VCore) : VCore := { v with v := [], es := [] }

def State.snapshot (s : State) (p : Nat) : Snapshot :=
  { beat := p, omega := s.integ.jobOffset, bells := s.pb.bells, posts := s.pb.posts,
    seqs := s.pb.stages.map fun e => (e.1, e.2.seq),
    mc := SMap.mapV MCore.idle s.mc MCore.kept, vc := SMap.mapV VCore.idle s.vc VCore.kept, ftq := s.ftq,
    cellar := s.cel.ctl, table := s.desk.tab,
    launch := ⟨s.job.launches, s.job.lastLaunchBeat, s.job.lastShape, s.job.stepRunning, s.job.nextCommit⟩,
    gens := s.loader.gens, reckoners := s.desk.reckoners, ledgerAcc := s.integ.ledgerAcc,
    ledgerTouched := s.integ.ledgerTouched }

/-! ### Commit points (R262, R265) -/

/-- The next commit beat, in program beats, and whether it is a launch or a boundary. -/
def State.nextCommitBeat (s : State) : Option (Nat × Bool) :=
  match s.job.commitDue with
  | some p => some (p, true)
  | none =>
    match s.job.stepRunning with
    | some (l, q) => ((SMap.get Shape.absent s.job.shapes q.toNat).commits[s.job.nextCommit]?).map fun o => (l + o, false)
    | none => none

/-- The launch of the boundary at program beat `p` is still to come on this beat. -/
def State.launchComes (s : State) (p : Nat) : Bool :=
  (s.decisionAt p).isSome || s.latchedAhead.any (fun l => l.at_ == p) || (s.desk.role == 1#8 && s.leadZero && s.desk.tab.boundary == some p
    && !s.desk.tab.stepOpen && decide (s.desk.tab.stepEnd ≤ p) && s.desk.decided.all (·.done) && s.choose.isSome)

/-- The commit is past: the next one of the step is due. -/
def State.passCommit (s : State) (atStart : Bool) : State :=
  { s with job := { s.job with
      commitDue := none, nextCommit := if atStart then s.job.nextCommit else s.job.nextCommit + 1 } }

/-- A pending unload stops the job here (R259). -/
def State.unloadHere (s : State) : Bool :=
  s.job.unloadPending &&
    (!(s.job.placement == 1#8 && s.desk.role == 1#8) || (!s.stepRuns && !s.launchDecided))

/-- Take the commit of program beat `p`. -/
def State.takeCommit (s : State) (p : Nat) (atStart : Bool) : State :=
  let s := s.passCommit atStart
  let snap := s.snapshot p
  let c := p + s.integ.jobOffset
  { s with
    snaps := (snap :: s.snaps).take 4,
    por := { s.por with porters := SMap.mapV Porter.idle s.por.porters fun q => { q with staging := [] } },
    desk := { s.desk with late := [] },
    integ := { s.integ with
      lastCommit := c, commits := s.integ.commits + 1#64, unconfirmed := s.integ.unconfirmed ++ [(c, p)] } }

/-- A commit beat. A halted member takes none (R449). -/
def execCommitPoint (s : State) : Res :=
  if s.active = false ∨ s.shp.transitOnly then .next s
  else
    match s.nextCommitBeat with
    | none => .next s
    | some (p, atStart) =>
      if atStart && s.launchComes p then .next s
      else
        .next (s.onProgram p fun s =>
          match s.commitFailure atStart with
          | some (cond, agent) => s.commitSlip cond agent
          | none =>
            let s := s.takeCommit p atStart
            if s.unloadHere then s.stopJob else s)

/-! ### Confirmation (R460, R461) -/

/-- CONFIRM beats. -/
def State.confirmBeats (s : State) : Nat := beatsOfUs s.clock.opNow.toNat (10 + s.diameter) 10

/-- A record leaves the desk for the outbound queue, and is counted. -/
def State.releaseRecord (s : State) (r : Release) : State :=
  match r.kind with
  | .ignored => { s with desk := { s.desk with ignored := s.desk.ignored + 1#64 } }
  | .ack => { s with kl := { s.kl with outQueue := s.kl.outQueue ++ [⟨false, r.bytes, none⟩] } }
  | .token =>
    let t0 := recWord r.bytes 0
    let s : State := { s with kl := { s.kl with outQueue := s.kl.outQueue ++ [⟨true, r.bytes, none⟩] } }
    let s : State := if t0.getLsbD 49 then
        { s with desk := { s.desk with tokensReleased := s.desk.tokensReleased + 1#64 } } else s
    if t0.getLsbD 50 then
      { s with desk := { s.desk with retired := bump s.desk.retired (t0.extractLsb' 45 4).toNat 1 } }
    else s

/-- What the commit of program beat `p` lets go: its records, and the inbox entries that it applied. -/
def State.releaseCommit (s : State) (p : Nat) : State :=
  let due := s.desk.releases.filter fun r => decide (r.beat ≤ p)
  let gone (r : InboxRec) : Bool := match r.applied with | some q => decide (q ≤ p) | none => false
  let n := (s.desk.inbox.filter gone).length
  let s := due.foldl (fun s r => s.releaseRecord r) s
  let s : State := { s with desk := { s.desk with
    releases := s.desk.releases.filter fun r => !decide (r.beat ≤ p), inbox := s.desk.inbox.filter fun r => !gone r } }
  (List.range n).foldl (fun s _ => s.kFree chSubmit) s

/-- The oldest commit that is not confirmed is confirmed CONFIRM beats after it. -/
def execCommitConfirm (s : State) : Res :=
  match s.integ.unconfirmed with
  | [] => .next s
  | (c, p) :: rest =>
    if s.job.loadState ≠ 5#8 then .next s
    else
      let s := s.toBeat (c + s.confirmBeats)
      .next (({ s with integ := { s.integ with unconfirmed := rest, confirmed := max s.integ.confirmed c } } : State).releaseCommit p)

end Sys2Proof.Machine
end

