-- ==== Sys2Proof/Machine/Weights.lean ====
section
/-! DEFINITION. Weights: load requests, switch, barrier, adapters, the loader's fetches, checks and writes, and
pass-along chains (spec/15). -/

namespace Sys2Proof.Machine

/-! ### Writes at the desk rank (R427, R491) -/

/-- Send a request to a member on the Eothar path, and keep it until it is answered (R490). -/
def State.askMember (s : State) (rank : BitVec 16) (message : List Byte) (tag : BitVec 16) : State :=
  let body := dictBody message
  ({ s with dict := { s.dict with asked := s.dict.asked ++ [⟨rank, body, tag, s.wall⟩] } } : State).sendSingle clsMgt
    5#8 rank body

/-- Every member but this one. -/
def State.otherRanks (s : State) : List (BitVec 16) :=
  ((List.range s.ranks.jobSize.toNat).map (BitVec.ofNat 16)).filter fun r => r != s.ranks.myRank

/-- The write is one that the desk rank of a resident job applies at every member before it answers. -/
def State.fansOut (s : State) (w : DictWrite) : Bool :=
  s.job.placement == 1#8 && s.ranks.myRank == s.ranks.deskRank && decide (1 < s.ranks.jobSize.toNat)
    && (match w.path with | .eothar _ => false | _ => true)

/-- Serve a write of an object of R491. At the desk rank the reply waits until every member has answered, and a COMPLETE
is owed; `ends` says that the operation has ended with the write itself. -/
def State.serveDesk (s : State) (index sub : Nat) (w : DictWrite) (rule : WriteRule) (pending : Bool)
    (apply : State → Nat → State) : State :=
  if s.fansOut w && s.answers && !s.full w.path (writeMessage index sub w) then
    let st := s.writeStatus index sub w rule
    let s := s.finish w.path (writeMessage index sub w)
    if st.1 ≠ stOk then s.sendReply (writeReply index sub w st.1 st.2)
    else
      let tag := s.dict.nextTag
      let others := s.otherRanks
      let s : State := { s with dict := { s.dict with
        nextTag := tag + 1#16, fans := s.dict.fans ++ [⟨w, BitVec.ofNat 16 index, BitVec.ofNat 8 sub, others, none, tag⟩] } }
      let s := s.owe index sub w
      let s := apply s 0
      let s := if pending then s else s.endOwed index sub none true
      let message := dictBytes w.inst (BitVec.ofNat 16 index) (BitVec.ofNat 8 sub) 2#8 0#8 tag w.type w.length w.offset w.value
      others.foldl (fun s r => s.askMember r message tag) s
  else s.serveWrite index sub w rule pending apply

/-! ### Requests (R410, R417, R428, R434) -/

/-- The generation after `w` by step `k` (R410). -/
def genAfter (w : BitVec 8) (k : Nat) : BitVec 8 := BitVec.ofNat 8 ((w.toNat + k - 1) % 254 + 1)

/-- A request of a form other than an adapter's is queued or in progress. -/
def State.weightsWait (s : State) : Bool :=
  s.loader.queue.any (fun r => r.form != 3#2)
    || (match s.loader.active with | some a => !a.isAdapter | none => false)

def State.addRequest (s : State) (form : BitVec 2) (adapter : Nat) : State :=
  { s with loader := { s.loader with queue := s.loader.queue ++ [⟨form, adapter, s.loader.manifestLoc⟩] } }

/-- 6010.01 WEIGHT_LOAD, value 1: a set-form load. -/
def execWeightLoadSet (w : DictWrite) (s : State) : Res :=
  let busy := s.loader.gens.old != 0#8 || s.weightsWait || s.loader.ready.isSome || decide (16 ≤ s.loader.queue.length)
  let rule : WriteRule := ⟨false, true, false, fun _ => wnum w == 1, false, fun _ => busy⟩
  .next (s.serveDesk 0x6010 1 w rule true fun s _ => s.addRequest 1#2 0)

/-- 6012.05 BARRIER_STATE. A follower has no boundaries of steps: it reads 2 once its last launch has run out. -/
def State.barrierNow (s : State) : BitVec 8 :=
  if !s.loader.barrier then 0#8
  else if s.loader.barrierState == 2#8 || (s.desk.role != 1#8 && !s.stepRuns && !s.launchDecided) then 2#8
  else 1#8

/-- 6010.01 WEIGHT_LOAD, value 2: an in-place load. -/
def execWeightLoadInPlace (w : DictWrite) (s : State) : Res :=
  let busy := s.barrierNow != 2#8 || s.loader.queue != [] || s.loader.active.isSome
  let range := wnum w == 2 && s.job.swapMode != 1#8 && s.loader.gens.live != 0#8
  let rule : WriteRule := ⟨false, true, false, fun _ => range, false, fun _ => busy⟩
  .next (s.serveDesk 0x6010 1 w rule true fun s _ => s.addRequest 2#2 0)

/-- The write of SWITCH is accepted: the desk notes the beat. A follower takes the generation with its launch record
(R429). -/
def State.acceptSwitch (s : State) : State :=
  match s.loader.ready, s.switchPending with
  | some (inPlace, g), none =>
    if s.desk.role = 2#8 then s
    else { s with loader := { s.loader with switchAt := some (s.now, g, inPlace), switched := none } }
  | _, _ => s

/-- 6010.03 SWITCH: the loaded generation is to be applied at the switch launch. At the desk rank of a resident job the
write is accepted once every member has answered that its load is READY (R429, R491). -/
def execSwitch (w : DictWrite) (s : State) : Res :=
  let rule : WriteRule := ⟨false, false, false, fun _ => w.value == [1#8], false, fun _ => s.loader.ready.isNone⟩
  let fans := s.fansOut w
  .next (s.serveDesk 0x6010 3 w rule true fun s _ => if fans then s else s.acceptSwitch)

/-- 6010.04 BARRIER, TRUE: the desk decides no further launch (R433). -/
def execBarrierClose (w : DictWrite) (s : State) : Res :=
  .next (s.serveDesk 0x6010 4 w (WriteRule.plain fun _ => w.value == [1#8]) false fun s _ =>
    let open_ := s.desk.tab.stepOpen || s.desk.decided.any (fun d => !d.done) || (s.desk.role == 2#8 && (s.stepRuns || s.launchDecided))
    { s with loader := { s.loader with
        barrier := true,
        barrierState := if s.loader.barrier then s.loader.barrierState else if open_ then 1#8 else 2#8 } })

/-- 6010.04 BARRIER, FALSE. -/
def execBarrierOpen (w : DictWrite) (s : State) : Res :=
  .next (s.serveDesk 0x6010 4 w (WriteRule.plain fun _ => w.value == [0#8]) false fun s _ =>
    { s with loader := { s.loader with barrier := false, barrierState := 0#8 } })

/-! ### Adapters (R437) -/

/-- The write for handle `i` is refused with BUSY; `ahead` requests of the same write join the queue before it. -/
def State.adapterBusy (s : State) (i ahead : Nat) : Bool :=
  let x := s.adapter i
  let z := !x.active
  x.st z == adapterLoading || x.queued
    || (if x.pin z = 0#16 then decide (16 ≤ s.loader.queue.length + ahead) else s.loader.bothPinned != 1#8)

/-- 6040.01 ADAPTER_LOAD [adapter]: into the idle slot, at once or once its pins are gone. -/
def execAdapterLoad (w : DictWrite) (s : State) : Res :=
  let ahead (i : Nat) : Nat :=
    if isGroup w.inst then ((List.range i).filter fun j => (s.adapter j).pin (!(s.adapter j).active) == 0#16).length else 0
  let rule : WriteRule := ⟨false, true, false, fun _ => w.value == [1#8], false, fun i => s.adapterBusy i (ahead i)⟩
  .next (s.serveWrite 0x6040 1 w rule true fun s i =>
    let x := s.adapter i
    let z := !x.active
    if x.pin z = 0#16 then (s.setAdapter i (x.setSt z adapterLoading)).addRequest 3#2 i
    else s.setAdapter i { x with queued := true, loc := s.loader.manifestLoc })

/-! ### Starting a request (R413, R415, R417) -/

/-- The lowest adapter handle whose QUEUED load waits for room in the loader's queue alone. -/
def State.waitingAdapter (s : State) : Option Nat :=
  (s.loader.gens.adapters.find? fun e => e.2.queued && e.2.pin (!e.2.active) == 0#16).map (·.1)

/-- The loader takes the next request. A SOURCE 1 request whose controller is not up, or whose namespace has blocks that
the port does not accept, fails with cause 7. -/
def execLoaderRequestStart (s : State) : Res :=
  if s.integ.fatalState ≠ 0#8 then .next s
  else
    match s.loader.active, s.loader.queue with
    | none, r :: rest =>
      let live := s.loader.gens.live
      let gen := if r.form = 3#2 then 0#8
        else if r.form = 2#2 then genAfter live 2
        else if live = 0#8 then 1#8 else genAfter live 1
      let set := if r.form = 3#2 then !(s.adapter r.adapter).active else gen.getLsbD 0
      let a : ActiveLoad :=
        { req := r, set := set, gen := gen, buf := [], got := [], released := 0,
          manifest := { Landing.empty with since := some s.wall }, shards := [], want := [], reads := [], sent := 0,
          passed := false, ready := false, wrote := false, writing := [] }
      let s : State := { s with loader := { s.loader with
        queue := rest, state := 1#4, form := r.form, set := r.form != 3#2 && set, gen := gen, layer := 0#16,
        shardsDone := 0#28 } }
      let s := match s.waitingAdapter with
        | some i => s.joinQueue i
        | none => s
      if a.source = 1 then
        if s.flashReady a.ctrl a.nsid then .next (s.setActive (s.fillReads { a with want := [⟨manifestShard, 0, 4096⟩] } 16))
        else .next (s.failLoad a 7 manifestShard)
      else .next (s.setActive a)
    | _, _ => .next s

/-- An NVMe Read completes: its bytes enter the landing buffer, or its shard's attempt has failed (R415, R425). `read`
counts the Reads outstanding. -/
def execFlashReadComplete (read : Fin 16) (ok : Bool) (data : List (BitVec 8)) (s : State) : Res :=
  match s.loader.active with
  | none => .next s
  | some a =>
    match a.reads[read.val]? with
    | none => .next s
    | some r =>
      let a := { a with reads := a.reads.eraseIdx read.val }
      if ok && decide (r.len ≤ data.length) then
        .next ((s.countLanded r.len).afterLanding (a.land r.at_ (data.take r.len)))
      else
        let s : State := { s with flash := { s.flash with errors := SMap.modify 0#32 s.flash.errors a.ctrl (· + 1#32) } }
        .next (s.failAttempt a r.shard 6)

/-! ### Checking shards (R416, R425) -/

/-- The first kept shard that has landed whole and is not yet checked. -/
def State.landedShard (s : State) (a : ActiveLoad) : Option Nat :=
  if a.manifest.checked then (s.keptShards a).find? fun i => !(a.landing i).checked && a.complete i else none

/-- Its digest is checked in the landing buffer. -/
def execShardLanded (s : State) : Res :=
  match s.loader.active with
  | none => .next s
  | some a =>
    match s.landedShard a with
    | none => .next s
    | some i =>
      let e := a.shard i
      if digest32 (a.buf.readBytes e.at_ (512 * e.units)) = e.digest then
        .next (s.setActive (a.setLanding i { a.landing i with checked := true, since := none }))
      else .next (s.failAttempt a i 5)

/-- Parts whose time-out runs, with the wall time since when. -/
def State.timedParts (s : State) (a : ActiveLoad) : List (Nat × Nat) :=
  ((manifestShard :: (if a.manifest.checked then s.keptShards a else [])).filter fun i =>
    !(if i = manifestShard then a.manifest.checked else a.complete i)).filterMap fun i =>
      ((a.landing i).since).map fun w => (i, w)

/-- SHARD_TIMEOUT_MS has passed for the part that has waited longest. -/
def execShardTimeout (s : State) : Res :=
  match s.loader.active with
  | none => .next s
  | some a =>
    match (s.timedParts a).foldl (fun best x =>
        match best with
        | none => some x
        | some y => if x.2 < y.2 then some x else some y) (none : Option (Nat × Nat)) with
    | none => .next s
    | some (i, w) =>
      let s := s.toWall (w + wallOfUs (1000 * s.loader.timeoutMs.toNat))
      .next (s.failAttempt a i 6)

/-! ### Writing targets (R418, R419, R434) -/

/-- Order in which shards are written: by layer for an in-place load, else the table's. -/
def State.writeOrder (s : State) (a : ActiveLoad) : List Nat :=
  let kept := s.keptShards a
  if a.req.form = 2#2 then kept.foldl (fun l i => insertBy (fun j => (a.shard j).layer.toNat) i l) [] else kept

/-- The shard that is written next: checked, with units left. An in-place load keeps strictly to its order. -/
def State.nextShard (s : State) (a : ActiveLoad) : Option Nat :=
  let left := (s.writeOrder a).filter fun i => decide ((a.landing i).handed < (a.shard i).units)
  if a.req.form = 2#2 then left.head?.filter fun i => (a.landing i).checked
  else left.find? fun i => (a.landing i).checked

/-- When a write may start: not now, at any length, or from a beat on so that it completes by another. -/
inductive WriteTime where
  | never
  | free
  | window (from_ last : Nat)
deriving DecidableEq, Repr

/-- The three times of R419; an in-place load, which writes LIVE_GEN's set, only behind a closed barrier (R411). -/
def State.writeTime (s : State) (a : ActiveLoad) : WriteTime :=
  if !s.moving || (a.req.form == 2#2 && s.barrierNow != 2#8) then .never
  else if s.job.loadState ≠ 5#8 then .free
  else
    match s.job.stepRunning with
    | some (l, q) =>
      if s.stepRuns then
        let f := SMap.get 0#64 s.loader.fill q.toNat
        let off := (f.extractLsb' 32 32).toNat
        let n := (f.extractLsb' 0 32).toNat
        if n = 0 then .never else .window (l + off + s.integ.jobOffset) (l + off + n - 1 + s.integ.jobOffset)
      else if s.launchDecided || s.desk.inbox.any (fun r => r.applied.isNone) then .never else .free
    | none => if s.launchDecided || s.desk.inbox.any (fun r => r.applied.isNone) then .never else .free

/-- Beat by which a descriptor of `n` units, started at `b` with nothing in its way, has written its last packet (R201 to
R203, R544). -/
def State.writeEnd (s : State) (t : ShardTarget) (n b : Nat) : Nat :=
  let d := max (routeBeats (meshRoute 0 0 0 0 t.tower t.tile)) (routeBeats (meshRoute 1 0 0 0 t.tower t.tile))
  let arrives := b + 12 + (4 * n - 1) / 2 + d
  if t.cellar then
    let k := (t.e0.extractLsb' 38 5).toNat
    let at_ := (t.e0.extractLsb' 0 38).toNat
    let x := s.stack k
    let r := x.assignAll k true ((List.range n).map fun u => at_ + 512 * u)
      (max x.last (slotAt k (s.programBeat (arrives + 8))))
    (r.2.map fun i => s.slotMilestone k i + 10).foldl max arrives
  else arrives + 5

/-- The most units, up to `hi`, that end by beat `last`; `lo` do. -/
def State.fitUnits (s : State) (t : ShardTarget) (b last : Nat) : Nat → Nat → Nat → Nat
  | 0, lo, _ => lo
  | fuel + 1, lo, hi =>
    if hi ≤ lo then lo
    else
      let m := (lo + hi + 1) / 2
      if s.writeEnd t m b ≤ last then s.fitUnits t b last fuel m hi else s.fitUnits t b last fuel lo (m - 1)

/-- The descriptor of a loader write: COPY, SCOPE tower, no source (R418, R544). -/
def loaderDesc (e0 : W64) (units : Nat) : PDesc :=
  let w0 : W64 := 1#4 ++ 0#9 ++ 1#2 ++ 0#25 ++ BitVec.ofNat 24 (16 * units - 1)
  BitVec.ofNat 512 (w0.toNat + 2 ^ 192 * e0.toNat)

/-- Hand `n` units of shard `i` to porter 13 of the target's tower. -/
def State.handUnits (s : State) (a : ActiveLoad) (i : Nat) (t : ShardTarget) (n : Nat) : State :=
  let e := a.shard i
  let x := a.landing i
  let bytes := a.buf.window (e.at_ + 512 * x.handed) (512 * n)
  let a := { a.setLanding i { x with handed := x.handed + n } with
    writing := a.writing ++ [(i, t.tower, n)], wrote := a.wrote || a.req.form == 2#2 }
  let s : State := { s with loader := { s.loader with layer := e.layer } }
  (s.setActive a).handTo (16 * t.tower + 13) ⟨loaderDesc t.e0 n, s.milestone, 0xFF#8, 0#15, some bytes, none⟩

/-- The loader starts its next write, if R419 permits one now. Within a fill window it has one descriptor in progress, cut
so that it completes before the window ends. -/
def execLoaderTargetWrite (s : State) : Res :=
  match s.loader.active with
  | none => .next s
  | some a =>
    match s.nextShard a with
    | none => .next s
    | some i =>
      let e := a.shard i
      let x := a.landing i
      match s.shardTarget a e x.handed with
      | none => .next (s.failLoad a 4 i)
      | some t =>
        if a.writing.any fun w => w.2.1 == t.tower then .next s
        else
          match s.writeTime a with
          | .never => .next s
          | .free => .next (s.handUnits a i t (e.units - x.handed))
          | .window from_ last =>
            if a.writing ≠ [] then .next s
            else
              .next (s.onBeat from_ fun s =>
                let b := max s.milestone (s.porter (16 * t.tower + 13)).startFree
                let n := s.fitUnits t b last 16 0 (e.units - x.handed)
                if n = 0 then s else s.handUnits a i t n)

/-! ### Pass-along chains (R422 to R425) -/

def passType (b : BitVec 960) : BitVec 4 := b.extractLsb' 60 4
def passShard (b : BitVec 960) : Nat := (b.extractLsb' 32 28).toNat
def passChunk (b : BitVec 960) : Nat := (b.extractLsb' 8 24).toNat
def passLen (b : BitVec 960) : Nat := (b.extractLsb' 0 8).toNat
def passData (b : BitVec 960) : List Byte := (bytesLE (b.extractLsb' 64 896).toNat 112).take (passLen b)

/-- The oldest pass-along frame leaves its buffer. -/
def State.takePass (s : State) (p : Nat) : State :=
  ({ s with ranks := { s.ranks with passAlong := s.ranks.passAlong.tail } } : State).freeCredit
    (some (p, bufferOf clsColl false))

def State.discardPass (s : State) (p : Nat) : State :=
  ({ s with loader := { s.loader with discarded := s.loader.discarded + 1#64 } } : State).takePass p

/-- A data frame of a peer fetch. -/
def State.peerFrame (s : State) (a : ActiveLoad) (p : Nat) (b : BitVec 960) : State :=
  let i := passShard b
  let at_ := (a.part i).1 + 112 * passChunk b
  let d := passData b
  if (a.part i).2 < at_ + d.length then s.discardPass p
  else if landingBytes < a.held + d.length then s
  else ((s.takePass p).countLanded d.length).afterLanding (a.land at_ d)

/-- A data frame of a SOURCE 3 load: forwarded, then stored if it is of the manifest or of a shard that the member
keeps. It waits in its buffer while the port below may not send or the landing buffer is full. -/
def State.chainFrame (s : State) (a : ActiveLoad) (p : Nat) (b : BitVec 960) : State :=
  let i := passShard b
  let known := a.manifest.checked
  let kept := known && decide (i < a.nshards) && (a.shard i).rank == s.ranks.myRank
  let down := s.loader.downPort.toNat
  let forward := s.loader.downPort != 0xFF#8 && !(kept && s.job.placement == 1#8)
  let at_ := (a.part i).1 + 112 * passChunk b
  let d := passData b
  let store := (i == manifestShard && !known) || (kept && decide (at_ + d.length ≤ (a.part i).2))
  if forward && !s.mayPass down then s
  else if store && decide (landingBytes < a.held + d.length) then s
  else
    let s := s.takePass p
    let s := if forward then s.sendPass down [b] else s
    let ends := known && (decide (a.nshards ≤ i + 1) && i != manifestShard && decide ((a.part i).2 ≤ at_ + d.length))
    let a := { a with passed := a.passed || ends }
    let s := s.setActive a
    if store then ((s.countLanded d.length).afterLanding (a.land at_ d)).closeLoad else s.closeLoad

/-- A frame has come: it is stored and forwarded, answers a peer fetch, or is discarded. Shard requests are the peer's
(R425). -/
def State.passFrame (s : State) (p : Nat) (b : BitVec 960) : State :=
  let i := passShard b
  match s.loader.active with
  | none => if passType b = 1#4 then s.discardPass p else s.takePass p
  | some a =>
    let fetch := (a.landing i).tried == 2 && BitVec.ofNat 8 p == s.loader.peerPort && !a.complete i && i != manifestShard
    if passType b = 1#4 then
      if fetch then s.peerFrame a p b
      else if a.source = 3 ∧ BitVec.ofNat 8 p = s.loader.upPort then s.chainFrame a p b
      else s.discardPass p
    else
      let s := s.takePass p
      if passType b = 3#4 ∧ fetch then s.failAttempt a i (a.landing i).cause else s

/-- The source of a chain sends the manifest and signature, then every shard in order, each once it has landed (R423). -/
def State.sendPart (s : State) (a : ActiveLoad) : State :=
  let down := s.loader.downPort.toNat
  let i := if a.sent = 0 then manifestShard else a.sent - 1
  if a.source = 1 ∧ s.loader.downPort ≠ 0xFF#8 ∧ s.mayPass down ∧ a.manifest.checked ∧ a.sent ≤ a.nshards
      ∧ a.complete i then
    let r := a.part i
    let bytes := a.buf.readBytes r.1 (r.2 - r.1)
    let done := i != manifestShard
      && ((a.shard i).rank != s.ranks.myRank || (a.landing i).units == (a.shard i).units)
    let a := { a with sent := a.sent + 1, released := if done then a.released + bytes.length else a.released }
    let a := s.fillReads a 16
    ((s.setActive a).sendPass down (dataFrames i 0 bytes (bytes.length / 112 + 1))).closeLoad
  else s

/-- The oldest pass-along frame is handled; with none, a waiting shard request goes out, or the source of a chain sends
its next part. -/
def execPassAlong (s : State) : Res :=
  match s.ranks.passAlong with
  | (p, f) :: _ => if passType (singleBody f) = 2#4 then .next s else .next (s.passFrame p (singleBody f))
  | [] =>
    match s.loader.active with
    | none => .next s
    | some a =>
      match a.shards.find? fun e => e.2.asks with
      | some e => .next (s.askPeer a e.1)
      | none => .next (s.sendPart a)

/-- A shard request is answered on its port: with data frames if the image at this member's MANIFEST_LOC, in its own
flash, has the manifest digest asked for; otherwise with PTYPE 3. `image` is what the flash holds. -/
def execShardRequest (image : Option PeerImage) (s : State) : Res :=
  match s.ranks.passAlong with
  | (p, f) :: _ =>
    let b := singleBody f
    if passType b = 2#4 ∧ s.mayPass p then
      let i := passShard b
      let want : W64 := b.extractLsb' 64 64
      let s := s.takePass p
      match image with
      | some m =>
        if m.digest = want ∧ s.loader.manifestLoc.extractLsb' 60 4 = 1#4 then
          .next (s.sendPass p (dataFrames i 0 m.bytes (m.bytes.length / 112 + 1)))
        else .next (s.sendPass p [passBody 3#4 i 0 0 (bytesLE want.toNat 8)])
      | none => .next (s.sendPass p [passBody 3#4 i 0 0 (bytesLE want.toNat 8)])
    else .next s
  | [] => .next s

end Sys2Proof.Machine
end

