-- ==== Sys2Proof/Machine/Rewind.lean ====
section
/-! DEFINITION. Faults found by codes and pairs, HALT frames, the local rewind, resumption, job-fatal stops and
module-fatal errors (spec/16). -/

namespace Sys2Proof.Machine

/-! ### LEAD, target and RESUME (R452) -/

/-- LEAD in beats at the operating point in force. -/
def State.lead (s : State) : Nat :=
  if s.ranks.jobSize = 1#32 then beatsOfUs s.clock.opNow.toNat 3 1
  else beatsOfUs s.clock.opNow.toNat (2100 + 35 * (s.shp.jobDiameter.toNat - 24)) 100

/-- HALT frames of the rewind under way. -/
def State.rewindFrames (s : State) : List HaltFrame := s.integ.frames.filter fun f => !f.stop

/-- TP: the smallest program beat among the frames' targets. -/
def State.targetBeat (s : State) : Nat :=
  match s.rewindFrames with
  | [] => 0
  | f :: fs => fs.foldl (fun m f => min m (f.target - f.omega)) (f.target - f.omega)

/-- The snapshot taken at the target: the newest that is not after it, else the oldest that is kept. -/
def State.targetSnap (s : State) : Option Snapshot :=
  match s.snaps.find? fun x => decide (x.beat ≤ s.targetBeat) with
  | some x => some x
  | none => s.snaps.getLast?

/-- The smallest beat from `b` on that lies a multiple of 3,456 beats after `tp`. -/
def alignResume (tp b : Nat) : Nat := tp + roundUp (b - tp) 3456

def State.resumeBeat (s : State) (tp : Nat) : Nat :=
  alignResume tp ((s.rewindFrames.map fun f => f.raise + s.lead).foldl max 0)

/-! ### Restoring cores (Table 16.5, R453, R546) -/

def shiftAll (d : Nat) (m : SMap Nat) : SMap Nat := m.map fun e => (e.1, e.2 + d)

def MTimes.shift (t : MTimes) (d : Nat) : MTimes :=
  { loadFree := t.loadFree + d, slotReady0 := t.slotReady0 + d, slotReady1 := t.slotReady1 + d,
    slotAcc0 := t.slotAcc0 + d, slotAcc1 := t.slotAcc1 + d, arrayFree := t.arrayFree + d, lastAcc := t.lastAcc,
    bankWritten := shiftAll d t.bankWritten, bankRead := shiftAll d t.bankRead, drainFree := t.drainFree + d,
    readsDone := t.readsDone + d, busyUntil := t.busyUntil + d }

def VTimes.shift (t : VTimes) (d : Nat) : VTimes :=
  { ready := shiftAll d t.ready, readyClr := shiftAll d t.readyClr, unitFree := shiftAll d t.unitFree,
    readsDone := t.readsDone + d, storesDone := t.storesDone + d,
    tldDone := shiftAll d t.tldDone, busyUntil := t.busyUntil + d }

/-- The beat at which a restored hold on a bell is met: RESUME, where the restored count meets it. A count whose pair fails
is not used (R225). -/
def State.metAt (s : State) (t : Nat) (bell : BitVec 13) (target : BitVec 48) (resume : Nat) : Option Nat :=
  let p := s.bell t bell.toNat
  if p.ok && bellMet p.count target then some resume else none

/-- A matrix core restored from a snapshot; `s` has the restored bells. -/
def State.restoreMatrix (s : State) (c : Nat) (cur snap : MCore) (d resume : Nat) : MCore :=
  { snap with
    slot0 := cur.slot0, slot1 := cur.slot1, banks := cur.banks, waitCount := cur.waitCount,
    nextIssue := snap.nextIssue + d, times := snap.times.shift d,
    keysNext := snap.keysNext.map fun e => (e.1 + d, e.2), drainWait := none, pieces := [], signals := [],
    hold := match snap.hold with
      | .free => .free
      | .bell b target _ _ => .bell b target resume (s.metAt (c / 96) b target resume)
      | .entry shape _ => .entry shape resume }

def State.restoreVector (s : State) (h : Nat) (cur snap : VCore) (d resume : Nat) : VCore :=
  { snap with
    v := cur.v, es := cur.es, nextIssue := snap.nextIssue + d, times := snap.times.shift d, signals := [],
    hold := match snap.hold with
      | .free => .free
      | .bell b target _ _ => .bell b target resume (s.metAt (hallTower h) b target resume)
      | .entry shape _ => .entry shape resume
      | .pace u => .pace (u + d)
      | .post p _ => .post p resume
      | .desc p _ => .desc p resume
      | .queue q _ => .queue q resume }

def State.restoreCores (s : State) (x : Snapshot) (d resume : Nat) : State :=
  let mc := (List.range 384).foldl (fun m c =>
    SMap.set MCore.idle m c (s.restoreMatrix c (s.mcore c) (SMap.get MCore.idle x.mc c) d resume)) []
  let vc := (List.range 192).foldl (fun m h =>
    SMap.set VCore.idle m h (s.restoreVector h (s.vcore h) (SMap.get VCore.idle x.vc h) d resume)) []
  let ftq := SMap.mapV Ftq.empty x.ftq fun q =>
    { q with entries := [], seenAt := q.seenAt + d, releases := q.releases.map (· + d) }
  { s with mc := mc, vc := vc, ftq := ftq }

/-! ### Restoring the rest -/

/-- Step 1 of R453: queues, staging, stages, post inputs, labels and every job-class flit that waits are gone, and with
them every hold count. Pass-along frames are the loader's (R420). -/
def Port.empty (p : Port) : Port :=
  { p with
    txLabels := [], rxLabels := [],
    outq := p.outq.filter fun f => f.cls == clsMgt || (f.type == typeSingle && singleKind f.payload == 6#8) }

def State.emptyPort (s : State) (n : Nat) : State :=
  let p := s.port n
  let gone := p.outq.filter fun f => !(p.empty.outq.contains f)
  gone.foldl (fun s f => s.freeCredit f.from_) (s.setPort n p.empty)

def State.emptyAll (s : State) : State :=
  let s := (List.range 32).foldl (fun s n => s.emptyPort n) s
  let active : Option ActiveLoad := s.loader.active.map fun a =>
    { a with writing := [], shards := a.shards.map fun e => (e.1, { e.2 with handed := e.2.units }) }
  { s with
    ld := { s.ld with runs := [] },
    por := { s.por with
      porters := SMap.mapV Porter.idle s.por.porters fun p => { Porter.idle with tag := p.tag },
      inbound := [], inboundSignals := [], landBeat := 0, landCount := 0 },
    pb := { s.pb with flights := [], returns := [], stages := [] },
    cel := { s.cel with ctl := SMap.mapV Stack.reset s.cel.ctl fun x => { x with arriving := [], streams := [] } },
    ranks := { s.ranks with contexts := 0, acks := [] },
    loader := { s.loader with active := active } }

/-- Step 2 (R446): entries that fail their checks are written anew from the master copies. -/
def State.repairEntries (s : State) : State :=
  { s with
    ld := { s.ld with handles := s.ld.handles.map fun e =>
      if e.2.ok then e
      else (e.1, ⟨Pair64.of (SMap.get (0#64, 0#64) s.ld.master e.1).1, Pair64.of (SMap.get (0#64, 0#64) s.ld.master e.1).2⟩) },
    ranks := { s.ranks with signposts := s.ranks.signposts.map fun e =>
      if e.2.ok then e else (e.1, Pair64.of (SMap.get 0#64 s.ranks.master e.1)) } }

/-- Controllers: the state of R182. -/
def Stack.restore (cur snap : Stack) : Stack :=
  { cur with arriving := [], streams := [], unitNext := snap.unitNext, bankNext := snap.bankNext,
             unitDir := snap.unitDir, last := snap.last }

def Post.restore (p : Post) (d : Nat) : Post :=
  { p with waiting := [], freeAt := p.freeAt + d, headAt := p.headAt + d,
           slots := p.slots.map fun x => { x with visible := x.visible + d } }

/-- A slot of an adapter handle: the snapshot's state, but a load in progress and a load that has ended since stay as they
are (Table 16.5 keeps loader progress outside the snapshot). -/
def slotState (snap cur : BitVec 2) : BitVec 2 :=
  if cur = adapterLoading then adapterLoading
  else if snap = adapterReady ∨ cur = adapterReady then adapterReady
  else adapterEmpty

def Adapter.restore (snap cur : Adapter) : Adapter :=
  let x : Adapter := { snap with st0 := slotState snap.st0 cur.st0, st1 := slotState snap.st1 cur.st1,
                                 queued := cur.queued, loc := cur.loc }
  let idle := !snap.active
  { x with fresh := snap.fresh || cur.fresh || (x.st idle == adapterReady && snap.st idle != adapterReady) }

def Gens.restore (snap cur : Gens) : Gens :=
  { snap with adapters := (List.range 512).foldl (fun m a =>
      SMap.set Adapter.empty m a ((SMap.get Adapter.empty snap.adapters a).restore (SMap.get Adapter.empty cur.adapters a))) [] }

/-- A decided launch after the target is to be performed again; its records are sent again from its decision on (R385). -/
def Decision.replay (d : Decision) (tp : Nat) (leadZero : Bool) : Decision :=
  if d.at_ ≤ tp then d else { d with done := false, sent := leadZero || decide (d.decidedAt < tp) }

def State.restoreDesk (s : State) (x : Snapshot) : State :=
  let tp := x.beat
  let z := s.leadZero
  let inbox := s.desk.inbox.map fun r =>
    match r.applied with
    | some q => if tp < q then { r with applied := none } else r
    | none => r
  let switched := match s.loader.switched with
    | some q => if tp < q then none else some q
    | none => none
  { s with
    desk := { s.desk with
      tab := x.table, reckoners := x.reckoners, late := [], inbox := inbox,
      decided := s.desk.decided.map fun d => d.replay tp z,
      releases := s.desk.releases.filter fun r => decide (r.beat ≤ tp) },
    loader := { s.loader with
      gens := x.gens.restore s.loader.gens, switched := switched,
      barrierState := if s.loader.barrier && x.table.stepOpen then 1#8 else s.loader.barrierState } }

/-- Step 3: restore a snapshot under a new Ω. -/
def State.restoreSnap (s : State) (x : Snapshot) (resume : Nat) : State :=
  let omega := resume - x.beat
  let d := omega - x.omega
  let announced := s.clock.announced.map fun a => (a.1, a.2 + omega - s.integ.jobOffset)
  let s : State := { s with
    pb := { s.pb with bells := x.bells, posts := SMap.mapV Post.empty x.posts fun p => p.restore d,
                      stages := x.seqs.map fun e => (e.1, { Stage.empty with seq := e.2 }) },
    cel := { s.cel with ctl := (List.range 24).foldl (fun m k =>
      SMap.set Stack.reset m k ((s.stack k).restore (SMap.get Stack.reset x.cellar k))) [] },
    clock := { s.clock with announced := announced },
    job := { s.job with
      launches := x.launch.launches, lastLaunchBeat := x.launch.lastBeat, lastShape := x.launch.lastShape,
      stepRunning := x.launch.step, nextCommit := x.launch.nextCommit, commitDue := none },
    integ := { s.integ with
      jobOffset := omega, lastCommit := resume, lastResume := resume, ledgerAcc := x.ledgerAcc,
      ledgerTouched := x.ledgerTouched, unconfirmed := s.integ.unconfirmed.filter fun e => decide (e.2 ≤ x.beat) },
    snaps := s.snaps.filter fun y => decide (y.beat ≤ x.beat) }
  let s := (s.restoreCores x d resume).restoreDesk x
  if s.desk.role = 1#8 ∧ x.table.stepOpen ∧ x.table.launchAt = x.beat then
    match x.launch.step with
    | some (_, q) => s.handMap q
    | none => s
  else s

/-- The local rewind of R453. A member that keeps no snapshot cannot go back: job-fatal, cause 5. -/
def State.localRewind (s : State) : State :=
  if s.rewindFrames = [] ∨ s.integ.window.isSome ∨ s.integ.fatalState ≠ 0#8 ∨ s.job.loadState ≠ 5#8 then s
  else
    let s := s.emptyAll.repairEntries
    match s.targetSnap with
    | none => s.raiseIntegrity .jobFatal 0 5 15 0 211
    | some x => s.restoreSnap x (s.resumeBeat x.beat)

/-! ### Faults that codes and pairs find (R445 to R448, R450) -/

/-- The code of Table 16.10 names a memory or a pair that a kind of finding can concern. -/
def foundSensible (f : Found) : Bool :=
  let w := f.place.toNat
  match f.kind with
  | .corrected => [1, 3, 5, 7, 8, 9, 15, 16, 17].contains w
  | .uncorrectable => decide (7 ≤ w ∧ w ≤ 9) || w == 15 || w == 17 || w == 1 || w == 3 || w == 5
  | .parity => decide (10 ≤ w ∧ w ≤ 14)
  | .pair => decide (1 ≤ w ∧ w ≤ 6) || w == 15

/-- A corrected read only counts (7012). -/
def State.countCorrected (s : State) (f : Found) : State :=
  let t := f.tower.val
  match f.place.toNat with
  | 7 => { s with integ := { s.integ with pantryCorrected := bump s.integ.pantryCorrected t 1 } }
  | 8 => { s with integ := { s.integ with larderCorrected := bump s.integ.larderCorrected t 1 } }
  | _ => { s with integ := { s.integ with otherCorrected := bump s.integ.otherCorrected t 1 } }

/-- A read or pair that still fails at the local rewind: stored error, or failed master copy. -/
def State.failAgain (s : State) (f : Found) : State :=
  let w := f.place.toNat
  if f.kind = .uncorrectable ∧ (w = 7 ∨ w = 8) then
    s.raiseIntegrity .jobFatal f.tower.val 3 w f.index.toNat 211
  else if f.kind = .pair ∧ (w = 1 ∨ w = 2) then s.raiseIntegrity .jobFatal f.tower.val 6 w f.index.toNat 211
  else s

def foundCause (f : Found) : Nat :=
  if f.place = 15#5 then 5
  else match f.kind with
    | .pair => 1
    | .parity => 4
    | _ => 2

/-- A finding: a corrected read counts; anything else is raised. The snapshot store is job-fatal; all else is a
contained transient fault, after which the member has halted and rewinds. With no program running, a Milestone pair
that fails starts locking anew (Table 16.3). -/
def execFaultRaise (found : Found) (s : State) : Res :=
  if !(foundSensible found) then .next s
  else if found.kind = .corrected then .next (s.countCorrected found)
  else
    let cls := if found.place = 15#5 then ErrClass.jobFatal else ErrClass.transient
    let s := if found.kind = .uncorrectable ∧ (found.place = 7#5 ∨ found.place = 8#5) then
        { s with integ := { s.integ with
          failedReads := s.integ.failedReads ++ [(found.place.toNat, found.tower.val, found.index.toNat)] } }
      else s
    let s := s.raiseIntegrity cls found.tower.val (foundCause found) found.place.toNat found.index.toNat found.agent.toNat
    if s.job.loadState ≠ 5#8 then
      if found.kind = .pair ∧ found.place = 6#5 then
        .next { s with shp := { s.shp with timeState := 1#2, goodExchanges := 0, stepped := false } }
      else .next s
    else if found.again ∧ s.integ.window.isNone ∧ s.rewindFrames ≠ [] then .next (s.emptyAll.failAgain found)
    else .next s.localRewind

/-! ### HALT frames (R450 to R454) -/

/-- The frame of a received HALT. -/
def haltFrame (f : Flit) : HaltFrame := haltOf (singleBody f.payload)

/-- Take the first waiting HALT of a kind: its port and flit, and the state without it. -/
def State.takeHalt (s : State) (stop : Bool) : Option (Nat × Flit × State) :=
  match s.ranks.halts.find? fun e => (haltFrame e.2).stop == stop with
  | none => none
  | some e => some (e.1, e.2, { s with ranks := { s.ranks with halts := s.ranks.halts.erase e } })

def State.hasSeen (s : State) (f : HaltFrame) : Bool := s.integ.seen.contains (f.raiser, f.error)

/-- The member begins a rewind, or a restarted one, for a frame that it has received. -/
def State.beginRewind (s : State) (f : HaltFrame) : State :=
  if !s.integ.halted || f.restart then
    { s with
      shp := { s.shp with resynced := false },
      integ := { s.integ with
        rewinds := s.integ.rewinds + 1#32, rewindWalls := s.integ.rewindWalls ++ [s.wall], faulted := true,
        faultBeat := if s.integ.interruptionOpen then s.integ.faultBeat else f.raise - f.omega,
        faultWall := if s.integ.interruptionOpen then s.integ.faultWall else s.wall, interruptionOpen := true } }
  else s

/-- A received HALT of a rewind: it goes on to the other ports, the member halts, and rewinds. `again`: a word whose
read failed here still fails. -/
def execHalt (again : Bool) (s : State) : Res :=
  match s.takeHalt false with
  | none => .next s
  | some (p, x, s) =>
    let f := haltFrame x
    if s.hasSeen f then .next s
    else
      let s := s.passHalt p x
      if s.job.loadState ≠ 5#8 ∨ s.integ.fatalState ≠ 0#8 then
        .next { s with integ := { s.integ with seen := s.integ.seen ++ [(f.raiser, f.error)] } }
      else
        let restart := s.integ.halted
        let s := (s.beginRewind f).haltWith f
        let s := if restart then s else s.catchUp
        match again, s.integ.failedReads with
        | true, (w, t, i) :: _ => .next (s.emptyAll.raiseIntegrity .jobFatal t 3 w i 211)
        | _, _ => .next s.localRewind

/-- The interruption in microseconds, Q16.16 (R456). -/
def State.interruption (s : State) (tp : Nat) : BitVec 32 :=
  let w := s.wall + s.wallOf (s.integ.faultBeat - tp) - s.integ.faultWall
  BitVec.ofNat 32 (min (w * 65536 / wallOfUs 1) (2 ^ 31 - 1))

/-- RESUME has come: the member goes on from the restored state. -/
def execRewindResume (s : State) : Res :=
  if s.integ.halted = false ∨ s.rewindFrames = [] ∨ s.integ.window.isSome ∨ s.integ.fatalState ≠ 0#8
      ∨ s.job.loadState ≠ 5#8 then .next s
  else
    let s := s.localRewind
    if s.integ.window.isSome then .next s
    else
      let s := s.toBeat s.integ.lastResume
      .next { s with integ := { s.integ with
        halted := false, faulted := false, frames := [], failedReads := [], interruptionOpen := false,
        lastInterruptionUs := s.interruption (s.integ.lastResume - s.integ.jobOffset) } }

/-! ### Job-fatal stops (R442, R549) -/

/-- The member has halted for a job-fatal error: LOAD_STATE becomes 8, the handling window ends, and every operation in
progress but an unload fails. An unload that waited for the step now runs at once, since it always completes (R259). -/
def execJobFatalStop (s : State) : Res :=
  match s.integ.window with
  | none => .next s
  | some _ =>
    let s := ({ s with
      job := { s.job with loadState := 8#8 },
      integ := { s.integ with window := none, failedReads := [], interruptionOpen := false } } : State).failOwed
    .next (if s.job.unloadPending then s.stopJob else s)

/-- A received job-stop HALT stops the member too; within the handling window a further one is no error. -/
def execJobStopReceive (s : State) : Res :=
  match s.takeHalt true with
  | none => .next s
  | some (p, x, s) =>
    let f := haltFrame x
    if s.hasSeen f then .next s
    else
      let s := s.passHalt p x
      if !s.jobActive || s.integ.fatalState != 0#8 then
        .next { s with integ := { s.integ with seen := s.integ.seen ++ [(f.raiser, f.error)] } }
      else
        let s := s.haltWith f
        let window := match s.integ.window with | some n => some n | none => some f.error
        .next { s with integ := { s.integ with window := window, faulted := true } }

/-! ### Module-fatal errors (R443) -/

/-- A word of the Steward's memory is uncorrectable. -/
def execModuleFatal (index : BitVec 24) (s : State) : Res :=
  .next (s.raiseIntegrity .moduleFatal 0 7 16 index.toNat 211)

end Sys2Proof.Machine
end

