-- ==== Sys2Proof/Machine/Steward.lean ====
section
/-! DEFINITION. The Steward's management frames, members' answers at the desk rank, and the COMPLETEs of pending writes
(spec/12 R352, spec/17 R485 to R491, R549). -/

namespace Sys2Proof.Machine

/-! ### A dictionary message in an Eothar frame (R475, R489) -/

def msgInst (b : BitVec 960) : BitVec 16 := b.extractLsb' 48 16
def msgIndex (b : BitVec 960) : BitVec 16 := b.extractLsb' 32 16
def msgSub (b : BitVec 960) : BitVec 8 := b.extractLsb' 24 8
def msgOpcode (b : BitVec 960) : BitVec 8 := b.extractLsb' 16 8
def msgStatus (b : BitVec 960) : BitVec 8 := b.extractLsb' 8 8
def msgTag (b : BitVec 960) : BitVec 16 := b.extractLsb' 112 16
def msgType (b : BitVec 960) : BitVec 8 := b.extractLsb' 104 8
def msgLength (b : BitVec 960) : BitVec 16 := b.extractLsb' 88 16
def msgOffset (b : BitVec 960) : BitVec 24 := b.extractLsb' 64 24

/-- The message as a byte string: header, and the value that a request other than READ and INFO carries. -/
def msgBytes (b : BitVec 960) : List Byte :=
  let n := if msgOpcode b = 1#8 ∨ msgOpcode b = 3#8 then 0 else min 104 (msgLength b).toNat
  (bytesLE b.toNat 16) ++ pad8 (bytesLE (b.toNat / 2 ^ 128) n)

/-- The opcode is one that modules send (Table 17.5). -/
def fromModule (opcode : BitVec 8) : Bool := decide (0x80 ≤ opcode.toNat) && decide (opcode.toNat ≤ 0x84)

/-! ### Members' answers at the desk rank (R490, R491) -/

/-- A member has answered: the lowest-ranked refusal is kept. -/
def FanOut.answer (f : FanOut) (rank : BitVec 16) (status : BitVec 8) : FanOut :=
  let bad := status != stOk && status != stPending
  { f with
    waiting := f.waiting.filter fun r => r != rank,
    refused :=
      if !bad then f.refused
      else
        match f.refused with
        | some (r, st) => if rank.toNat < r.toNat then some (rank, status) else some (r, st)
        | none => some (rank, status) }

/-- The write that a fan-out serves is answered: PENDING, and a SWITCH is accepted with it; or with the refusal of a member,
whose rank the value holds, and no COMPLETE is then owed. -/
def State.endFan (s : State) (f : FanOut) : State :=
  match f.refused with
  | none =>
    let s := if f.index = 0x6010#16 ∧ f.sub = 3#8 then s.acceptSwitch else s
    s.sendReply (writeReply f.index.toNat f.sub.toNat f.req stPending none)
  | some (rank, status) =>
    let owed := s.dict.owed.filter fun o => !(o.path == f.req.path && o.tag == f.req.tag && o.index == f.index && o.sub == f.sub)
    let r := writeReply f.index.toNat f.sub.toNat f.req status none
    ({ s with dict := { s.dict with owed := owed } } : State).sendReply { r with
      length := 2#16, value := bytesLE rank.toNat 2 }

/-- A reply to a request that this member has sent. -/
def State.memberAnswered (s : State) (rank : BitVec 16) (b : BitVec 960) : State :=
  let tag := msgTag b
  if s.dict.asked.any fun a => a.rank == rank && a.tag == tag then
    let fans := s.dict.fans.map fun f => if f.tag == tag then f.answer rank (msgStatus b) else f
    let ended := fans.filter fun f => f.waiting == []
    let s : State := { s with dict := { s.dict with
      asked := s.dict.asked.filter fun a => !(a.rank == rank && a.tag == tag),
      fans := fans.filter fun f => f.waiting != [] } }
    ended.foldl (fun s f => s.endFan f) s
  else s

/-! ### Taking management frames (R352) -/

/-- A DICT frame: a request is kept to be served, or answered BUSY where 64 are held; a module's message is taken. -/
def State.takeDict (s : State) (rank : BitVec 16) (b : BitVec 960) : State :=
  if fromModule (msgOpcode b) then (if msgOpcode b = 0x84#8 then s else s.memberAnswered rank b)
  else
    let path := DictPath.eothar rank
    let m := msgBytes b
    if s.full path m then
      let op := if 1 ≤ (msgOpcode b).toNat ∧ (msgOpcode b).toNat ≤ 3 then msgOpcode b + 0x80#8 else 0x80#8
      s.sendReply ⟨path, msgInst b, msgIndex b, msgSub b, op, stBusy, msgTag b,
        rowType (msgIndex b).toNat (msgSub b).toNat, 0#16, msgOffset b, []⟩
    else { s with dict := { s.dict with waiting := s.dict.waiting ++ [(path, m)] } }

/-- The Steward takes the oldest management frame of a port's buffers, whose credit is freed. -/
def execStewardMgtTake (port : PortId) (s : State) : Res :=
  let n := port.val
  let p := s.port n
  match p.mgt with
  | [] => .next s
  | f :: rest =>
    let s := (s.setPort n { p with mgt := rest }).freeCredit (some (n, bufferOf clsMgt f.vc))
    if mtype f.payload = 4#8 then .next (s.takeDict (singleSrank f.payload) f.body)
    else .next (s.setInbox (s.shp.inbox ++ [(n, f)]))

/-- The desk rank repeats, with the same TAG, the request that has waited longest: at 10 ms. -/
def execEotharDictRepeat (s : State) : Res :=
  match s.dict.asked with
  | [] => .next s
  | a :: rest =>
    let s := s.toWall (a.since + wallOfUs 10000)
    let s : State := { s with dict := { s.dict with asked := rest ++ [{ a with since := s.wall }] } }
    .next (s.sendSingle clsMgt 5#8 a.rank a.message)

/-! ### COMPLETE (R486, Tables 17.9 and 17.11) -/

/-- The object that records the outcome. -/
def completeRecord (index sub : Nat) (ok : Bool) : Nat × Nat :=
  match 256 * index + sub with
  | 0xA01001 => (0xA010, 3)
  | 0xA01004 => (0xA010, 2)
  | 0x414001 => (0x4140, 2)
  | 0x423003 => (0x4230, 4)
  | 0x422008 => (0x4220, 4)
  | 0x402002 => (0x4030, 1)
  | 0x601001 => (0x6011, if ok then 1 else 2)
  | 0x601003 => (0x6012, 4)
  | 0x601004 => (0x6012, 5)
  | 0x604001 => (0x6040, 2)
  | 0x213001 => (0x2130, 2)
  | 0x214001 => (0x1020, 1)
  | _ => (index, sub)

/-- Table 17.9. -/
def completeWord (ok : Bool) (index sub : Nat) : W64 :=
  (if ok then 0#8 else 1#8) ++ BitVec.ofNat 16 index ++ BitVec.ofNat 8 sub ++ 0#32

/-- The path that brought the request is up. -/
def State.pathUp (s : State) (path : DictPath) : Bool :=
  match path with
  | .kloder => s.kl.up
  | .i3c => s.i3c.address != 0#8
  | .eothar r =>
    match s.routeRank s.ranks.myRank r 0#16 with
    | .port p => (s.port p).up
    | _ => false

/-- The COMPLETE of a write whose operation has ended, or nothing where its path is down. -/
def State.sendComplete (s : State) (o : Owed) (ok : Bool) : State :=
  let r := completeRecord o.index.toNat o.sub.toNat ok
  if s.pathUp o.path then
    s.sendReply ⟨o.path, o.inst, o.index, o.sub, 0x84#8, stOk, o.tag, rowType o.index.toNat o.sub.toNat, 8#16, 0#24,
      bytesLE (completeWord ok r.1 r.2).toNat 8⟩
  else s

/-- The write has been answered PENDING: no member's answer is awaited. -/
def State.answered (s : State) (o : Owed) : Bool :=
  !s.dict.fans.any fun f => f.req.path == o.path && f.req.tag == o.tag && f.index == o.index && f.sub == o.sub

/-- The write of TIME_LOCK that waits for LOCKED. -/
def Owed.locks (o : Owed) : Bool := o.index == 0x4220#16 && o.sub == 8#8 && o.ended.isNone

/-- The oldest operation that has ended sends its COMPLETE. With none, a TIME_LOCK that has not led to LOCKED fails 50 ms
after its write. -/
def execComplete (s : State) : Res :=
  match s.dict.owed.find? fun o => o.ended.isSome && s.answered o with
  | some o =>
    let s : State := { s with dict := { s.dict with owed := s.dict.owed.erase o } }
    .next (s.sendComplete o ((o.ended.map (·.1)).getD false))
  | none =>
    match s.dict.owed.find? Owed.locks with
    | none => .next s
    | some _ =>
      let s := s.toWall (s.shp.lockAt + wallOfUs 50000)
      match s.dict.owed.find? Owed.locks with
      | none => .next s
      | some o =>
        let s : State := { s with dict := { s.dict with owed := s.dict.owed.erase o } }
        .next (s.sendComplete o false)

end Sys2Proof.Machine
end

