-- ==== Sys2Proof/Machine/Kloder.lean ====
section
/-! DEFINITION. The Kloder link: frames received, replay, INIT exchanges, lost groups, events and the outbound queue
(spec/18). -/

namespace Sys2Proof.Machine

/-! ### Events (R508, R545) -/

/-- An event record (Table 18.7). -/
def eventRecord (seq : BitVec 32) (code : BitVec 16) (beat : W64) (body : List Byte) : List Byte :=
  let e0 : W64 := seq ++ code ++ BitVec.ofNat 16 body.length
  bytesLE e0.toNat 8 ++ bytesLE beat.toNat 8 ++ body

/-- Channel `c` may begin a record now (R498, R499). -/
def State.kMayBegin (s : State) (c : Nat) : Bool :=
  let x := s.chan c
  s.kl.up && x.outq == [] && decide (0 < x.credit) && decide (x.replay.length < 256)

/-- SEQ of the last frame of a record that channel `c` begins now. -/
def State.lastSeqOf (s : State) (c : Nat) (bs : List Byte) : BitVec 32 :=
  (s.chan c).nextSeq + BitVec.ofNat 32 ((kChunks (pad8 bs) (bs.length / 1040 + 2)).length - 1)

/-- Send logged events that have not been sent, in EVSEQ order; events discarded before are reported first. The EVSEQ of an
EVENTS_LOST record is not stated. -/
def State.sendEvents (s : State) : Nat → State
  | 0 => s
  | n + 1 =>
    if !s.kMayBegin chEvent then s
    else
      match s.integ.events.find? fun e => !(s.kl.eventSeq.any fun q => q.1 == e.seq) with
      | none => s
      | some e =>
        if s.kl.lostUnsent ≠ 0 then
          let d := s.draw
          let bs := eventRecord (d.2.setWidth 32) 0x0E#16 (BitVec.ofNat 64 s.milestone) (bytesLE s.kl.lostUnsent 8)
          let s := d.1
          (({ s with kl := { s.kl with lostUnsent := 0 } } : State).kRecord chEvent bs).sendEvents n
        else
          let bs := eventRecord e.seq e.code e.beat e.body
          let q := (e.seq, s.lastSeqOf chEvent bs)
          (({ s with kl := { s.kl with eventSeq := s.kl.eventSeq ++ [q] } } : State).kRecord chEvent bs).sendEvents n

def State.pumpEvents (s : State) : State := s.sendEvents (2 * s.integ.events.length + 1)

/-- The Steward gives the oldest event its number, logs it, discarding the oldest of 1,024 if need be, and sends what may
leave. Before bring-up has ended none is numbered. -/
def execEvent (s : State) : Res :=
  match s.integ.raised with
  | [] => .next s
  | (code, beat, body) :: rest =>
    if s.boot.phase ≠ .ready then .next s
    else
      let g := s.integ
      let full := decide (1024 ≤ g.events.length)
      let gone := if full then g.events.head?.map (·.seq) else none
      let kept := if full then g.events.tail else g.events
      let s : State := { s with
        integ := { g with
          raised := rest, eventNext := g.eventNext + 1, events := kept ++ [⟨g.eventNext, code, beat, body⟩],
          eventsLost := if full then g.eventsLost + 1 else g.eventsLost },
        kl := { s.kl with
          eventSeq := s.kl.eventSeq.filter fun q => gone != some q.1,
          lostUnsent := if full then s.kl.lostUnsent + 1 else s.kl.lostUnsent } }
      .next s.pumpEvents

/-! ### The outbound queue (R506) -/

def OutRec.channel (r : OutRec) : Nat := if r.token then chToken else chSubmit

/-- The queue with its first unsent record marked as sent with a SEQ. -/
def markSent (q : BitVec 32) : List OutRec → List OutRec
  | [] => []
  | r :: rs => if r.seq.isNone then { r with seq := some q } :: rs else r :: markSent q rs

/-- The oldest record that has not left leaves on its channel, if the channel may send. -/
def execOutboundSend (s : State) : Res :=
  match s.kl.outQueue.find? fun r => r.seq.isNone with
  | none => .next s
  | some r =>
    let c := r.channel
    if s.kMayBegin c then
      let q := s.lastSeqOf c r.bytes
      .next (({ s with kl := { s.kl with outQueue := markSent q s.kl.outQueue } } : State).kRecord c r.bytes)
    else .next s

/-! ### Acknowledgement and replay (R499, R501) -/

/-- An ASEQ passes a SEQ that is at most 256 frames behind it. -/
def kPasses (aseq seq : BitVec 32) : Bool :=
  let d := (aseq - seq).toNat
  decide (1 ≤ d) && decide (d ≤ 256)

/-- The peer expects `aseq` next on channel `c`: frames, queued records and events before it are released. -/
def State.kTakeAck (s : State) (c : Nat) (aseq : BitVec 32) : State :=
  let x := s.chan c
  let passed (q : Option (BitVec 32)) : Bool :=
    match q with
    | some q => kPasses aseq q
    | none => false
  let acked := if c = chEvent then s.kl.eventSeq.filter fun q => kPasses aseq q.2 else []
  let s := s.setChan c { x with replay := x.replay.filter fun r => !kPasses aseq (KFrame.seq r.frame) }
  { s with
    kl := { s.kl with
      outQueue := s.kl.outQueue.filter fun r => !(r.channel == c && passed r.seq),
      eventSeq := s.kl.eventSeq.filter fun q => !acked.contains q },
    integ := { s.integ with events := s.integ.events.filter fun e => !acked.any fun q => q.1 == e.seq } }

/-- A frame sent again, with what this end reports now. -/
def State.kRefresh (s : State) (f : KFrame) : KFrame :=
  let r := s.reportWords
  ⟨kHeader0 (KFrame.ch f) (KFrame.first f) (KFrame.last f) false (KFrame.len8 f) r.1 (KFrame.seq f),
    kHeader1 r.2.1 r.1 r.2.2, f.payload⟩

/-- Replay channel `c` from a SEQ, in order: one replay episode. -/
def State.kReplay (s : State) (c : Nat) (seq : BitVec 32) : State :=
  let x := s.chan c
  let later (r : KSent) : Bool := !kPasses seq (KFrame.seq r.frame)
  let late := x.replay.filter later
  if late = [] then s
  else
    let resend (r : KSent) : KSent := if later r = true then { r with times := r.times + 1, since := s.wall } else r
    let s := s.setChan c { x with replay := x.replay.map resend }
    let s := late.foldl (fun s r => (s.kEmit (s.kRefresh r.frame)).reported) s
    { s with kl := { s.kl with replays := s.kl.replays + 1 } }

/-- A NAK for channel `c`: everything before the SEQ has arrived, and the rest is replayed before any new frame. -/
def State.kNaked (s : State) (c : Nat) (seq : BitVec 32) : State :=
  let s := (s.kTakeAck c seq).kReplay c seq
  (s.kPump c ((s.chan c).outq.length + 1)).pumpEvents

/-- A CTRL frame with NAK arrives. -/
def execKloderNak (channel : KloderChannel) (seq : BitVec 32) (s : State) : Res :=
  if s.kl.up then .next (s.kNaked channel.val seq) else .next s

/-- The oldest unacknowledged frame of a channel has waited 10 µs. -/
def execKloderReplayTimeout (channel : KloderChannel) (s : State) : Res :=
  match (s.chan channel.val).replay with
  | [] => .next s
  | r :: _ =>
    if s.kl.up then .next ((s.toWall (r.since + wallOfUs 10)).kReplay channel.val (KFrame.seq r.frame)) else .next s

/-- A NAK has led to no acceptance for 2 µs: another is sent. -/
def execKloderNakRepeat (channel : KloderChannel) (s : State) : Res :=
  let x := s.chan channel.val
  match x.nak with
  | none => .next s
  | some (q, since) =>
    if s.kl.up ∧ q = x.expect then
      let s := s.toWall (since + wallOfUs 2)
      .next ((s.setChan channel.val { x with nak := some (q, s.wall) }).kCtrl true channel.val)
    else .next s

/-- The link goes down and trains again. -/
def State.kDown (s : State) : State :=
  { s with kl := { s.kl with
      up := false, lock := false, retraining := true,
      linkDowns := if s.kl.up then s.kl.linkDowns + 1 else s.kl.linkDowns } }

/-- One SEQ has been sent 16 times. -/
def execKloderRetrain (s : State) : Res :=
  if s.kl.up ∧ ((List.range 5).any fun c => (s.chan c).replay.any fun r => decide (16 ≤ r.times)) then .next s.kDown
  else .next s

/-- An FEC group is lost, A (false) or B: the link runs on the other, or goes down. -/
def execKloderGroupLoss (group : Bool) (s : State) : Res :=
  let k := s.kl
  let mask : BitVec 2 := if group then 1#2 else 2#2
  if k.groups &&& ~~~mask = 0#2 then .next s
  else
    let left := k.groups &&& mask
    let s : State := { s with kl := { k with
      groups := left, retraining := true, lanesOk := k.lanesOk &&& (if group then 0x0F#8 else 0xF0#8) } }
    .next (if left = 0#2 then s.kDown else s)

/-! ### Receiving (R497, R500) -/

/-- The CRC of a frame as it arrived (R306). -/
def frameCrc (f : KloderFrame) : BitVec 32 := crc32c (bytesLE f.h0.toNat 8 ++ bytesLE f.h1.toNat 8 ++ f.payload)

def KFrame.ofWire (f : KloderFrame) : KFrame := ⟨f.h0, f.h1, f.payload⟩

/-- The frame passes its checks: CRC, a channel of Table 18.2, and its length. -/
def frameOk (f : KloderFrame) : Bool :=
  let k := KFrame.ofWire f
  f.crc == frameCrc f && (decide (k.ch.toNat ≤ 4) || k.ch == 15#4) && decide (k.len8 ≤ 130)
    && f.payload.length == 8 * k.len8

/-- Frames accepted on a channel whose data is not yet written: segments of BULK, which are acknowledged only then (R505). -/
def State.unwritten (s : State) (c : Nat) : Nat := if c = chBulk then s.kl.segments.length else 0

/-- What an accepted frame carries: a dictionary request, a record of SUBMIT, or a segment. TOKEN and EVENT carry nothing to
the module. -/
def State.kDeliver (s : State) (c : Nat) (k : KFrame) : State :=
  let x := s.chan c
  let bs := (if k.first then [] else x.partial_) ++ k.payload
  if c = chDict then { s with dict := { s.dict with waiting := s.dict.waiting ++ [(.kloder, k.payload)] } }
  else if c = chSubmit then
    let s := s.setChan c { x with partial_ := if k.last then [] else bs }
    if k.last then { s with kl := { s.kl with submits := s.kl.submits ++ [bs] } } else s
  else if c = chBulk then { s with kl := { s.kl with segments := s.kl.segments ++ [k.payload] } }
  else s

/-- Accept, NAK or report (R500). -/
def State.kSequence (s : State) (c : Nat) (k : KFrame) : State :=
  let x := s.chan c
  let next := x.expect + BitVec.ofNat 32 (s.unwritten c)
  let ahead := (k.seq - next).toNat
  if ahead = 0 then
    if c = chBulk then (s.setChan c { x with nak := none }).kDeliver c k
    else ((s.setChan c { x with expect := x.expect + 1, nak := none, unreported := true }).kDeliver c k).kCtrl false c
  else if ahead ≤ 255 then
    if x.nak.isSome then s else (s.setChan c { x with nak := some (x.expect, s.wall) }).kCtrl true c
  else s.kCtrl false c

/-- CFREED of channel `c` from the peer; an older count changes nothing. -/
def State.kTakeFreed (s : State) (c : Nat) (freed : BitVec 28) : State :=
  let x := s.chan c
  if (freed - x.peerFreed).toNat < 2 ^ 27 then s.setChan c { x with peerFreed := freed } else s

/-- What a frame's header reports of the reverse direction. -/
def State.kReports (s : State) (k : KFrame) : State :=
  let a := k.ach.toNat
  let c := k.cch.toNat
  let s := if c ≤ 4 then s.kTakeFreed c k.cfreed else s
  if 4 < a then s else if k.nak then s.kNaked a k.aseq else s.kTakeAck a k.aseq

/-- Send what may leave on every channel. -/
def State.kPumpAll (s : State) : State :=
  ((List.range 5).foldl (fun s c => s.kPump c ((s.chan c).outq.length + 1)) s).pumpEvents

/-- A frame arrives: it is discarded when a check fails; else its reports are taken, and it is accepted, answered with a NAK,
or answered with this end's expected SEQ. -/
def execKloderFrameReceive (frame : KloderFrame) (fec : Fec) (s : State) : Res :=
  let k := KFrame.ofWire frame
  if !s.kl.up then .next s
  else
    let s : State := { s with kl := { s.kl with
      fecCorrected := if fec = .corrected then s.kl.fecCorrected + 1 else s.kl.fecCorrected,
      fecUncorrected := if fec = .uncorrectable then s.kl.fecUncorrected + 1 else s.kl.fecUncorrected } }
    if fec = .uncorrectable ∨ frameOk frame = false then
      .next { s with kl := { s.kl with crcFails := s.kl.crcFails + 1 } }
    else
      let s := s.kReports k
      .next ((if k.ch = 15#4 then s else s.kSequence k.ch.toNat k).kPumpAll)

/-! ### INIT (R502, R503, Table 18.4) -/

/-- Credits of a channel that this end grants now: those of Table 18.3 less what it holds. -/
def State.kGrant (s : State) (c : Nat) : Nat :=
  if c = chDict then 16 - (s.dict.waiting.filter fun e => e.1 == .kloder).length
  else if c = chSubmit then (if s.kl.submitGranted then 256 - (s.kl.submits.length + s.desk.inbox.length) else 0)
  else if c = chBulk then 1024 - s.kl.segments.length
  else 0

/-- Five halves packed as EXPECT is. -/
def packHalves (f : Nat → BitVec 32) : List W64 := [f 1 ++ f 0, f 3 ++ f 2, 0#32 ++ f 4]

/-- This end's INIT body. -/
def State.initBody (s : State) : List Byte :=
  wordsOf ([1#8 ++ 0#56, s.shp.bootNonce, s.kl.peerNonce] ++ packHalves (fun c => (s.chan c).expect)
    ++ packHalves fun c => BitVec.ofNat 32 (s.kGrant c))
where
  wordsOf (ws : List W64) : List Byte := ws.flatMap fun w => bytesLE w.toNat 8

def initWord (body : List Byte) (k : Nat) : W64 := BitVec.ofNat 64 (numLE ((body.drop (8 * k)).take 8))

/-- Half `c` of the packed words that begin at word `k`. -/
def initHalf (body : List Byte) (k c : Nat) : BitVec 32 := (initWord body (k + c / 2)).extractLsb' (32 * (c % 2)) 32

/-- Least credits that the adapter grants (R498). -/
def leastCredits : List Nat := [16, 64, 1024, 16, 64]

def creditsEnough (body : List Byte) : Bool :=
  (List.range 5).all fun c => decide (leastCredits.getD c 0 ≤ (initHalf body 6 c).toNat)

/-- This end's INIT is sent. -/
def State.sendInit (s : State) : State :=
  ({ s with kl := { s.kl with initSent := true } } : State).kEmit
    ⟨kHeader0 15#4 false false false 9 15#4 1#32, kHeader1 0#32 15#4 0#28, s.initBody⟩

/-- A fresh exchange: counts start at 0, replay buffers are empty, and the outbound queue and the logged events, none of which
the adapter has acknowledged, are sent again. Replies that wait are kept. -/
def State.kFresh (s : State) (body : List Byte) : State :=
  let s := (List.range 5).foldl (fun s c =>
    let x := s.chan c
    s.setChan c { KChan.reset with
      granted := initHalf body 6 c, outq := if c = chDict ∨ c = chBulk then x.outq else [] }) s
  { s with kl := { s.kl with
      outQueue := s.kl.outQueue.map fun r => { r with seq := none }, eventSeq := [], resumed := false } }

/-- A resumed exchange: every channel is replayed from the adapter's EXPECT. -/
def State.kResume (s : State) (body : List Byte) : State :=
  let s := (List.range 5).foldl (fun s c =>
    let q := initHalf body 3 c
    let s := (s.kTakeAck c q).kReplay c q
    let x := s.chan c
    s.setChan c { x with nak := none, replay := x.replay.map fun r => { r with times := 1 } }) s
  { s with kl := { s.kl with resumed := true } }

/-- The lanes have aligned, in the groups given, and the adapter's INIT has come: this end's INIT answers it, and the link is UP
where the adapter's is valid and grants enough. -/
def execKloderInit (groups : BitVec 2) (body : List (BitVec 8)) (s : State) : Res :=
  if groups = 0#2 ∨ s.answers = false then .next s
  else
    let nonce := initWord body 1
    let lanes : BitVec 8 := (if groups.getLsbD 0 then 0x0F#8 else 0#8) ||| (if groups.getLsbD 1 then 0xF0#8 else 0#8)
    let resume := nonce != 0#64 && nonce == s.kl.peerNonce && initWord body 2 == s.shp.bootNonce
    let valid := body.length == 72 && (initWord body 0).extractLsb' 48 16 == 0x0101#16 && nonce != 0#64
    let s : State := { s with kl := { s.kl with
      groups := groups, lanesOk := lanes, lock := true, retraining := groups != 3#2 } }
    let s := s.sendInit
    if !valid then .next s
    else if !creditsEnough body then .next { s with kl := { s.kl with peerNonce := nonce } }
    else
      let s : State := { s with kl := { s.kl with peerNonce := nonce, up := true } }
      .next (if resume then (s.kResume body).kPumpAll else (s.kFresh body).kPumpAll)

end Sys2Proof.Machine
end

