-- ==== Sys2Proof/Machine/Bulk.lean ====
section
/-! DEFINITION. BULK segments, the flash port's Writes and link, and inbound requests of a flash endpoint (spec/18 R504,
R505, spec/15 R414, R415). -/

namespace Sys2Proof.Machine

/-! ### Segments (Tables 18.5 and 18.6) -/

/-- Words S0 and S1, and the data. -/
def segS0 (g : List Byte) : W64 := BitVec.ofNat 64 (numLE (g.take 8))
def segS1 (g : List Byte) : W64 := BitVec.ofNat 64 (numLE ((g.drop 8).take 8))
def segKind (g : List Byte) : BitVec 4 := (segS0 g).extractLsb' 60 4
def segCtrl (g : List Byte) : Bool := (segS0 g).getLsbD 59
def segNsid (g : List Byte) : BitVec 32 := (segS0 g).extractLsb' 16 32
def segTag (g : List Byte) : BitVec 16 := (segS0 g).setWidth 16
def segOffset (g : List Byte) : Nat := (segS1 g).toNat
def segData (g : List Byte) : List Byte := g.drop 16

def resOk : BitVec 4 := 0#4
def resRange : BitVec 4 := 1#4
def resDevice : BitVec 4 := 2#4
def resNotReady : BitVec 4 := 3#4

/-- A completion record leaves on BULK. -/
def State.completion (s : State) (kind result : BitVec 4) (tag : BitVec 16) (offset : W64) : State :=
  let c0 : W64 := kind ++ result ++ 0#40 ++ tag
  s.kRecord chBulk (bytesLE c0.toNat 8 ++ bytesLE offset.toNat 8)

/-- The oldest segment has been dealt with: its frame is acknowledged and its credit freed. -/
def State.segmentDone (s : State) : State :=
  let x := s.chan chBulk
  let s : State := { s with kl := { s.kl with segments := s.kl.segments.tail } }
  ((s.setChan chBulk { x with expect := x.expect + 1 }).kFree chBulk).kCtrl false chBulk

/-- A segment that is not written: acknowledged, and answered with a result. -/
def State.refuseSegment (s : State) (g : List Byte) (result : BitVec 4) : State :=
  s.segmentDone.completion (segKind g) result (segTag g) (segS1 g)

/-- The oldest segment, where it is one of the kinds given. -/
def State.nextSegment (s : State) (kinds : List Nat) : Option (List Byte) :=
  s.kl.segments.head?.filter fun g => kinds.contains (segKind g).toNat

/-- A segment of KIND 1 to 4: before full readiness it is answered NOT_READY (Table 19.2). -/
def State.bulkKind (s : State) (kind : Nat) (serve : State → List Byte → State) : Res :=
  match s.nextSegment [kind] with
  | none => .next s
  | some g => .next (if s.boot.phase = .ready then serve s g else s.refuseSegment g resNotReady)

/-! ### KIND 1: the staging area -/

/-- Store bytes into a stack from byte address `a`, block by block. -/
def State.storeStack (s : State) (k a : Nat) (bs : List Byte) : Nat → State
  | 0 => s
  | fuel + 1 =>
    if bs = [] then s
    else
      let o := a % 512
      let n := min (512 - o) bs.length
      (s.storeBlock k (a - o) o n (Memory.writeBytes [] 0 (bs.take n))).storeStack k (a + n) (bs.drop n) fuel

def execBulkStaging (s : State) : Res :=
  s.bulkKind 1 fun s g =>
    let bs := segData g
    if stagingBytes < segOffset g + bs.length then s.refuseSegment g resRange
    else (s.storeStack stagingStack (stagingBase + segOffset g) bs (bs.length / 512 + 2)).segmentDone

/-! ### KIND 2: the weight stream (R421) -/

/-- The parts of [lo, hi) that the loader still takes: all before the manifest is checked, then those of kept shards that
have not been checked. -/
def State.wantedOf (s : State) (a : ActiveLoad) (lo hi : Nat) : List (Nat × Nat) :=
  if a.ready then []
  else if !a.manifest.checked then [(lo, hi)]
  else ((s.keptShards a).filter fun i => !(a.landing i).checked).filterMap fun i =>
    let p := a.part i
    if max lo p.1 < min hi p.2 then some (max lo p.1, min hi p.2) else none

/-- Land the wanted parts of a stream's bytes. -/
def State.landStream (s : State) (a : ActiveLoad) (lo : Nat) (bs : List Byte) : ActiveLoad :=
  (s.wantedOf a lo (lo + bs.length)).foldl (fun a r => a.land r.1 ((bs.drop (r.1 - lo)).take (r.2 - r.1))) a

/-- A segment waits while the landing buffer has no room for it. With no load that takes it, its bytes are discarded. -/
def execBulkWeightStream (s : State) : Res :=
  s.bulkKind 2 fun s g =>
    let bs := segData g
    match s.loader.active with
    | some a =>
      if a.source ≠ 2 then s.segmentDone
      else if landingBytes < a.held + bs.length then s
      else (s.segmentDone.countLanded bs.length).afterLanding (s.landStream a (segOffset g) bs)
    | none => s.segmentDone

/-! ### KIND 3: flash writes -/

def FlashRun.stop (r : FlashRun) : Nat := r.offset + r.bytes.length

/-- A run without the bytes of [lo, hi). -/
def FlashRun.cut (r : FlashRun) (lo hi : Nat) : List FlashRun :=
  if r.stop ≤ lo ∨ hi ≤ r.offset then [r]
  else
    (if r.offset < lo then [{ r with bytes := r.bytes.take (lo - r.offset) }] else [])
      ++ (if hi < r.stop then [{ r with offset := hi, bytes := r.bytes.drop (hi - r.offset) }] else [])

/-- Runs of a namespace, and the others. -/
def FlashRun.ofNs (c : Bool) (n : BitVec 32) (r : FlashRun) : Bool := r.ctrl == c && r.nsid == n

/-- The gathered runs with a new one, whose bytes replace older ones, joined to those that it touches. -/
def gatherRun (x : FlashRun) (rs : List FlashRun) : FlashRun × List FlashRun :=
  let mine := (rs.filter (FlashRun.ofNs x.ctrl x.nsid)).flatMap fun r => r.cut x.offset x.stop
  let left := (mine.find? fun r => r.stop == x.offset)
  let right := (mine.find? fun r => r.offset == x.stop)
  let joined : FlashRun := { x with
    offset := match left with | some r => r.offset | none => x.offset,
    bytes := (match left with | some r => r.bytes | none => []) ++ x.bytes
      ++ (match right with | some r => r.bytes | none => []) }
  (joined, rs.filter (fun r => !FlashRun.ofNs x.ctrl x.nsid r)
    ++ mine.filter fun r => r.stop != x.offset && r.offset != x.stop)

/-- Bytes of a logical block of a namespace. -/
def State.blockBytes (s : State) (ctrl : Bool) (nsid : BitVec 32) : Nat := 2 ^ s.blockLog ctrl.toNat nsid

/-- Bytes of the longest Write of whole blocks: 128 KiB, or MDTS (R504, R415). -/
def State.writeLimit (s : State) (ctrl : Bool) (nsid : BitVec 32) : Nat :=
  let b := s.blockBytes ctrl nsid
  max b (s.readLimit ctrl.toNat / b * b)

/-- Whole blocks of a run: first byte and end. -/
def FlashRun.whole (b : Nat) (r : FlashRun) : Nat × Nat := (roundUp r.offset b, r.stop / b * b)

/-- The Writes of the bytes [lo, hi) of a run, each at most `limit` long. -/
def writesOf (r : FlashRun) (lo hi limit : Nat) : Nat → List FlashCmd
  | 0 => []
  | fuel + 1 =>
    if hi ≤ lo then []
    else
      let n := min limit (hi - lo)
      .write r.ctrl r.nsid lo ((r.bytes.drop (lo - r.offset)).take n) :: writesOf r (lo + n) hi limit fuel

/-- Gather a segment's bytes. Once a run has the longest Write's whole blocks, those leave in Writes of that length. -/
def State.gather (s : State) (x : FlashRun) : State :=
  let (r, rest) := gatherRun x s.flash.runs
  let limit := s.writeLimit x.ctrl x.nsid
  let (lo, hi) := r.whole (s.blockBytes x.ctrl x.nsid)
  let hi := lo + (hi - lo) / limit * limit
  if s.flashReady x.ctrl.toNat x.nsid && decide (lo < hi) then
    { s with flash := { s.flash with
        runs := rest ++ r.cut lo hi, issued := s.flash.issued ++ writesOf r lo hi limit ((hi - lo) / limit) } }
  else { s with flash := { s.flash with runs := rest ++ [r] } }

def execBulkFlashWrite (s : State) : Res :=
  s.bulkKind 3 fun s g =>
    if segOffset g % 8 ≠ 0 then s.refuseSegment g resRange
    else if segData g = [] then s.segmentDone
    else (s.gather ⟨segCtrl g, segNsid g, segOffset g, segData g⟩).segmentDone

/-! ### KIND 4: flush -/

/-- Put a run into runs that stand in ascending order. -/
def insertFlash (x : FlashRun) : List FlashRun → List FlashRun
  | [] => [x]
  | r :: rs => if x.offset < r.offset then x :: r :: rs else r :: insertFlash x rs

/-- A namespace's runs, in ascending order. -/
def State.runsOf (s : State) (c : Bool) (n : BitVec 32) : List FlashRun :=
  (s.flash.runs.filter (FlashRun.ofNs c n)).foldl (fun l r => insertFlash r l) []

/-- Every whole block gathered for the namespace is written, what is left of partly covered blocks is dropped, and the Flush
follows. -/
def State.flushNs (s : State) (g : List Byte) : State :=
  let c := segCtrl g
  let n := segNsid g
  let b := s.blockBytes c n
  let limit := s.writeLimit c n
  let rs := s.runsOf c n
  let writes := rs.flatMap fun r => writesOf r (r.whole b).1 (r.whole b).2 limit (r.bytes.length / limit + 1)
  let short := rs.any fun r => r.offset % b != 0 || r.stop % b != 0
  { s with flash := { s.flash with
      runs := s.flash.runs.filter fun r => !FlashRun.ofNs c n r,
      issued := s.flash.issued ++ writes ++ [.flush c n (segTag g) (segS1 g) short] } }

/-- Without a controller that can be written, the gathered bytes are dropped, and the completion reports a device error. -/
def execBulkFlashFlush (s : State) : Res :=
  s.bulkKind 4 fun s g =>
    if s.flashReady (segCtrl g).toNat (segNsid g) then (s.flushNs g).segmentDone
    else
      let runs := s.flash.runs.filter fun r => !FlashRun.ofNs (segCtrl g) (segNsid g) r
      ({ s with flash := { s.flash with runs := runs } } : State).refuseSegment g resDevice

/-! ### Reserved kinds -/

/-- A reserved KIND, which KIND 5 is once the firmware runs. -/
def execBulkReserved (s : State) : Res :=
  match s.nextSegment ([0, 6, 7, 8, 9, 10, 11, 12, 13, 14, 15] ++ if s.boot.phase = .rom then [] else [5]) with
  | none => .next s
  | some g => .next (s.refuseSegment g resRange)

/-! ### NVMe Writes and Flushes complete -/

def FlashCmd.ns : FlashCmd → Bool × BitVec 32
  | .write c n _ _ => (c, n)
  | .flush c n _ _ _ => (c, n)

def FlashCmd.isWrite : FlashCmd → Bool
  | .write _ _ _ _ => true
  | .flush _ _ _ _ _ => false

/-- Count a failed command or time-out (8102). -/
def State.flashError (s : State) (ctrl : Nat) : State :=
  { s with flash := { s.flash with errors := SMap.modify 0#32 s.flash.errors ctrl (· + 1#32) } }

/-- Command `i` of those issued has ended. A Flush's completion record is sent: RANGE where blocks were left out, a device
error where it or a Write before it failed. -/
def State.flashEnded (s : State) (i : Nat) (ok : Bool) : State :=
  match s.flash.issued[i]? with
  | none => s
  | some c =>
    let s := if ok then s else s.flashError c.ns.1.toNat
    let bad := s.flash.failed.contains c.ns || !ok
    let others := s.flash.failed.filter fun n => n != c.ns
    let issued := s.flash.issued.eraseIdx i
    match c with
    | .write _ _ _ _ =>
      { s with flash := { s.flash with issued := issued, failed := if bad then others ++ [c.ns] else s.flash.failed } }
    | .flush _ _ tag offset short =>
      ({ s with flash := { s.flash with issued := issued, failed := others } } : State).completion 4#4
        (if short then resRange else if bad then resDevice else resOk) tag offset

/-- The command is on its way: a Flush is only once no Write of its namespace stands before it. -/
def State.flashUnderWay (s : State) (i : Nat) : Bool :=
  match s.flash.issued[i]? with
  | none => false
  | some c => c.isWrite || (s.flash.issued.take i).all fun d => !(d.isWrite && d.ns == c.ns)

def execFlashWriteComplete (command : Fin 256) (ok : Bool) (s : State) : Res :=
  .next (if s.flashUnderWay command.val then s.flashEnded command.val ok else s)

/-! ### The flash link (Table 15.3) -/

/-- F0_STATE of a controller (8101). -/
def f0Word (i : F0Init) : BitVec 32 := 0#16 ++ i.width ++ i.gen ++ 0#3 ++ BitVec.ofBool i.up

def setBit2 (x : BitVec 2) (c : Nat) (b : Bool) : BitVec 2 :=
  if b then x ||| (1#2 <<< c) else x &&& ~~~(1#2 <<< c)

/-- The namespaces of controller `c` are these. -/
def setSpaces (m : SMap Nat) (c : Nat) (ns : List (BitVec 32 × BitVec 8)) : SMap Nat :=
  ns.foldl (fun m n => SMap.set 0 m (2 * n.1.toNat + c) n.2.toNat) (m.filter fun e => e.1 % 2 != c)

/-- A controller's link trains: up in FLIT mode, or held down with PERST low where it trains otherwise, or not up. -/
def State.f0Train (s : State) (c : Nat) (i : F0Init) : State :=
  let f := s.flash
  if f.heldDown.getLsbD c then s
  else if i.up && !i.flit then
    { s with flash := { f with heldDown := setBit2 f.heldDown c true, perst := setBit2 f.perst c false } }
  else if i.up then
    { s with flash := { f with
        state := SMap.set 0#32 f.state c (f0Word i), lba := setSpaces f.lba c i.spaces,
        mdts := SMap.set 0 f.mdts c i.mdts.toNat } }
  else s

/-- The link is down, and nothing is known of its namespaces. -/
def State.f0Lost (s : State) (c : Nat) : State :=
  { s with flash := { s.flash with
      state := SMap.set 0#32 s.flash.state c 0#32, lba := setSpaces s.flash.lba c [],
      mdts := SMap.set 0 s.flash.mdts c 0 } }

/-- The first command of a controller fails, as often as it has commands. -/
def State.failFlash (s : State) (c : Bool) : Nat → State
  | 0 => s
  | fuel + 1 =>
    match s.flash.issued.findIdx? fun d => d.ns.1 == c with
    | some i => (s.flashEnded i false).failFlash c fuel
    | none => s

/-- Reads outstanding on a controller end the fetch of their shards, each handled as a time-out (R415, R425). -/
def State.failReads (s : State) (c : Nat) : State :=
  match s.loader.active with
  | none => s
  | some a =>
    if a.ctrl ≠ c then s
    else
      ((a.reads.map (·.shard)).eraseDups).foldl (fun s i =>
        match s.loader.active with
        | some a => (s.flashError c).failAttempt a i 6
        | none => s) s

/-- A controller's link goes down, and what the training that follows gives, if it gives anything. -/
def execF0LinkDown (ctrl : Bool) (next : Option F0Init) (s : State) : Res :=
  let c := ctrl.toNat
  let was := (SMap.get 0#32 s.flash.state c).getLsbD 0
  let s := s.f0Lost c
  let s := if was then (s.failReads c).failFlash ctrl s.flash.issued.length else s
  .next (match next with
    | some i => if s.boot.phase = .ready ∧ s.integ.fatalState = 0#8 ∧ s.tap.landsTaken = false then s.f0Train c i else s
    | none => s)

/-! ### Inbound requests (Table 15.3) -/

/-- The window that holds `n` bytes from a bus address, and the first byte's place in it: landing (true) or queue. -/
def inboundWindow (a n : Nat) : Option (Bool × Nat) :=
  if 0x40000000 ≤ a ∧ a + n ≤ 0x44000000 then some (true, a - 0x40000000)
  else if 0x80000000 ≤ a ∧ a + n ≤ 0x80100000 then some (false, a - 0x80000000)
  else none

def State.flashAnswer (s : State) (r : Option (List Byte)) : State :=
  { s with flash := { s.flash with answers := s.flash.answers ++ [r] } }

/-- A memory write or read within a window and within the payload and read limits is served; every other request completes
as Unsupported Request. -/
def execPcieInboundRequest (req : PcieRequest) (s : State) : Res :=
  if (SMap.get 0#32 s.flash.state req.ctrl.toNat).getLsbD 0 = false then .next s
  else
    let n := req.len.toNat
    match inboundWindow req.addr.toNat n with
    | none => .next (s.flashAnswer none)
    | some (landing, o) =>
      if n = 0 ∨ (if req.write then 256 else 4096) < n ∨ (req.write && req.data.length != n) then
        .next (s.flashAnswer none)
      else if req.write then
        .next (if landing then
            { s with loader := { s.loader with landingWindow := s.loader.landingWindow.writeBytes o req.data } }
          else { s with loader := { s.loader with queueWindow := s.loader.queueWindow.writeBytes o req.data } })
      else
        .next (s.flashAnswer (some ((if landing then s.loader.landingWindow else s.loader.queueWindow).readBytes o n)))

end Sys2Proof.Machine
end

