-- ==== Sys2Proof/Machine/Read.lean ====
section
/-! DEFINITION. What every object of the dictionary reads as, and the requests READ, INFO and those with a reserved
opcode (spec/17 and the object tables of every chapter). -/

namespace Sys2Proof.Machine

/-! ### Constants -/

/-- Values of the CONST objects that no part or boot decides, by 256 × index + subindex. -/
def constObjects : List (Nat × Nat) :=
  [(0x100008, 16),
   (0x200001, 156250000), (0x200002, 152), (0x200003, 16), (0x200004, 250),
   (0x300001, 32768), (0x300002, 16384), (0x300003, 16384), (0x300004, 512), (0x300005, 4096),
   (0x310001, 51539607552), (0x310002, 171798691840), (0x310003, 36), (0x310004, 96), (0x310005, 6), (0x310006, 16),
   (0x310007, 6), (0x310008, 1),
   (0x320001, 16), (0x320002, 16), (0x320003, 2), (0x320004, 128),
   (0x330001, 32), (0x330002, 64), (0x330003, 8192), (0x330004, 64), (0x330005, 8),
   (0x400001, 32), (0x400002, 212500), (0x400003, 140), (0x400004, 512), (0x400005, 96), (0x400006, 48),
   (0x420002, 100),
   (0x500001, 8192), (0x500002, 8388608), (0x500003, 512), (0x500004, 256), (0x500005, 262144),
   (0x600001, 2), (0x600002, 67108864), (0x600003, 16777216), (0x600004, 16), (0x600005, 512),
   (0x700001, 4), (0x700002, 64),
   (0x800001, 8), (0x800002, 106250), (0x800003, 1040), (0x800004, 256), (0x800005, 4194304), (0x820001, 32473),
   (0xA00001, 1), (0xA00002, 64), (0xA00003, 16), (0xA00004, 0x042600000000), (0xA00005, 8589934592)]

def constOf (key : Nat) : Nat := ((constObjects.find? fun e => e.1 == key).map (·.2)).getD 0

/-- Upper-die rail of an operating point, mV (Table 10.2). -/
def railMv (op : Nat) : Nat :=
  [600, 615, 630, 645, 660, 675, 690, 705, 720, 735, 750, 756, 762, 768, 774, 780].getD op 780

/-! ### State words -/

def b2n (b : Bool) (k : Nat) : Nat := if b then 2 ^ k else 0

/-- Whole degrees of a Q16.16 temperature, saturating at 255. -/
def wholeDegrees (q : BitVec 32) : Nat := min 255 (q.toInt / 65536).toNat

/-- 1020.01 (Table 1.8). -/
def Part.fuses (p : Part) : Nat := b2n p.mapFused 3 + b2n p.idSeed 2 + b2n p.testClose 1 + b2n p.debugClose 0

/-- The value half of 1100.07 (Table 1.12). -/
def State.modeWord (s : State) : BitVec 32 :=
  BitVec.ofNat 16 (s.job.interval.toNat / 1024) ++ 0#4 ++ s.job.compile.setWidth 2 ++ s.job.swapMode.setWidth 2
    ++ s.job.check.setWidth 2 ++ s.job.placement.setWidth 2 ++ 0#3 ++ s.modes.powerMode.setWidth 1

/-- 2010 REGION_STATE (Table 10.6); an I/O region keeps its line clock. -/
def State.regionState (s : State) (r : Nat) : Nat :=
  let c := s.clock
  let e := SMap.get Region.idle c.regions r
  (if r < 144 then marginOf e.codes * 4096 else 0) + (SMap.get 0#8 c.temp r).toNat * 16
    + b2n (c.slip.getLsbD r) 3 + b2n (decide (r < 144) && (e.own || decide (c.regionCount r < c.stretched))) 2 + b2n (decide (144 ≤ r)) 1 + b2n (!c.refLost) 0

/-- 2050.01 GOV_STATE (Table 10.5). -/
def State.govState (s : State) : Nat :=
  let c := s.clock
  c.opRequest.toNat * 2 ^ 20 + c.opNow.toNat * 2 ^ 16 + b2n c.emergency 7 + b2n c.coolantRange 6
    + b2n c.unreachable 5 + b2n c.heldByJob 4 + b2n c.thermal 3 + b2n c.power 2 + b2n c.ceiling 1
    + b2n (s.modes.powerMode == 1#8) 0

/-- 2100.01 BOOT_STATE (Table 19.8). -/
def State.bootState (s : State) : Nat :=
  let b := s.boot
  let eothar := b.eotharDone || (s.dictOpen && (List.range 32).all fun p => (s.port p).role == 0#8 || (s.port p).up)
  b.cause.toNat * 2 ^ 24 + b2n b.f0Done 5 + b2n eothar 4 + b2n b.cellarDone 3 + b2n b.bist 2 + b2n b.failed 1
    + b2n (b.phase == .ready) 0

/-- Bound handles of a tower. -/
def State.boundHandles (s : State) (t : Nat) : List HandleEntry :=
  (s.ld.handles.filter fun e => e.1 / 4096 == t && e.2.valid).map (·.2)

/-- Rows of slice `n` of a tower that a bound handle covers (3010.02). -/
def State.sliceRowsBound (s : State) (t n : Nat) : Nat :=
  let used := s.usedHalls.contains (hallOfTile t n)
  let runs := ((s.boundHandles t).filter fun e =>
    if e.perHall then used && e.pos == n % 3 else e.slice == n).map fun e => (e.row0, e.lenm1 + 1)
  16384 - ((freeRuns 16384 (sortRuns runs) 0).map (·.2)).sum

def State.rowsBound (s : State) (t : Nat) : Nat := ((List.range 144).map (s.sliceRowsBound t)).sum

/-- Stack code of subindex 1 to 6 of a tower (R190). -/
def stackOfSub (t sub : Nat) : Nat := if sub ≤ 4 then 4 * t + sub - 1 else 16 + 2 * t + sub - 5

/-- 3110 STACK_STATE (Table 6.8). -/
def Stack.word (x : Stack) : Nat :=
  wholeDegrees x.temp * 256 + b2n x.limit 3 + b2n x.hot 2 + b2n x.trained 1 + 1

/-- Porter `k` is held for job-scope acknowledgements (R207): a last packet stands at its ports, or a descriptor whose own
write is done has a local bell to change, behind one whose acknowledgement is still to come. -/
def State.heldAck (s : State) (k : Nat) : Bool :=
  let ts := (s.porter k).active
  ts.any (fun t => t.heldLast != []) || ts.zipIdx.any fun e =>
    PDesc.sig e.1.desc && PDesc.scope e.1.desc == 3 && (s.doneAt k e.1).isSome
      && (ts.take e.2).any fun u => !u.isEmpty && s.farAway (PDesc.dst u.desc) && (s.doneAt k u).isNone

/-- 3210 and 3211 (Table 7.11). -/
def State.porterWord (s : State) (k : Nat) : Nat :=
  let p := s.porter k
  p.tag.toNat * 65536 + p.queue.length * 2048 + b2n (p.staging != []) 3 + b2n p.hold.isSome 2
    + b2n (s.heldAck k) 1 + b2n (p.active != []) 0

/-- A PRECV is held on the post. -/
def State.readerHeld (s : State) (k : Nat) : Bool :=
  match (s.vcore (k / 96)).hold with
  | .post p _ => p == k
  | _ => false

/-- 3310 POST_STATE (Table 8.7). -/
def State.postState (s : State) (k : Nat) : Nat :=
  let p := s.post k
  p.taken.v.toNat % 65536 * 2 ^ 48 + p.sent.v.toNat % 65536 * 2 ^ 32 + p.reserved * 65536 + p.occupied * 256
    + b2n (p.waiting != []) 2 + b2n p.closed 1 + b2n (s.readerHeld k) 0

/-- Agents held on a bell of a tower (3331). -/
def State.waiters (s : State) (t b : Nat) : List Nat :=
  let ms := s.mc.filterMap fun e =>
    match e.2.hold with
    | .bell b' _ _ _ => if e.1 / 96 = t ∧ b'.toNat = b then some (tileOf (e.1 / 2) (e.1 % 2)) else none
    | _ => none
  let vs := s.vc.filterMap fun e =>
    match e.2.hold with
    | .bell b' _ _ _ => if hallTower e.1 = t ∧ b'.toNat = b then some (tileOf e.1 2) else none
    | _ => none
  let ps := s.por.porters.filterMap fun e =>
    match e.2.hold, e.2.queue with
    | some _, d :: _ => if porterTower e.1 = t ∧ PDesc.wbell d.desc = b then some (porterAgent e.1) else none
    | _, _ => none
  ms ++ vs ++ ps

def bitSet (ns : List Nat) : Nat := ns.foldl (fun m n => m ||| 2 ^ n) 0

/-- 4010.02 PORT_STATE (Table 11.9). -/
def State.portState (s : State) (n : Nat) : Nat :=
  let p := s.port n
  p.lanesOk.toNat * 256 + b2n p.spared 7 + p.slane.toNat * 32 + b2n (s.protected n) 4 + b2n p.excluded 3
    + b2n p.retraining 2 + b2n p.up 1 + b2n p.lock 0

/-- 4210.02 NEIGHBOUR_STATE (Table 13.7). -/
def Port.neighbourState (p : Port) : Nat :=
  p.hellos.toNat * 65536 + b2n p.spareOk 3 + b2n p.changed 2 + b2n p.stale 1 + b2n p.valid 0

/-- 4220.04 TIME_STATE (Table 13.8). -/
def State.timeWord (s : State) : Nat :=
  s.shp.depth.toNat * 256 + b2n s.shp.backup 4 + b2n s.isRoot 3 + s.shp.timeState.toNat

/-- The beat of 5010.04, as a Milestone beat. -/
def State.nextLaunch (s : State) : Nat :=
  match s.desk.decided.find? fun d => !d.done with
  | some d => d.at_ + s.integ.jobOffset
  | none =>
    match s.latchedAhead with
    | l :: _ => l.at_ + s.integ.jobOffset
    | [] => 0

/-- 6040.02 ADAPTER_STATE (Table 15.6). -/
def Adapter.word (x : Adapter) : Nat :=
  b2n x.active 63 + b2n x.queued 62 + x.st1.toNat * 2 ^ 60 + x.st0.toNat * 2 ^ 58 + x.pin1.toNat * 65536 + x.pin0.toNat

/-- 6011.01 WLOAD_STATE (Table 15.9). -/
def State.wloadWord (s : State) : Nat :=
  let l := s.loader
  l.state.toNat * 2 ^ 60 + l.form.toNat * 2 ^ 58 + b2n l.set 57 + l.gen.toNat * 2 ^ 49 + l.queue.length * 2 ^ 44
    + l.layer.toNat * 2 ^ 28 + l.shardsDone.toNat

/-- 8010.01 LINK_STATE (Table 18.10). -/
def State.linkState (s : State) : Nat :=
  let k := s.kl
  k.lanesOk.toNat * 256 + k.groups.toNat * 64 + b2n k.up 5 + b2n k.resumed 4 + b2n s.boot.kmode 3 + b2n k.retraining 2
    + b2n k.lock 1

/-! ### Records -/

/-- A lodger's record, words LR0 to LR31 (Table 14.2). -/
def Lodger.words (l : Lodger) : List W64 :=
  let ext (k : Nat) : W64 :=
    match l.ext[k]? with
    | some x => x.1 ++ x.2 ++ 0#16
    | none => 0#64
  let stop (k : Nat) : BitVec 18 := l.stops.getD k 0#18
  let bias (k : Nat) : W64 :=
    match l.biases[k]? with
    | some x => x.1 ++ 0#14 ++ x.2
    | none => 0#64
  [l.state ++ l.reason ++ l.wgen ++ l.adapter ++ BitVec.ofBool l.aslot ++ l.maskMode ++ l.maskSlot ++ l.nbias ++ l.nstop
      ++ l.lastToken,
   l.submitId ++ l.acceptSeq, l.seed, l.deadline, l.kvFill.c ++ l.kvFill.v, l.genCount.c ++ l.genCount.v,
   l.promptLen ++ l.maxNew, l.temp ++ l.topP ++ l.minP,
   l.topK ++ BitVec.ofBool l.cancel ++ BitVec.ofBool l.hasPending ++ 0#33 ++ l.pending, l.promptAt ++ 0#9 ++ l.maskIndex,
   ext 0, ext 1, ext 2, ext 3,
   0#10 ++ stop 2 ++ stop 1 ++ stop 0, 0#10 ++ stop 5 ++ stop 4 ++ stop 3, 0#28 ++ stop 7 ++ stop 6]
    ++ (List.range 15).map bias

/-- Words, lowest address first. -/
def wordsLE (ws : List W64) : List Byte := ws.flatMap fun w => bytesLE w.toNat 8

/-- A byte list brought to `n` bytes. -/
def fixLen (n : Nat) (bs : List Byte) : List Byte := (bs ++ List.replicate (n - bs.length) 0#8).take n

def HandleEntry.bytes (e : HandleEntry) : List Byte := wordsLE [e.w0.v, e.w0.c, e.w1.v, e.w1.c]

/-! ### The device certificate (R523, Table 19.4) -/

def certSigLen : Nat := Config.certSigLen.toNat % 1281

/-- ID_PUBLIC. -/
def certKey : List Byte := (List.range 1793).map fun k => Config.certByte (48 + k)

def State.certificate (s : State) : List Byte :=
  wordsLE [0x4743455200010000#64] ++ fixLen 16 s.part.serial
    ++ wordsLE [s.part.grade ++ BitVec.ofNat 8 s.enabledHalls ++ s.part.stepping ++ 0#32, s.part.digest]
    ++ (List.range 8).map (fun k => Config.certByte (40 + k)) ++ certKey ++ List.replicate 7 0#8
    ++ bytesLE certSigLen 8
    ++ fixLen 1280 ((List.range certSigLen).map fun k => Config.certByte (1856 + k))

/-- 6013 MANIFEST_DIGEST of set 0 or set 1: zero while the set is still loading (R526). -/
def State.setDigest (s : State) (z : Bool) : BitVec 256 :=
  let loading := match s.loader.active with
    | some a => !a.isAdapter && !a.ready && a.set == z
    | none => false
  if loading then 0#256 else if z then s.loader.digest1 else s.loader.digest0

/-! ### Values, by range -/

def State.num1 (s : State) (index sub i : Nat) : Nat :=
  match index with
  | 0x1000 =>
    match sub with
    | 3 => s.part.grade.toNat
    | 5 => s.part.stepping.toNat
    | 6 => s.enabledHalls
    | 7 => s.part.digest.toNat
    | _ => constOf (256 * index + sub)
  | 0x1010 => if sub = 1 then (s.part.disabledOf i).toNat
    else ((List.range 48).filter fun h => s.hallEnabled (48 * i + h)).length
  | 0x1020 => s.part.fuses
  | _ =>
    match sub with
    | 1 => s.modes.powerMode.toNat
    | 2 => s.job.placement.toNat
    | 3 => s.job.check.toNat
    | 4 => s.job.swapMode.toNat
    | 5 => s.job.interval.toNat
    | 6 => s.job.compile.toNat
    | _ => s.modes.forceGuarded.toNat

def State.num2 (s : State) (index sub i : Nat) : Nat :=
  let c := s.clock
  match index with
  | 0x2000 => constOf (256 * index + sub)
  | 0x2001 => (60 * (19 + sub)) * 65536 + railMv (sub - 1)
  | 0x2010 => s.regionState sub
  | 0x2011 => c.regionCount sub % 2 ^ 64
  | 0x2020 =>
    match sub with
    | 1 => c.opNow.toNat
    | 2 => c.opRequest.toNat
    | 3 => c.opCeiling.toNat
    | 4 => 60000 * (20 + c.opNow.toNat)
    | _ => c.opChanges.toNat
  | 0x2030 =>
    match sub with
    | 1 => c.powerW.toNat
    | 2 => c.power100.toNat
    | 3 => c.setpoint.toNat
    | 4 => c.powerLimit.toNat
    | 5 => c.limitEffective.toNat
    | 6 => c.shortfall.toNat
    | _ => c.inputV.toNat
  | 0x2040 =>
    match sub with
    | 1 => c.coolantIn.toNat
    | 2 => c.coolantOut.toNat
    | 3 => c.flowEst.toNat
    | 4 => c.flow.toNat
    | _ => c.glycol.toNat
  | 0x2041 => (SMap.get 0#32 (if sub = 1 then c.upperTemp else c.lowerTemp) i).toNat
  | 0x2050 =>
    match sub with
    | 1 => s.govState
    | 2 => c.thermalSteps.toNat
    | _ => c.emergencySteps.toNat
  | 0x2060 => if sub = 1 then c.slips.toNat else c.refLost.toNat
  | 0x2100 =>
    match sub with
    | 1 => s.bootState
    | 2 => s.boot.version.toNat
    | _ => s.boot.bringupMs.toNat
  | 0x2120 => s.boot.idState.toNat
  | _ => s.boot.attestCount.toNat

def State.num3 (s : State) (index sub i : Nat) : Nat :=
  match index with
  | 0x3010 =>
    match sub with
    | 1 => (s.boundHandles i).length
    | 2 => s.rowsBound i
    | _ => (SMap.get 0#64 s.ld.lastFault i).toNat
  | 0x3020 =>
    (SMap.get 0#64 (if sub = 1 then s.ld.sliceLost else if sub = 2 then s.ld.pantryLost else s.ld.gridSerial) i).toNat
  | 0x3110 => (s.stack (stackOfSub i sub)).word
  | 0x3111 => (s.stack (stackOfSub i sub)).temp.toNat
  | 0x3120 => (s.stack (stackOfSub i sub)).corrected.toNat
  | 0x3121 => (s.stack (stackOfSub i sub)).uncorrected.toNat
  | 0x3122 => (s.stack (stackOfSub i sub)).bankWait.toNat
  | 0x3123 => (s.stack (stackOfSub i sub)).turnSlots.toNat
  | 0x3130 => (SMap.get 0#64 s.cel.lastError i).toNat
  | 0x3210 => s.porterWord (16 * i + sub - 1)
  | 0x3211 => s.porterWord (64 + i)
  | 0x3220 =>
    (SMap.get 0#64 (if sub = 1 then s.por.done else if sub = 2 then s.por.linkLost
      else if sub = 3 then s.por.queueFull else s.por.stagingHits) i).toNat
  | 0x3240 => (SMap.get 0#64 s.por.lastFault i).toNat
  | 0x3301 => if sub = 1 then s.pb.watchdogBeats.toNat else s.pb.handActions.toNat
  | 0x3302 => (SMap.get 0xFFFF#16 s.pb.idleBell (4 * i + sub - 1)).toNat
  | 0x3310 => s.postState (96 * i + sub - 1)
  | 0x3320 =>
    (SMap.get 0#64 (if sub = 1 then s.pb.sendsAccepted else if sub = 2 then s.pb.sendsClosed
      else if sub = 3 then s.pb.stageFull else if sub = 4 then s.pb.rsvFull else s.pb.remoteRefusals) i).toNat
  | 0x3330 => (SMap.get 0xFFFF#16 s.pb.watchBell (64 * i + sub - 1)).toNat
  | 0x3332 => (SMap.get WatchRec.zero s.pb.watch (64 * i + sub - 1)).last.toNat
  | 0x3333 => (SMap.get WatchRec.zero s.pb.watch (64 * i + sub - 1)).beat.toNat
  | 0x3361 => (SMap.get 0#64 s.pb.lastPostFault i).toNat
  | _ =>
    if 0x3340 ≤ index ∧ index ≤ 0x335F then (s.bell i (256 * (index - 0x3340) + sub)).count.toNat
    else constOf (256 * index + sub)

def State.num4 (s : State) (index sub i : Nat) : Nat :=
  let p := s.port i
  match index with
  | 0x4010 =>
    match sub with
    | 1 => p.role.toNat
    | 2 => s.portState i
    | 3 => p.channelNs.toNat
    | _ => p.channelType.toNat
  | 0x4011 =>
    match sub with
    | 1 => p.flitsTx.toNat
    | 2 => p.flitsRx.toNat
    | 3 => p.crcFails.toNat
    | 4 => p.replays.toNat
    | 5 => p.fecCorrected.toNat
    | 6 => p.fecUncorrected.toNat
    | _ => p.stomped.toNat
  | 0x4021 => (s.spare (sub - 1)).word.toNat
  | 0x4030 => p.lastError.toNat
  | 0x4040 => (SMap.get 0#32 s.eo.circuits (sub - 1)).toNat
  | 0x4100 => if sub = 1 then s.ranks.myRank.toNat else if sub = 2 then s.ranks.jobSize.toNat else s.ranks.deskRank.toNat
  | 0x4110 =>
    match sub with
    | 1 => s.ranks.gridCols.toNat
    | 2 => s.gridRows
    | 3 => s.ranks.gridWrap.toNat
    | _ => s.ranks.axisPorts.toNat
  | 0x4120 => p.axis.toNat
  | 0x4130 => s.ranks.lastRouteFault.toNat
  | 0x4140 => if sub = 1 then s.ranks.gateClasses.toNat else s.ranks.gateState.toNat
  | 0x4160 =>
    match sub with
    | 1 => (p.creditBeats s.milestone).toNat
    | 2 => p.transit.toNat
    | 3 => s.ranks.reqRefused.toNat
    | _ => s.ranks.mgtDropped.toNat
  | 0x4200 =>
    match sub with
    | 1 => s.shp.bootNonce.toNat
    | 3 => s.shp.jobDiameter.toNat
    | 4 => s.shp.transitOnly.toNat
    | _ => constOf (256 * index + sub)
  | 0x4210 => p.neighbourState
  | 0x4220 =>
    match sub with
    | 1 => s.milestone
    | 2 => s.shp.timeParent.toNat
    | 3 => s.shp.timeParent2.toNat
    | 4 => s.timeWord
    | 5 => s.shp.offset.toNat
    | 6 => s.shp.delay.toNat
    | 7 => s.shp.trimPpm.toNat
    | 8 => s.shp.timeLock.toNat
    | _ => s.shp.timeSteps.toNat
  | 0x4230 =>
    match sub with
    | 1 => s.shp.lastReshape.toNat
    | 2 => s.shp.diameterExceeded.toNat
    | 3 => s.shp.jobGate.toNat
    | _ => s.shp.jobGateState.toNat
  | _ => constOf (256 * index + sub)

def State.num5 (s : State) (index sub i : Nat) : Nat :=
  let d := s.desk
  match index with
  | 0x5010 =>
    match sub with
    | 1 => d.role.toNat
    | 2 => d.steadyShape.toNat
    | 3 => d.launchLead.toNat
    | _ => s.nextLaunch
  | 0x5020 =>
    match sub with
    | 1 => s.activeLodgers.length
    | 2 => (s.activeLodgers.map fun j => (s.lodger j).promptLen.toNat - (s.lodger j).kv).sum
    | 3 => d.lodgerLimit.toNat
    | _ => d.maxContext.toNat
  | 0x5021 => (SMap.get 0#64 d.retired sub).toNat
  | 0x5030 =>
    match sub with
    | 1 => d.roomBase.toNat
    | 2 => d.roomsPerStack.toNat
    | 3 => d.groupTokens.toNat
    | 4 => d.groupRooms.toNat
    | _ => (s.freeRooms.map (·.2)).sum
  | 0x5031 =>
    match sub with
    | 1 => d.mapHandle.toNat
    | 2 => d.launchHandle.toNat
    | 3 => d.launchBell.toNat
    | 4 => d.logitHandle.toNat
    | 5 => d.logitBell.toNat
    | 6 => d.logitFormat.toNat
    | _ => d.vocab.toNat
  | 0x5041 => (s.lodger i).state.toNat * 16 + (s.lodger i).reason.toNat
  | 0x5050 => (SMap.get 0#64 (if sub = 1 then d.reckonerColumns else d.noCandidate) i).toNat
  | 0x5060 => if sub = 1 then d.tokensReleased.toNat else if sub = 2 then d.lastBoundary.toNat else d.ignored.toNat
  | 0x5070 => d.lastEvent.toNat
  | _ => constOf (256 * index + sub)

def State.num6 (s : State) (index sub i : Nat) : Nat :=
  let l := s.loader
  match index with
  | 0x6010 => l.barrier.toNat
  | 0x6011 => if sub = 1 then s.wloadWord else l.failed.toNat
  | 0x6012 =>
    match sub with
    | 1 => l.gens.live.toNat
    | 2 => l.gens.old.toNat
    | 3 => s.oldLodgers
    | 4 => l.lastSwitch.toNat
    | _ => s.barrierNow.toNat
  | 0x6020 => (SMap.get 0#64 l.fill (sub - 1)).toNat
  | 0x6030 =>
    match sub with
    | 1 => l.upPort.toNat
    | 2 => l.downPort.toNat
    | 3 => l.peerPort.toNat
    | _ => l.timeoutMs.toNat
  | 0x6031 =>
    match sub with
    | 1 => l.bytesLanded.toNat
    | 2 => l.retries.toNat
    | 3 => l.peerFetches.toNat
    | _ => l.discarded.toNat
  | 0x6040 => (s.adapter i).word
  | 0x6041 => if sub = 1 then l.adapterCa.toNat else if sub = 2 then l.slotBytes.toNat else l.bothPinned.toNat
  | _ => constOf (256 * index + sub)

def State.num7 (s : State) (index sub i : Nat) : Nat :=
  let g := s.integ
  match index with
  | 0x7010 => g.errorCount.toNat
  | 0x7012 =>
    (SMap.get 0#64 (if sub = 1 then g.pantryCorrected else if sub = 2 then g.larderCorrected else g.otherCorrected) i).toNat
  | 0x7020 =>
    match sub with
    | 1 => g.lastCommit
    | 2 => g.commits.toNat
    | 3 => g.jobOffset
    | _ => g.confirmed
  | 0x7021 =>
    match sub with
    | 1 => g.rewinds.toNat
    | 2 => g.lastResume
    | 3 => g.lastInterruptionUs.toNat
    | _ => s.lead
  | 0x7030 => (SMap.get 0#64 g.lastFault i).toNat
  | 0x7040 => (SMap.get 0#64 g.ledger sub).toNat
  | 0x7041 => if sub = 1 then g.ledgerStep.toNat else g.ledgerEvents.toNat
  | 0x7050 => g.fatalState.toNat
  | _ => constOf (256 * index + sub)

def State.num8 (s : State) (index sub : Nat) : Nat :=
  let k := s.kl
  match index with
  | 0x8010 => if sub = 1 then s.linkState else k.peerNonce.toNat
  | 0x8011 => (s.chan (sub - 1)).nextSeq.toNat * 2 ^ 32 + (s.chan (sub - 1)).expect.toNat
  | 0x8012 =>
    match sub with
    | 1 => k.crcFails.toNat
    | 2 => k.replays.toNat
    | 3 => k.fecCorrected.toNat
    | 4 => k.fecUncorrected.toNat
    | _ => k.linkDowns.toNat
  | 0x8020 => if sub = 1 then s.integ.eventNext.toNat else s.integ.eventsLost.toNat
  | 0x8030 => s.outFree
  | 0x8100 => s.flash.mode.toNat
  | 0x8101 => (SMap.get 0#32 s.flash.state (sub - 1)).toNat
  | 0x8102 => (SMap.get 0#32 s.flash.errors (sub - 1)).toNat
  | 0x8200 =>
    match sub with
    | 2 => s.i3c.eid.toNat
    | 3 => s.i3c.address.toNat
    | 4 => s.i3c.dropped.toNat
    | _ => constOf (256 * index + sub)
  | _ => constOf (256 * index + sub)

def State.numA (s : State) (index sub : Nat) : Nat :=
  let j := s.job
  match index with
  | 0xA010 =>
    match sub with
    | 1 => j.load.toNat
    | 2 => j.loadState.toNat
    | 3 => j.refusal.toNat
    | _ => j.startBeat
  | 0xA020 => if sub = 1 then j.variant.toNat else j.logicalHalls.toNat
  | 0xA030 =>
    match sub with
    | 1 => j.hopSlack.toNat
    | 2 => j.hopBeats.toNat
    | 3 => j.maxOp.toNat
    | _ => j.stepBell.toNat
  | 0xA031 => (SMap.get Shape.absent j.shapes (sub - 1)).se0.toNat
  | 0xA032 => if sub = 1 then j.launches.toNat else if sub = 2 then j.lastLaunchBeat else j.lastShape.toNat
  | 0xA040 => if sub = 1 then j.slips.toNat else j.lastSlip.toNat
  | 0xA050 => j.guardFault.toNat
  | _ => constOf (256 * index + sub)

/-- The value of an object of a type other than STR, BLOB and CPAIR32. -/
def State.objNum (s : State) (index sub i : Nat) : Nat :=
  match index / 0x1000 with
  | 1 => s.num1 index sub i
  | 2 => s.num2 index sub i
  | 3 => s.num3 index sub i
  | 4 => s.num4 index sub i
  | 5 => s.num5 index sub i
  | 6 => s.num6 index sub i
  | 7 => s.num7 index sub i
  | 8 => s.num8 index sub
  | _ => s.numA index sub

/-- The bytes of a STR, BLOB or CPAIR32 object. -/
def State.objBlob (s : State) (index sub i : Nat) : List Byte :=
  match index with
  | 0x1000 =>
    match sub with
    | 1 => [0x47#8, 0x77#8, 0x65#8, 0x6D#8, 0x6F#8, 0x6E#8, 0x64#8]
    | 2 => [0x47#8, 0x53#8, 0x2D#8, 0x37#8, 0x32#8, 0x34#8, 0x30#8]
    | _ => fixLen 16 s.part.serial
  | 0x1100 => bytesLE (((~~~s.modeWord) ++ s.modeWord) ^^^ s.modes.wordUpset).toNat 8
  | 0x2100 => if sub = 3 then bytesLE s.boot.digest.toNat 32 else bytesLE s.boot.bistHalls.toNat 24
  | 0x2110 =>
    match sub with
    | 1 => s.boot.programKey.readBytes 0 1793
    | 2 => s.boot.weightKey.readBytes 0 1793
    | _ => bytesLE s.boot.programDigest.toNat 32 ++ bytesLE s.boot.weightDigest.toNat 32
  | 0x2120 => if sub = 1 then fixLen 1793 s.boot.idPublic else s.certificate
  | 0x2130 => s.boot.report.readBytes 0 1648
  | 0x3230 => bytesLE (SMap.get 0#192 s.por.hallGroup (sub - 1)).toNat 24
  | 0x3311 => bytesLE (s.postHead (96 * i + sub - 1)).toNat 32
  | 0x3331 =>
    let b := (SMap.get 0xFFFF#16 s.pb.watchBell (64 * i + sub - 1)).toNat
    bytesLE (bitSet (s.waiters i b)) 32
  | 0x3360 => bytesLE s.pb.watchdogRecord.toNat 80
  | 0x4210 => bytesLE (s.port i).neighbour.toNat 120
  | 0x5040 => wordsLE (s.lodger i).words
  | 0x6010 => bytesLE s.loader.manifestLoc.toNat 16
  | 0x6013 => bytesLE (s.setDigest (sub != 1)).toNat 32
  | 0x7011 => bytesLE (SMap.get 0#256 s.integ.errorRecord sub).toNat 32
  | 0x7060 => bytesLE s.integ.hallsOff.toNat 24
  | 0xA020 => if sub = 3 then (List.range 192).map fun k => SMap.get 0xFF#8 s.job.hallMap k
    else bytesLE s.job.digest.toNat 32
  | _ =>
    if 0x3040 ≤ index ∧ index ≤ 0x304F then (s.handle i (256 * (index - 0x3040) + sub)).bytes
    else if 0x4150 ≤ index ∧ index ≤ 0x415F then
      let p := s.signpost (256 * (index - 0x4150) + sub)
      wordsLE [p.v, p.c]
    else []

/-- The value of an object, in the length of its row. -/
def State.objBytes (s : State) (row : ObjRow) (index sub i : Nat) : List Byte :=
  if row.type = 8 ∨ row.type = 9 ∨ row.type = 10 then s.objBlob index sub i
  else bytesLE (s.objNum index sub i) row.size

/-- A complement pair that the value comes from fails its check (R480): tower, WHERE code and index of the pair. -/
def State.objFails (s : State) (index sub i : Nat) : Option (Nat × Nat × Nat) :=
  if 0x3040 ≤ index ∧ index ≤ 0x304F then
    let k := 256 * (index - 0x3040) + sub
    if (s.handle i k).ok then none else some (i, 1, k)
  else if 0x3340 ≤ index ∧ index ≤ 0x335F then
    let k := 256 * (index - 0x3340) + sub
    if (s.bell i k).ok then none else some (i, 3, k)
  else if 0x4150 ≤ index ∧ index ≤ 0x415F then
    let k := 256 * (index - 0x4150) + sub
    let p := s.signpost k
    if p.ok || p == Ranks.noEntry then none else some (0, 2, k)
  else if index = 0x3310 then
    if (s.post (96 * i + sub - 1)).pairsOk then none else some (hallTower i, 4, sub - 1)
  else if index = 0x5040 then
    let l := s.lodger i
    if l.kvFill.ok && l.genCount.ok then none else some (0, 5, i)
  else if index = 0x5020 ∧ sub = 2 then s.badLodger.map fun i => (0, 5, i)
  else none

/-- The stored pair of 1100.07 fails its check (R36): no fault of a job's state, and the next read finds it written anew. -/
def State.modeFails (s : State) (index sub : Nat) : Bool :=
  index == 0x1100 && sub == 7
    && (s.modes.wordUpset.extractLsb' 0 32 != s.modes.wordUpset.extractLsb' 32 32)

/-! ### READ (R471, R472, R477 to R480) -/

/-- The request as it stands in a message. -/
def askMessage (opcode : BitVec 8) (a : DictAsk) (value : List Byte) : List Byte :=
  dictBytes a.inst a.index a.sub opcode 0#8 a.tag a.type a.length a.offset value

/-- The reply to a request that carries no value. -/
def askReply (opcode status : BitVec 8) (a : DictAsk) (value : List Byte) : DictReply :=
  ⟨a.path, a.inst, a.index, a.sub, opcode, status, a.tag, rowType a.index.toNat a.sub.toNat,
   BitVec.ofNat 16 value.length, a.offset, value⟩

/-- Serve a request that changes no object: `answer` gives the status and the value. -/
def State.serveAsk (s : State) (reply opcode : BitVec 8) (a : DictAsk) (value : List Byte)
    (answer : State → BitVec 8 × List Byte) : State :=
  if !s.answers then s
  else
    let m := askMessage opcode a value
    match s.repeated a.path a.tag with
    | some rs => (rs.foldl (fun s r => s.sendReply r) s).finish a.path m
    | none =>
      if s.full a.path m then s.sendReply (askReply reply stBusy a [])
      else
        let x := answer s
        let r := askReply reply x.1 a x.2
        ((s.finish a.path m).sendReply r).storeReply r

/-- Checks 1 to 4 of a READ or an INFO: the row and the instance, or the refusal. -/
def State.askChecks (s : State) (a : DictAsk) (needsRead : Bool) : BitVec 8 ⊕ (ObjRow × Nat) :=
  if !s.dictOpen then .inl stNotReady
  else
    match objRow a.index.toNat a.sub.toNat with
    | none => .inl stNoObject
    | some row =>
      match s.covers row.kind a.inst with
      | none => .inl stNoObject
      | some is =>
        if groupSelector row.kind a.inst then .inl stRange
        else if (needsRead && row.access == 3) || !s.pathOk a.path then .inl stDenied
        else if a.type != 0#8 && a.type.toNat != row.type then .inl stType
        else .inr (row, is.headD 0)

/-- R472, of a read. -/
def readFits (row : ObjRow) (a : DictAsk) : Bool :=
  row.type == 8 || row.type == 9 || (a.offset == 0#24 && (a.length == 0#16 || a.length.toNat == row.size))

/-- The bytes that a read returns: from OFFSET, up to LENGTH, the end of the value or the path's limit. -/
def readPart (row : ObjRow) (a : DictAsk) (bs : List Byte) : List Byte :=
  let n := if a.length = 0#16 then row.size else a.length.toNat
  (bs.drop a.offset.toNat).take (min n (pathLimit a.path))

/-- The object's value at the beat of the read. A failed pair of state held during a job is raised as well (R445,
R480). -/
def execDictRead (a : DictAsk) (s : State) : Res :=
  let at_ := s.askChecks a true
  let answer (s : State) : BitVec 8 × List Byte :=
    match at_ with
    | .inl st => (st, [])
    | .inr (row, i) =>
      if !readFits row a then (stType, [])
      else if (row.type == 8 || row.type == 9) && decide (row.size ≤ a.offset.toNat) then (stRange, [])
      else if (s.objFails a.index.toNat a.sub.toNat i).isSome || s.modeFails a.index.toNat a.sub.toNat then (stComplement, [])
      else (stOk, readPart row a (s.objBytes row a.index.toNat a.sub.toNat i))
  let fails : Option (Nat × Nat × Nat) :=
    match at_ with
    | .inr (_, i) => if (answer s).1 = stComplement ∧ s.jobLoaded then s.objFails a.index.toNat a.sub.toNat i else none
    | _ => none
  let modes := (answer s).1 == stComplement && s.modeFails a.index.toNat a.sub.toNat
  let s := s.serveAsk 0x81#8 1#8 a [] answer
  let s := if modes then s.modesWritten else s
  .next (match fails with
    | some (t, where_, k) => s.mismatch t where_ k 211
    | none => s)

/-! ### INFO (R476) -/

/-- Table 17.6. -/
def infoWord (row : ObjRow) : W64 :=
  BitVec.ofNat 24 row.size ++ BitVec.ofNat 8 row.type ++ BitVec.ofNat 4 row.access ++ BitVec.ofNat 4 row.kind ++ 0#6
    ++ BitVec.ofBool row.pair ++ BitVec.ofBool row.deskOnly ++ 0#16

def execDictInfo (a : DictAsk) (s : State) : Res :=
  .next (s.serveAsk 0x83#8 3#8 a [] fun s =>
    match s.askChecks a false with
    | .inl st => (st, [])
    | .inr (row, _) => (stOk, bytesLE (infoWord row).toNat 8))

/-! ### Reserved opcodes (R475) -/

/-- Opcodes 1 to 3 are those of Table 17.5 that a requester sends. -/
def execDictReservedOpcode (opcode : BitVec 8) (a : DictAsk) (value : List (BitVec 8)) (s : State) : Res :=
  if 1 ≤ opcode.toNat ∧ opcode.toNat ≤ 3 then .next s
  else .next (s.serveAsk 0x80#8 opcode a value fun s => (if s.dictOpen then stDenied else stNotReady, []))

end Sys2Proof.Machine
end

