-- ==== Sys2Proof/Machine/Boot.lean ====
section
/-! DEFINITION. Resets and bring-up, the firmware image, keys, the identity key, attestation and the close fuses
(spec/19). -/

namespace Sys2Proof.Machine

/-! ### Resets (R512 to R514, R535) -/

/-- Power-on reset is released: phase 1 draws BOOT_NONCE, which is never 0, and reads the strap. -/
def execPowerOnResetRelease (good : PowerGood) (s : State) : Res :=
  if (s.boot.phase = .held ∨ s.boot.phase = .off) ∧ good.supply = true ∧ good.regulated = true ∧ good.rstN = true
      ∧ good.locked = true then
    let d := s.draw
    .next { d.1 with
      shp := { d.1.shp with bootNonce := if d.2 = 0#64 then 1#64 else d.2 },
      boot := { d.1.boot with phase := .rom, t0 := s.wall, kmode := good.kmode, outputsQuiet := false } }
  else .next s

/-- RST_N is held low for `ns` nanoseconds: less than 10 µs is ignored. -/
def execRstN (ns : BitVec 32) (s : State) : Res :=
  if ns.toNat < 10000 ∨ s.boot.phase = .off then .next s else .next s.coldBoot

/-- 2100.04: TRUE is answered, and then the module begins a cold boot; FALSE is out of range. -/
def execModuleReset (w : DictWrite) (s : State) : Res :=
  .next (s.serveWrite 0x2100 4 w (WriteRule.plain fun _ => wnum w == 1) false fun s _ => s.coldBoot)

/-! ### Firmware receipt and check (R519, R520) -/

/-- Word `k` of the image header, and its fields. -/
def Boot.fw (b : Boot) (k : Nat) : W64 := BitVec.ofNat 64 (b.image.readLE (8 * k) 8)
def Boot.imageBytes (b : Boot) : Nat := ((b.fw 2).extractLsb' 32 32).toNat
def Boot.sigOffset (b : Boot) : Nat := ((b.fw 2).setWidth 32).toNat
def Boot.entry (b : Boot) : Nat := ((b.fw 3).extractLsb' 32 32).toNat
def Boot.sigBytes (b : Boot) : Nat := ((b.fw 3).extractLsb' 16 16).toNat

/-- Bytes of Steward SRAM that the boot ROM gives the image. -/
def firmwareBytes : Nat := 8388608

/-- The segment at offset 0 has arrived, and every block below IMAGE_BYTES. -/
def Boot.imageWhole (b : Boot) : Bool :=
  SMap.get false b.blocks 0 && decide (b.imageBytes ≤ firmwareBytes)
    && (List.range (ceilDiv b.imageBytes 1024)).all fun k => SMap.get false b.blocks k

/-- The signature's message, 64 B of SHAKE256 over the bytes below SIG_OFFSET. -/
def Boot.signedMessage (b : Boot) : List Byte := shake256 (b.image.readBytes 0 b.sigOffset) 64

/-- The first check of R520 that the image fails; 0 = none. -/
def State.firmwareCause (s : State) : Nat :=
  let b := s.boot
  let stepping := (b.fw 0).setWidth 16
  if (b.fw 0).extractLsb' 32 32 ≠ 0x4657494D#32 ∨ (b.fw 0).extractLsb' 16 16 ≠ 1#16 then 1
  else if b.imageBytes < 1024 ∨ firmwareBytes < b.imageBytes ∨ b.sigOffset % 8 ≠ 0 ∨ b.sigOffset < 64
      ∨ b.sigBytes = 0 ∨ 1280 < b.sigBytes ∨ b.entry % 4 ≠ 0 ∨ b.sigOffset ≤ b.entry
      ∨ b.imageBytes < b.sigOffset + b.sigBytes then 2
  else if !Config.falconVerify Config.firmwareKey b.signedMessage (b.image.readBytes b.sigOffset b.sigBytes) then 3
  else if stepping ≠ 0#16 ∧ stepping ≠ s.part.stepping then 4
  else 0

/-- The check of a whole image: the firmware starts, or every segment is discarded; one completion in either case. -/
def State.checkFirmware (s : State) (g : List Byte) : State :=
  let b := s.boot
  match s.firmwareCause with
  | 0 =>
    let digest := BitVec.ofNat 256 (numLE (b.signedMessage.take 32))
    ({ s with boot := { b with phase := .firmware, version := b.fw 1, digest := digest } } : State).completion 5#4 resOk
      (segTag g) (BitVec.ofNat 64 b.imageBytes)
  | c =>
    ({ s with boot := { b with image := [], blocks := [] } } : State).completion 5#4 resDevice (segTag g)
      (BitVec.ofNat 64 c)

/-- Place a segment of KIND 5, if its place is good, and check the image once it is whole. -/
def State.takeFirmware (s : State) (g : List Byte) : State :=
  let o := segOffset g
  let bs := segData g
  if o % 1024 ≠ 0 ∨ firmwareBytes ≤ o ∨ bs.length ≠ 1024 then s.segmentDone.completion 5#4 resRange (segTag g) 5#64
  else
    let b := s.boot
    let s : State := { s with boot := { b with
      image := b.image.writeBytes o bs, blocks := SMap.set false b.blocks (o / 1024) true } }
    let s := s.segmentDone
    if s.boot.imageWhole then s.checkFirmware g else s

def execBulkFirmware (s : State) : Res :=
  match s.nextSegment [5] with
  | none => .next s
  | some g => .next (if s.boot.phase = .rom then s.takeFirmware g else s.refuseSegment g resRange)

/-! ### Identity (R524) -/

/-- "GWEMOND-ID-1" and the fused seed: what the random source of key generation is the SHAKE256 output of. -/
def identitySeed : List Byte :=
  [0x47#8, 0x57#8, 0x45#8, 0x4D#8, 0x4F#8, 0x4E#8, 0x44#8, 0x2D#8, 0x49#8, 0x44#8, 0x2D#8, 0x31#8]
    ++ (List.range 32).map Config.seedByte

def identityPublic : List Byte :=
  0x0A#8 :: (List.range 1792).map (Config.falconPublic fun n => shake256 identitySeed n)

/-- Bytes that hold a Falcon-1024 private key (PRESUMED, from the Falcon specification; log row 22). -/
def falconPrivateBytes : Nat := 2305

def identityPrivate : List Byte :=
  (List.range falconPrivateBytes).map (Config.falconPrivate fun n => shake256 identitySeed n)

/-- IDENTITY_STATE: the derived key against the certificate's. -/
def identityMatch : BitVec 8 := if identityPublic = certKey then 1#8 else 2#8

def execIdentityDerive (s : State) : Res :=
  if s.boot.phase ≠ .firmware ∨ s.boot.derived = true ∨ s.boot.failed = true then .next s
  else if s.part.idSeed then
    .next { s with boot := { s.boot with
      derived := true, idPublic := identityPublic, idPrivate := identityPrivate, idState := identityMatch } }
  else .next { s with boot := { s.boot with derived := true, idState := 0#8 } }

/-! ### Opening, end and failure of bring-up (R515 to R518) -/

/-- The tests of phase 4 end: halls with a failed word are off, and the dictionary opens. The training of F0 begins, for
which PERST of controller 0 goes high. -/
def execDictionaryOpen (failed : BitVec 192) (s : State) : Res :=
  if s.boot.phase ≠ .firmware ∨ s.boot.derived = false ∨ s.boot.failed = true then .next s
  else
    let off := failed &&& ~~~s.part.disabled
    .next { s with
      boot := { s.boot with phase := .opened, bist := true, bistHalls := off },
      integ := { s.integ with hallsOff := s.integ.hallsOff ||| off },
      flash := { s.flash with perst := 1#2 } }

/-- Controllers in use (8100.01). -/
def State.controllers (s : State) : List Nat := if s.flash.mode = 1#8 then [0, 1] else [0]

/-- What F0's training has given in each controller. -/
def State.f0Trained (s : State) (inits : List F0Init) : State :=
  s.controllers.foldl (fun s c =>
    let s : State := { s with flash := { s.flash with perst := setBit2 s.flash.perst c true } }
    match inits[c]? with
    | some i => s.f0Train c i
    | none => s) s

/-- Every stack is trained and filled with zeros, and its controller's state cleared (R182, R189). -/
def Cellars.zeroed (c : Cellars) : Cellars :=
  { c with ctl := (List.range 24).map (fun k => (k, { Stack.reset with trained := true })),
           invalid := none, rewritten := [] }

/-- The counts of 0x2000 begin (R300), and the first control window, with the settings written so far in force (R548). -/
def State.beginClock (s : State) : State :=
  let c := s.clock
  let req := if c.opCeiling.ult c.opRequest then c.opCeiling else c.opRequest
  let s := { s with clock := { c with
    windowStart := s.wall, opRequest := req, setpointNow := c.setpoint, powerLimitNow := c.powerLimit,
    flowNow := c.flow, powerModeNow := s.modes.powerMode, opCeilingNow := c.opCeiling,
    limitEffective := BitVec.ofNat 16 (effectiveLimit c.powerLimit.toNat c.coolantIn.toInt c.flow.toInt false) } }
  let s := s.windowOp
  { s with clock := { s.clock with
    slips := 0#32, emergencySteps := 0#32, thermalSteps := 0#32, opChanges := 0#32,
    stretched := 0, stretchPast := [0, 0, 0],
    regions := (s.clock.regions.map fun e => (e.1, { e.2 with count := 0, low := 0 })).filter fun e => e.2 != Region.idle } }

/-- The counters of 4011 count from the end of bring-up (R327). -/
def Port.beginCounts (p : Port) : Port :=
  { p with flitsTx := 0#64, flitsRx := 0#64, crcFails := 0#64, replays := 0#64, fecCorrected := 0#64,
           fecUncorrected := 0#64, stomped := 0#64 }

/-- Bells, posts and handle tables are cleared, counts begin, and SUBMIT's credits are granted. -/
def State.beginService (s : State) : State :=
  let s : State := { s with
    milestone := 0, cellar := [], cel := s.cel.zeroed, pb := PostsBells.reset,
    ld := { s.ld with handles := [], master := [] },
    integ := { s.integ with errorCount := 0#32, eventNext := 1#32 },
    kl := { s.kl with
      crcFails := 0#64, replays := 0#64, fecCorrected := 0#64, fecUncorrected := 0#64, linkDowns := 0#32,
      submitGranted := true },
    flash := { s.flash with errors := [] } }
  let s := (s.eo.ports.map (·.1)).foldl (fun s n => s.setPort n (s.port n).beginCounts) s.beginClock
  let x := s.chan chSubmit
  let s := s.setChan chSubmit { x with freed := x.freed + 256, unreported := true }
  if s.kl.up then s.kCtrl false chSubmit else s

/-- Bring-up ends `us` microseconds after t0, with F0 as its training left it. -/
def execBringupEnd (us : BitVec 32) (f0 : F0Init) (f1 : F0Init) (s : State) : Res :=
  if s.boot.phase ≠ .opened ∨ s.boot.failed = true ∨ s.integ.fatalState ≠ 0#8 ∨ s.tap.landsTaken = true then .next s
  else
    let s : State := { s with wall := max s.wall (s.boot.t0 + wallOfUs us.toNat) }
    let s := (s.f0Trained [f0, f1]).beginService
    .next { s with boot := { s.boot with
      phase := .ready, cellarDone := true, eotharDone := true, f0Done := true,
      bringupMs := BitVec.ofNat 32 (us.toNat / 1000) } }

/-- A Steward SRAM word fails its tests, or a stack fails training: the module stops, and the dictionary opens if it had
not. -/
def execBringupFailure (stack : Bool) (s : State) : Res :=
  if s.boot.failed = false ∧ s.integ.fatalState = 0#8
      ∧ s.boot.phase = (if stack then BootPhase.opened else BootPhase.firmware) then
    let s := s.stopModule
    .next { s with boot := { s.boot with
      phase := .opened, failed := true, cause := if stack then 7#8 else 6#8 } }
  else .next s

/-! ### Keys (R522) -/

def keyOk (w : DictWrite) : Bool := w.value.head? == some 0x0A#8

def execProgramKey (w : DictWrite) (s : State) : Res :=
  .next (s.serveWrite 0x2110 1 w (WriteRule.plain fun _ => keyOk w) false fun s _ =>
    { s with boot := { s.boot with
      programKey := Memory.writeBytes [] 0 w.value, programDigest := digest32 w.value } })

def execWeightKey (w : DictWrite) (s : State) : Res :=
  .next (s.serveWrite 0x2110 2 w (WriteRule.plain fun _ => keyOk w) false fun s _ =>
    { s with boot := { s.boot with
      weightKey := Memory.writeBytes [] 0 w.value, weightDigest := digest32 w.value } })

/-! ### Attestation (R526, R527) -/

/-- Bytes 0 to 359 of a report (Table 19.6), but for the length of its signature, with the state of this beat. -/
def State.reportBody (s : State) (nonce : List Byte) : List Byte :=
  let l := s.loader
  let ar12 : W64 := s.part.grade ++ BitVec.ofNat 8 s.enabledHalls ++ s.part.stepping ++ BitVec.ofNat 32 s.part.fuses
  let ar40 : W64 := l.gens.live ++ l.gens.old ++ s.job.loadState ++ s.boot.idState ++ s.modeWord
  wordsLE [0x4154535400010000#64] ++ fixLen 32 nonce ++ fixLen 16 s.part.serial ++ wordsLE [s.boot.version]
    ++ bytesLE s.boot.digest.toNat 32 ++ wordsLE [ar12] ++ (List.range 4).flatMap (fun t => bytesLE (s.part.disabledOf t).toNat 8)
    ++ bytesLE s.integ.hallsOff.toNat 24 ++ bytesLE s.boot.programDigest.toNat 32
    ++ bytesLE s.boot.weightDigest.toNat 32 ++ bytesLE s.job.digest.toNat 32
    ++ bytesLE (s.setDigest false).toNat 32 ++ bytesLE (s.setDigest true).toNat 32
    ++ wordsLE [ar40, BitVec.ofNat 64 s.milestone, s.shp.bootNonce, BitVec.ofNat 64 (s.boot.attestCount.toNat + 1)]

/-- 2130.01: a nonce begins a report; one is taken at a time. -/
def execAttestNonce (w : DictWrite) (s : State) : Res :=
  let rule : WriteRule := { WriteRule.plain fun _ => true with
    denied := s.boot.idState != 1#8, busy := fun _ => s.boot.attest.isSome }
  .next (s.serveWrite 0x2130 1 w rule true fun s _ =>
    { s with boot := { s.boot with attest := some ⟨w.path, w.tag, s.reportBody w.value⟩ } })

/-- The report is signed and written, and its COMPLETE is due. The length of the signature, and the signer's draw, are free
values. -/
def execAttestReportDone (s : State) : Res :=
  match s.boot.attest with
  | none => .next s
  | some a =>
    let d := s.draw
    let e := d.1.draw
    let s := e.1
    let n := d.2.toNat % 1281
    let body := a.body ++ bytesLE n 8
    let sig := (List.range n).map (Config.falconSign s.boot.idPrivate (shake256 body 64) e.2)
    let s : State := { s with boot := { s.boot with
      attest := none, attestCount := s.boot.attestCount + 1,
      report := Memory.writeBytes [] 0 (body ++ fixLen 1280 sig ++ List.replicate 8 0#8) } }
    .next (s.endOwed 0x2130 1 none true)

/-! ### The close fuses (R528, R529) -/

def debugCloseMagic : Nat := 0x44434C53
def testCloseMagic : Nat := 0x54434C53

/-- The newest pending write of FUSE_BLOW (newest = true), or the oldest, ends. -/
def endFuse (newest : Bool) (beat : Nat) (owed : List Owed) : List Owed :=
  let mark : List Owed → List Owed := fun l =>
    match l.findIdx? fun o => o.index == 0x2140#16 && o.sub == 1#8 && o.ended.isNone with
    | some i => l.modify i fun o => { o with ended := some (true, beat) }
    | none => l
  if newest then (mark owed.reverse).reverse else mark owed

def State.fuseEnded (s : State) (newest : Bool) : State :=
  { s with dict := { s.dict with owed := endFuse newest s.milestone s.dict.owed } }

/-- A write that blows a fuse: programming begins, or a fuse already blown ends at once. -/
def State.blowFuse (s : State) (test : Bool) : State :=
  if (if test then s.part.testClose else s.part.debugClose) then s.fuseEnded true
  else { s with boot := { s.boot with fuses := s.boot.fuses ++ [test] } }

/-- 2140.01: any value but the two is out of range, and a loaded job makes it BUSY. -/
def State.fuseRule (s : State) (w : DictWrite) : WriteRule :=
  { WriteRule.plain fun _ => wnum w == debugCloseMagic || wnum w == testCloseMagic with busy := fun _ => s.jobLoaded }

/-- A write of FUSE_BLOW that does not carry the test-close value. -/
def execFuseBlowDebugClose (w : DictWrite) (s : State) : Res :=
  if wnum w = testCloseMagic then .next s
  else .next (s.serveWrite 0x2140 1 w (s.fuseRule w) true fun s _ => s.blowFuse false)

/-- A write of FUSE_BLOW that does not carry the debug-close value. -/
def execFuseBlowTestClose (w : DictWrite) (s : State) : Res :=
  if wnum w = debugCloseMagic then .next s
  else .next (s.serveWrite 0x2140 1 w (s.fuseRule w) true fun s _ => s.blowFuse true)

/-- A private instruction in progress ends, and the TAP behaves as if BYPASS were selected. -/
def Tap.closed (t : Tap) : Tap :=
  if 0x80 ≤ t.ir.toNat ∧ t.ir ≠ 0xFF#8 then { t with reg := .bypass, dr := 0#355 } else t

/-- The fuse being programmed is blown, and its effects begin with the COMPLETE. -/
def execFuseProgrammed (s : State) : Res :=
  match s.boot.fuses with
  | [] => .next s
  | test :: rest =>
    let s : State := { s with
      boot := { s.boot with fuses := rest },
      part := { s.part with
        testClose := s.part.testClose || test, debugClose := s.part.debugClose || !test },
      tap := if test then s.tap.closed else s.tap }
    .next (s.fuseEnded false)

end Sys2Proof.Machine
end

