-- ==== Sys2Proof/Machine/Mctp.lean ====
section
/-! DEFINITION. The I3C target: MCTP messages and its dynamic address (spec/17 R488). The bytes of the MCTP control
messages are those of DMTF DSP0236 (PRESUMED, log row 23). -/

namespace Sys2Proof.Machine

/-- A response to an MCTP control command: message type, the request's instance without its request bit, command, completion
code, data. -/
def mctpAnswer (head command code : BitVec 8) (data : List Byte) : List Byte :=
  [0#8, head &&& 0x3F#8, command, code] ++ data

def mctpOk : BitVec 8 := 0#8
def mctpInvalidData : BitVec 8 := 2#8
def mctpInvalidLength : BitVec 8 := 3#8
def mctpUnsupported : BitVec 8 := 5#8

/-- A message leaves on the bus. -/
def State.i3cSend (s : State) (bs : List Byte) : State := { s with i3c := { s.i3c with sent := s.i3c.sent ++ [bs] } }

/-- A message is dropped and counted (8200.04). -/
def State.i3cDrop (s : State) : State := { s with i3c := { s.i3c with dropped := s.i3c.dropped + 1 } }

/-- I3C_ENTERPRISE, most significant byte first. -/
def enterpriseBytes : List Byte := (bytesLE 32473 4).reverse

/-- Set Endpoint ID: operations 0 and 1 set it; 2 resets it, which is for static EIDs, and 3 sets a flag of endpoints that
the module is not. -/
def State.setEid (s : State) (head op eid : BitVec 8) : State :=
  if op = 0#8 ∨ op = 1#8 then
    if eid = 0#8 ∨ eid = 0xFF#8 then s.i3cSend (mctpAnswer head 1#8 mctpInvalidData [])
    else
      ({ s with i3c := { s.i3c with eid := eid } } : State).i3cSend (mctpAnswer head 1#8 mctpOk [0#8, eid, 0#8])
  else s.i3cSend (mctpAnswer head 1#8 mctpInvalidData [])

/-- The control commands that R488 lists; any other is unsupported. Versions and the vendor's message set, which the spec
does not give, are free values. -/
def State.mctpControl (s : State) (head command : BitVec 8) (data : List Byte) : State :=
  let d := s.draw
  let free := bytesLE d.2.toNat 8
  match command with
  | 1#8 =>
    match data with
    | [op, eid] => s.setEid head op eid
    | _ => s.i3cSend (mctpAnswer head 1#8 mctpInvalidLength [])
  | 2#8 => s.i3cSend (mctpAnswer head 2#8 mctpOk [s.i3c.eid, 0#8, 0#8])
  | 4#8 => d.1.i3cSend (mctpAnswer head 4#8 mctpOk (1#8 :: free.take 4))
  | 5#8 => s.i3cSend (mctpAnswer head 5#8 mctpOk [1#8, 0x7F#8])
  | 6#8 => d.1.i3cSend (mctpAnswer head 6#8 mctpOk ([0xFF#8, 1#8] ++ enterpriseBytes ++ free.take 2))
  | _ => s.i3cSend (mctpAnswer head command mctpUnsupported [])

/-- A dictionary message: kept to be served, or answered BUSY where 64 are held. -/
def State.i3cDict (s : State) (m : List Byte) : State :=
  let b := dictBody m
  if s.full .i3c m then
    let op := if 1 ≤ (msgOpcode b).toNat ∧ (msgOpcode b).toNat ≤ 3 then msgOpcode b + 0x80#8 else 0x80#8
    s.sendReply ⟨.i3c, msgInst b, msgIndex b, msgSub b, op, stBusy, msgTag b,
      rowType (msgIndex b).toNat (msgSub b).toNat, 0#16, msgOffset b, []⟩
  else { s with dict := { s.dict with waiting := s.dict.waiting ++ [(.i3c, m)] } }

/-- An MCTP message has been reassembled: its type and the bytes after it. A control request is answered; a dictionary message
of the right enterprise is taken; any other message, or one of more than 1,045 B, is dropped. -/
def execMctpControlCommand (type : BitVec 8) (data : List (BitVec 8)) (s : State) : Res :=
  if !s.answers then .next s
  else if 1045 < data.length + 1 then .next s.i3cDrop
  else if type = 0#8 then
    match data with
    | head :: command :: rest =>
      if head.getLsbD 7 then .next (s.mctpControl head command rest) else .next s
    | _ => .next s.i3cDrop
  else if type = 0x7F#8 ∧ data.take 4 = enterpriseBytes then .next (s.i3cDict (data.drop 4))
  else .next s.i3cDrop

/-- The I3C controller assigns the target a dynamic address. -/
def execI3cDynamicAddress (address : BitVec 7) (s : State) : Res :=
  if s.answers then .next { s with i3c := { s.i3c with address := address.setWidth 8 } } else .next s

end Sys2Proof.Machine
end

