-- ==== Sys2Proof/Machine/Settings.lean ====
section
/-! DEFINITION. Writes of the dictionary's settings that have no row of their own, and HALLS_OFF (spec/17 R484, and the
rules that the chapters' object tables cite). -/

namespace Sys2Proof.Machine

/-! ### Which objects have a row of their own -/

/-- Objects, by 256 × index + subindex, whose writes are other commands. -/
def ownRows : List Nat :=
  [0x110001, 0x110008, 0x202003, 0x203003, 0x203004, 0x204004, 0x210004, 0x211001, 0x211002, 0x213001, 0x214001,
   0x402002, 0x414001, 0x422008, 0x423003, 0x601001, 0x601003, 0x601004, 0x604001, 0x706001, 0x900001, 0x900002,
   0xA01001, 0xA01004]

def ownRow (key : Nat) : Bool := ownRows.contains key || (decide (0x415000 ≤ key) && decide (key ≤ 0x415FFF))

/-! ### Ranges -/

/-- R321, of a circuit that is valid: an off port, one port twice, a class that no circuit carries, or an output class
that another entry claims. -/
def State.circuitOk (s : State) (entry : Nat) (w : BitVec 32) : Bool :=
  !w.getLsbD 31
    || (circuitIn w != circuitOut w && (s.port (circuitIn w)).role != 0#8 && (s.port (circuitOut w)).role != 0#8
      && w.extractLsb' 18 3 == 0#3
      && !s.eo.circuits.any fun e => e.1 != entry && circuitOut e.2 == circuitOut w
        && ((circuitCarries e.2 clsSched && circuitCarries w clsSched) || (circuitCarries e.2 clsColl && circuitCarries w clsColl)))

/-- R390: the rooms end within the Near stack. -/
def roomsFit (base perStack : Nat) : Bool := base % 65536 == 0 && decide (base + perStack * 65536 ≤ 51539607552)

/-- R435: 1,024 slots from a Cellar address lie within one stack. -/
def slotsFit (ca bytes : Nat) : Bool :=
  let code := ca / 2 ^ 38
  bytes % 512 == 0 && decide (code < 24) && decide (ca % 2 ^ 38 + 1024 * bytes ≤ stackCapacity code)

def portOrNone (n : Nat) : Bool := decide (n < 32) || n == 0xFF

/-- The value of a setting lies in range. -/
def State.settingOk (s : State) (key n : Nat) : Bool :=
  match key / 256 with
  | 0x2040 => decide (n ≤ 30)
  | 0x3301 => decide (65536 ≤ n)
  | 0x3330 => decide (n < 8192) || n == 0xFFFF
  | 0x4010 =>
    match key % 256 with
    | 1 => decide (n ≤ 2)
    | 3 => decide (n ≤ 200)
    | _ => decide (1 ≤ n ∧ n ≤ 3)
  | 0x4040 => s.circuitOk (key % 256 - 1) (BitVec.ofNat 32 n)
  | 0x4100 =>
    match key % 256 with
    | 2 => decide (1 ≤ n ∧ n ≤ 65536) && (s.ranks.gridCols == 0#16 || decide (n ≤ 65534))
    | 3 => decide (n < s.ranks.jobSize.toNat)
    | _ => true
  | 0x4110 =>
    match key % 256 with
    | 1 => n == 0 || decide (s.ranks.jobSize.toNat ≤ 65534)
    | 3 => decide (n ≤ 3)
    | _ => true
  | 0x4200 => key % 256 == 4 || decide (n ≤ 63)
  | 0x4220 => portOrNone n || (key % 256 == 2 && n == 0xFE)
  | 0x5010 => decide (n ≤ 15) || n == 0xFF
  | 0x5020 => if key % 256 = 3 then decide (1 ≤ n ∧ n ≤ 8192) else decide (2 ≤ n ∧ n ≤ 16777215)
  | 0x5030 =>
    match key % 256 with
    | 1 => roomsFit n s.desk.roomsPerStack.toNat
    | 2 => roomsFit s.desk.roomBase.toNat n
    | _ => decide (1 ≤ n)
  | 0x5031 =>
    match key % 256 with
    | 3 => decide (n ≤ 8191)
    | 5 => decide (n ≤ 8191)
    | 6 => n == 0 || n == 2
    | 7 => decide (1 ≤ n ∧ n ≤ 262144)
    | _ => decide (n ≤ 4095)
  | 0x6010 => decide (1 ≤ n / 2 ^ 60 % 16 ∧ n / 2 ^ 60 % 16 ≤ 3)
  | 0x6030 => if key % 256 = 4 then decide (10 ≤ n ∧ n ≤ 60000) else portOrNone n
  | 0x6041 =>
    match key % 256 with
    | 1 => slotsFit n s.loader.slotBytes.toNat
    | 2 => slotsFit s.loader.adapterCa.toNat n
    | _ => decide (n ≤ 1)
  | 0x7041 => decide (n ≤ 1)
  | 0x8100 => decide (n ≤ 1)
  | _ => true

/-! ### Effects -/

/-- 4010, 4120: a port's settings. A port that is set to off has its lanes unpowered (R302). -/
def State.writePortSetting (s : State) (key n i : Nat) : State :=
  let p := s.port i
  let v := BitVec.ofNat 8 n
  match key with
  | 0x401001 =>
    let s := s.setPort i { p with role := v }
    if n ≠ 0 then s
    else if p.up then s.portDown i
    else s.setPort i { s.port i with retraining := false, lanesOk := 0#4, lock := false }
  | 0x401003 => s.setPort i { p with channelNs := v }
  | 0x401004 => s.setPort i { p with channelType := v }
  | _ => s.setPort i { p with axis := v }

/-- 4100 to 4230: ranks, grid, discovery and time tree. -/
def State.writeShapeSetting (s : State) (key n : Nat) : State :=
  let r := s.ranks
  let x := s.shp
  match key with
  | 0x410001 => { s with ranks := { r with myRank := BitVec.ofNat 16 n } }
  | 0x410002 => { s with ranks := { r with jobSize := BitVec.ofNat 32 n } }
  | 0x410003 => { s with ranks := { r with deskRank := BitVec.ofNat 16 n } }
  | 0x411001 => { s with ranks := { r with gridCols := BitVec.ofNat 16 n } }
  | 0x411003 => { s with ranks := { r with gridWrap := BitVec.ofNat 8 n } }
  | 0x411004 => { s with ranks := { r with axisPorts := BitVec.ofNat 32 n } }
  | 0x420003 => { s with shp := { x with jobDiameter := BitVec.ofNat 8 n } }
  | 0x420004 => { s with shp := { x with transitOnly := n == 1 } }
  | 0x422002 => { s with shp := { x with timeParent := BitVec.ofNat 8 n, backup := false } }
  | _ => { s with shp := { x with timeParent2 := BitVec.ofNat 8 n } }

/-- 5010 to 5031: the front desk. -/
def State.writeDeskSetting (s : State) (key n : Nat) : State :=
  let d := s.desk
  match key with
  | 0x501002 => { s with desk := { d with steadyShape := BitVec.ofNat 8 n } }
  | 0x502003 => { s with desk := { d with lodgerLimit := BitVec.ofNat 16 n } }
  | 0x502004 => { s with desk := { d with maxContext := BitVec.ofNat 32 n } }
  | 0x503001 => { s with desk := { d with roomBase := BitVec.ofNat 64 n } }
  | 0x503002 => { s with desk := { d with roomsPerStack := BitVec.ofNat 32 n } }
  | 0x503003 => { s with desk := { d with groupTokens := BitVec.ofNat 16 n } }
  | 0x503004 => { s with desk := { d with groupRooms := BitVec.ofNat 16 n } }
  | 0x503101 => { s with desk := { d with mapHandle := BitVec.ofNat 16 n } }
  | 0x503102 => { s with desk := { d with launchHandle := BitVec.ofNat 16 n } }
  | 0x503103 => { s with desk := { d with launchBell := BitVec.ofNat 16 n } }
  | 0x503104 => { s with desk := { d with logitHandle := BitVec.ofNat 16 n } }
  | 0x503105 => { s with desk := { d with logitBell := BitVec.ofNat 16 n } }
  | 0x503106 => { s with desk := { d with logitFormat := BitVec.ofNat 8 n } }
  | _ => { s with desk := { d with vocab := BitVec.ofNat 32 n } }

/-- 6010.02 to 6041: the loader. -/
def State.writeLoaderSetting (s : State) (key n : Nat) : State :=
  let l := s.loader
  match key with
  | 0x601002 => { s with loader := { l with manifestLoc := BitVec.ofNat 128 n } }
  | 0x603001 => { s with loader := { l with upPort := BitVec.ofNat 8 n } }
  | 0x603002 => { s with loader := { l with downPort := BitVec.ofNat 8 n } }
  | 0x603003 => { s with loader := { l with peerPort := BitVec.ofNat 8 n } }
  | 0x603004 => { s with loader := { l with timeoutMs := BitVec.ofNat 16 n } }
  | 0x604101 => { s with loader := { l with adapterCa := BitVec.ofNat 64 n } }
  | 0x604102 => { s with loader := { l with slotBytes := BitVec.ofNat 32 n } }
  | 0x604103 => { s with loader := { l with bothPinned := BitVec.ofNat 8 n } }
  | _ => { s with loader := { l with fill := SMap.set 0#64 l.fill (key % 256 - 1) (BitVec.ofNat 64 n) } }

/-- Store a checked value at instance `i`. -/
def State.writeSetting (s : State) (key n i : Nat) : State :=
  match key / 0x100000 with
  | 2 => { s with clock := { s.clock with glycol := BitVec.ofNat 8 n } }
  | 3 =>
    match key / 256 with
    | 0x3230 => { s with por := { s.por with
        hallGroup := SMap.set 0#192 s.por.hallGroup (key % 256 - 1) (BitVec.ofNat 192 n) } }
    | 0x3301 => { s with pb := { s.pb with watchdogBeats := BitVec.ofNat 32 n } }
    | _ => { s with pb := { s.pb with
        watchBell := SMap.set 0xFFFF#16 s.pb.watchBell (64 * i + key % 256 - 1) (BitVec.ofNat 16 n) } }
  | 4 =>
    match key / 256 with
    | 0x4010 => s.writePortSetting key n i
    | 0x4120 => s.writePortSetting key n i
    | 0x4040 => { s with eo := { s.eo with
        circuits := SMap.set 0#32 s.eo.circuits (key % 256 - 1) (BitVec.ofNat 32 n) } }
    | _ => s.writeShapeSetting key n
  | 5 => s.writeDeskSetting key n
  | 6 => s.writeLoaderSetting key n
  | 7 => { s with integ := { s.integ with ledgerEvents := BitVec.ofNat 8 n } }
  | _ =>
    { s with flash := { s.flash with
        mode := BitVec.ofNat 8 n, perst := if n = 0 then s.flash.perst &&& 1#2 else s.flash.perst } }

/-- A WRITE to an object with no row of its own: checked under R478 and applied, or refused. -/
def execDictWrite (index : BitVec 16) (sub : BitVec 8) (w : DictWrite) (s : State) : Res :=
  let key := 256 * index.toNat + sub.toNat
  if ownRow key then .next s
  else .next (s.serveWrite index.toNat sub.toNat w (WriteRule.plain fun _ => s.settingOk key (wnum w)) false fun s i =>
    s.writeSetting key (wnum w) i)

/-- 7060.01: the halls of the write, with the BIST bits ORed in (R458, R517). -/
def execHallsOff (w : DictWrite) (s : State) : Res :=
  .next (s.serveWrite 0x7060 1 w (WriteRule.plain fun _ => true) false fun s _ =>
    { s with integ := { s.integ with hallsOff := BitVec.ofNat 192 (wnum w) ||| s.boot.bistHalls } })

end Sys2Proof.Machine
end

