-- ==== Sys2Proof/Machine/Tap.lean ====
section
/-! DEFINITION. The test access port and the boundary-scan chain (spec/20 R537 to R542). -/

namespace Sys2Proof.Machine

/-- What Capture-IR loads (R537). -/
def tapCaptureIr : BitVec 8 := 1#8

/-! ### The boundary-scan chain (Table 20.6) -/

/-- The control cell of a driver cell; F0's PERST and REFCLK outputs have none. -/
def controlCell (n : Nat) : Option Nat :=
  if n = 4 then some 5
  else if 9 ≤ n ∧ n < 297 then (if 1 ≤ (n - 9) % 9 ∧ (n - 9) % 9 ≤ 4 then some (9 + 9 * ((n - 9) / 9)) else none)
  else if 297 ≤ n ∧ n < 321 then (if (n - 297) % 3 = 1 then some (n - 1) else none)
  else if 322 ≤ n ∧ n < 330 then some 321
  else if 339 ≤ n ∧ n < 347 then some 338
  else none

/-- Output cells without a control cell. -/
def plainOutput (n : Nat) : Bool := decide (6 ≤ n ∧ n ≤ 8)

/-- The level that the TAP drives on the land of a driver cell: `none` in high impedance, and while the module drives
it. -/
def Tap.driven (t : Tap) (n : Nat) : Option Bool :=
  if t.drive = .module ∨ t.drive = .highZ then none
  else
    match controlCell n with
    | some c => if t.latch.getLsbD c then some (t.latch.getLsbD n) else none
    | none => if plainOutput n then some (t.latch.getLsbD n) else none

/-! ### Update-IR -/

/-- The lands are taken from the module: while it is out of reset, its links go down and its own work stops (R540). -/
def State.landsLost (s : State) : State :=
  if s.boot.phase = .held then s
  else
    let s := ((({ s with
      eo := { s.eo with ports := SMap.mapV Port.reset s.eo.ports Port.fallen },
      integ := { s.integ with halted := true } } : State).f0Lost 0).f0Lost 1)
    if s.kl.up then s.kDown else s

/-- An instruction comes into force by Update-IR. One that takes the lands stops the module; one that does not, after one that
did, begins a cold boot. Without supply the TAP does nothing. -/
def State.updateIr (s : State) (t : Tap) : State :=
  if s.boot.phase = .off then s
  else
    let was := s.tap.landsTaken
    let s : State := { s with tap := t }
    if t.landsTaken then (if was then s else s.landsLost)
    else if was then s.coldBoot
    else s

/-- An instruction over the boundary register. -/
def Tap.boundary (t : Tap) (ir : BitVec 8) (drive : LandDrive) (scan : BoundaryScan) : Tap :=
  { t with ir := ir, reg := .boundary, drive := drive, dr := scan.captured, latch := scan.shifted }

/-- An instruction over the bypass register, which captures 0. -/
def Tap.bypassed (t : Tap) (ir : BitVec 8) (drive : LandDrive) : Tap :=
  { t with ir := ir, reg := .bypass, drive := drive, dr := 0#355 }

/-- An instruction over the device identification register. -/
def Tap.identified (t : Tap) : Tap := { t with ir := 1#8, reg := .idcode, drive := .module, dr := tapId }

def execExtest (scan : BoundaryScan) (s : State) : Res := .next (s.updateIr (s.tap.boundary 0#8 .levels scan))
def execIdcode (s : State) : Res := .next (s.updateIr s.tap.identified)
def execSamplePreload (scan : BoundaryScan) (s : State) : Res := .next (s.updateIr (s.tap.boundary 2#8 .module scan))
def execHighz (s : State) : Res := .next (s.updateIr (s.tap.bypassed 3#8 .highZ))
def execClamp (s : State) : Res := .next (s.updateIr (s.tap.bypassed 4#8 .clamp))
def execExtestPulse (scan : BoundaryScan) (s : State) : Res :=
  .next (s.updateIr (s.tap.boundary 5#8 .pulses scan))
def execExtestTrain (scan : BoundaryScan) (s : State) : Res :=
  .next (s.updateIr (s.tap.boundary 6#8 .trains scan))
def execBypass (s : State) : Res := .next (s.updateIr (s.tap.bypassed 0xFF#8 .module))

/-- An opcode that Table 20.5 does not list: private before test-close, from 0x80 on; otherwise it selects the bypass
register. -/
def execTapPrivate (opcode : BitVec 8) (s : State) : Res :=
  let n := opcode.toNat
  if n < 7 ∨ n = 255 ∨ s.boot.phase = .off then .next s
  else if 128 ≤ n ∧ s.part.testClose = false then .refused .privateTap
  else .next (s.updateIr (s.tap.bypassed opcode .module))

/-- Test-Logic-Reset while an instruction that takes the lands is in force: IDCODE is selected, and the module begins a cold
boot. -/
def execTapLeaveExtest (s : State) : Res :=
  if s.tap.landsTaken then .next (s.updateIr s.tap.identified) else .next s

end Sys2Proof.Machine
end

