-- ==== Sys2Proof/Machine/Dispatch.lean ====
section
/-! DEFINITION. One arm per command: a direct call of the command's meaning. -/

namespace Sys2Proof.Machine

def exec (i : Instr) (s : State) : Host.Outcome State Fault Refusal :=
  match i with
  | .mcNop c => Sys2Proof.Machine.execMcNop c s
  | .mcEnd c => Sys2Proof.Machine.execMcEnd c s
  | .mcLoop c a => Sys2Proof.Machine.execMcLoop c a s
  | .mcWait c a => Sys2Proof.Machine.execMcWait c a s
  | .mcWaitResume c => Sys2Proof.Machine.execMcWaitResume c s
  | .shapeEntryResume vector c => Sys2Proof.Machine.execShapeEntryResume vector c s
  | .mcSignal c a => Sys2Proof.Machine.execMcSignal c a s
  | .mcSignalBellChange c => Sys2Proof.Machine.execMcSignalBellChange c s
  | .mcSeta c a => Sys2Proof.Machine.execMcSeta c a s
  | .mcSetw c a => Sys2Proof.Machine.execMcSetw c a s
  | .mcSetr c a => Sys2Proof.Machine.execMcSetr c a s
  | .mcSetkeys c a => Sys2Proof.Machine.execMcSetkeys c a s
  | .mcLoadw c a => Sys2Proof.Machine.execMcLoadw c a s
  | .mcAcc c a => Sys2Proof.Machine.execMcAcc c a s
  | .mcDrain c a => Sys2Proof.Machine.execMcDrain c a s
  | .drainQueueResume c => Sys2Proof.Machine.execDrainQueueResume c s
  | .ftqEntryVisible c => Sys2Proof.Machine.execFtqEntryVisible c s
  | .mcClear c bank => Sys2Proof.Machine.execMcClear c bank s
  | .mcStatus c clrmask => Sys2Proof.Machine.execMcStatus c clrmask s
  | .mcReservedOpcode c op => Sys2Proof.Machine.execMcReservedOpcode c op s
  | .vcNop h => Sys2Proof.Machine.execVcNop h s
  | .vcEnd h => Sys2Proof.Machine.execVcEnd h s
  | .br h a => Sys2Proof.Machine.execBr h a s
  | .brp h a => Sys2Proof.Machine.execBrp h a s
  | .mark h a => Sys2Proof.Machine.execMark h a s
  | .pace h a => Sys2Proof.Machine.execPace h a s
  | .paceRelease h => Sys2Proof.Machine.execPaceRelease h s
  | .vcWait h a => Sys2Proof.Machine.execVcWait h a s
  | .vcWaitResume h => Sys2Proof.Machine.execVcWaitResume h s
  | .vcSignal h a => Sys2Proof.Machine.execVcSignal h a s
  | .vcSignalBellChange h => Sys2Proof.Machine.execVcSignalBellChange h s
  | .desc h a => Sys2Proof.Machine.execDesc h a s
  | .psend h a => Sys2Proof.Machine.execPsend h a s
  | .precv h a => Sys2Proof.Machine.execPrecv h a s
  | .precvResume h => Sys2Proof.Machine.execPrecvResume h s
  | .vcStatus h a => Sys2Proof.Machine.execVcStatus h a s
  | .twait h a => Sys2Proof.Machine.execTwait h a s
  | .twaitResume h => Sys2Proof.Machine.execTwaitResume h s
  | .trel h a => Sys2Proof.Machine.execTrel h a s
  | .sadd h a => Sys2Proof.Machine.execSadd h a s
  | .ssub h a => Sys2Proof.Machine.execSsub h a s
  | .sand h a => Sys2Proof.Machine.execSand h a s
  | .sor h a => Sys2Proof.Machine.execSor h a s
  | .sxor h a => Sys2Proof.Machine.execSxor h a s
  | .sshl h a => Sys2Proof.Machine.execSshl h a s
  | .sshr h a => Sys2Proof.Machine.execSshr h a s
  | .ssra h a => Sys2Proof.Machine.execSsra h a s
  | .smul h a => Sys2Proof.Machine.execSmul h a s
  | .sli h a => Sys2Proof.Machine.execSli h a s
  | .slih h a => Sys2Proof.Machine.execSlih h a s
  | .sld h a => Sys2Proof.Machine.execSld h a s
  | .sst h a => Sys2Proof.Machine.execSst h a s
  | .iadd h a => Sys2Proof.Machine.execIadd h a s
  | .iadds h a => Sys2Proof.Machine.execIadds h a s
  | .iaddu h a => Sys2Proof.Machine.execIaddu h a s
  | .isub h a => Sys2Proof.Machine.execIsub h a s
  | .isubs h a => Sys2Proof.Machine.execIsubs h a s
  | .isubu h a => Sys2Proof.Machine.execIsubu h a s
  | .imul h a => Sys2Proof.Machine.execImul h a s
  | .imulh h a => Sys2Proof.Machine.execImulh h a s
  | .imin h a => Sys2Proof.Machine.execImin h a s
  | .imax h a => Sys2Proof.Machine.execImax h a s
  | .iabs h a => Sys2Proof.Machine.execIabs h a s
  | .ishl h a => Sys2Proof.Machine.execIshl h a s
  | .ishr h a => Sys2Proof.Machine.execIshr h a s
  | .isra h a => Sys2Proof.Machine.execIsra h a s
  | .vand h a => Sys2Proof.Machine.execVand h a s
  | .vor h a => Sys2Proof.Machine.execVor h a s
  | .vxor h a => Sys2Proof.Machine.execVxor h a s
  | .vnot h a => Sys2Proof.Machine.execVnot h a s
  | .vsel h a => Sys2Proof.Machine.execVsel h a s
  | .vmov h a => Sys2Proof.Machine.execVmov h a s
  | .vbcs h a => Sys2Proof.Machine.execVbcs h a s
  | .vli h a => Sys2Proof.Machine.execVli h a s
  | .viota h a => Sys2Proof.Machine.execViota h a s
  | .vperm h a => Sys2Proof.Machine.execVperm h a s
  | .vtos h a => Sys2Proof.Machine.execVtos h a s
  | .vsetl h a => Sys2Proof.Machine.execVsetl h a s
  | .icmp h a => Sys2Proof.Machine.execIcmp h a s
  | .fcmp h a => Sys2Proof.Machine.execFcmp h a s
  | .pand h a => Sys2Proof.Machine.execPand h a s
  | .por h a => Sys2Proof.Machine.execPor h a s
  | .pxor h a => Sys2Proof.Machine.execPxor h a s
  | .pnot h a => Sys2Proof.Machine.execPnot h a s
  | .pfirst h a => Sys2Proof.Machine.execPfirst h a s
  | .pcnt h a => Sys2Proof.Machine.execPcnt h a s
  | .fadd h a => Sys2Proof.Machine.execFadd h a s
  | .fsub h a => Sys2Proof.Machine.execFsub h a s
  | .fmul h a => Sys2Proof.Machine.execFmul h a s
  | .fma h a => Sys2Proof.Machine.execFma h a s
  | .fnms h a => Sys2Proof.Machine.execFnms h a s
  | .fmin h a => Sys2Proof.Machine.execFmin h a s
  | .fmax h a => Sys2Proof.Machine.execFmax h a s
  | .fabs h a => Sys2Proof.Machine.execFabs h a s
  | .fneg h a => Sys2Proof.Machine.execFneg h a s
  | .fscale h a => Sys2Proof.Machine.execFscale h a s
  | .frint h a => Sys2Proof.Machine.execFrint h a s
  | .fredmax h a => Sys2Proof.Machine.execFredmax h a s
  | .fredmin h a => Sys2Proof.Machine.execFredmin h a s
  | .cvtif h a => Sys2Proof.Machine.execCvtif h a s
  | .cvtfi h a => Sys2Proof.Machine.execCvtfi h a s
  | .cvtfb h a => Sys2Proof.Machine.execCvtfb h a s
  | .cvtfh h a => Sys2Proof.Machine.execCvtfh h a s
  | .cvtbf h a => Sys2Proof.Machine.execCvtbf h a s
  | .cvthf h a => Sys2Proof.Machine.execCvthf h a s
  | .cvtf8 h a => Sys2Proof.Machine.execCvtf8 h a s
  | .cvt8f h a => Sys2Proof.Machine.execCvt8f h a s
  | .mxpack h a => Sys2Proof.Machine.execMxpack h a s
  | .mxunpk h a => Sys2Proof.Machine.execMxunpk h a s
  | .inarrow h a => Sys2Proof.Machine.execInarrow h a s
  | .iwiden h a => Sys2Proof.Machine.execIwiden h a s
  | .exp2 h a => Sys2Proof.Machine.execExp2 h a s
  | .log2 h a => Sys2Proof.Machine.execLog2 h a s
  | .tanh h a => Sys2Proof.Machine.execTanh h a s
  | .sigm h a => Sys2Proof.Machine.execSigm h a s
  | .rcp h a => Sys2Proof.Machine.execRcp h a s
  | .rsqrt h a => Sys2Proof.Machine.execRsqrt h a s
  | .vld h a => Sys2Proof.Machine.execVld h a s
  | .vst h a => Sys2Proof.Machine.execVst h a s
  | .lld h a => Sys2Proof.Machine.execLld h a s
  | .lst h a => Sys2Proof.Machine.execLst h a s
  | .tld h a => Sys2Proof.Machine.execTld h a s
  | .xclr h a => Sys2Proof.Machine.execXclr h a s
  | .xadd h a => Sys2Proof.Machine.execXadd h a s
  | .xmac h a => Sys2Proof.Machine.execXmac h a s
  | .xrec h a => Sys2Proof.Machine.execXrec h a s
  | .xfold h a => Sys2Proof.Machine.execXfold h a s
  | .xdrain h a => Sys2Proof.Machine.execXdrain h a s
  | .xout h a => Sys2Proof.Machine.execXout h a s
  | .vcReservedOpcode h op => Sys2Proof.Machine.execVcReservedOpcode h op s
  | .cellarStreamArrive stack => Sys2Proof.Machine.execCellarStreamArrive stack s
  | .cellarBlockStart stack => Sys2Proof.Machine.execCellarBlockStart stack s
  | .cellarReadDone stack ecc => Sys2Proof.Machine.execCellarReadDone stack ecc s
  | .cellarWriteVisible stack => Sys2Proof.Machine.execCellarWriteVisible stack s
  | .refreshWindow stack corrected bad => Sys2Proof.Machine.execRefreshWindow stack corrected bad s
  | .stackHot stack temp => Sys2Proof.Machine.execStackHot stack temp s
  | .stackLimit stack temp => Sys2Proof.Machine.execStackLimit stack temp s
  | .descReceive p => Sys2Proof.Machine.execDescReceive p s
  | .descriptorStart p => Sys2Proof.Machine.execDescriptorStart p s
  | .descriptorWaitMet p => Sys2Proof.Machine.execDescriptorWaitMet p s
  | .chainFetch p => Sys2Proof.Machine.execChainFetch p s
  | .porterSourceAccess m => Sys2Proof.Machine.execPorterSourceAccess m s
  | .packetInject m => Sys2Proof.Machine.execPacketInject m s
  | .landingDeliver => Sys2Proof.Machine.execLandingDeliver s
  | .packetWrite m => Sys2Proof.Machine.execPacketWrite m s
  | .descriptorComplete m => Sys2Proof.Machine.execDescriptorComplete m s
  | .writeAckReceive => Sys2Proof.Machine.execWriteAckReceive s
  | .porterSignal m => Sys2Proof.Machine.execPorterSignal m s
  | .stageInject stage => Sys2Proof.Machine.execStageInject stage s
  | .postArrival post => Sys2Proof.Machine.execPostArrival post s
  | .postInputAccept post => Sys2Proof.Machine.execPostInputAccept post s
  | .postOutcome stage => Sys2Proof.Machine.execPostOutcome stage s
  | .refusalReinject stage => Sys2Proof.Machine.execRefusalReinject stage s
  | .readerReset h => Sys2Proof.Machine.execReaderReset h s
  | .watchdogFire => Sys2Proof.Machine.execWatchdogFire s
  | .bellHandAdd w => Sys2Proof.Machine.execBellHandAdd w s
  | .postDiscardHead w => Sys2Proof.Machine.execPostDiscardHead w s
  | .load fewest reads w => Sys2Proof.Machine.execLoad fewest reads w s
  | .programStart start reports => Sys2Proof.Machine.execProgramStart start reports s
  | .unload w => Sys2Proof.Machine.execUnload w s
  | .unloadDone => Sys2Proof.Machine.execUnloadDone s
  | .launch => Sys2Proof.Machine.execLaunch s
  | .commitPoint => Sys2Proof.Machine.execCommitPoint s
  | .commitConfirm => Sys2Proof.Machine.execCommitConfirm s
  | .referenceLost => Sys2Proof.Machine.execReferenceLost s
  | .stretchStart region codes => Sys2Proof.Machine.execStretchStart region codes s
  | .stretchEnd region codes => Sys2Proof.Machine.execStretchEnd region codes s
  | .clockSlip a b => Sys2Proof.Machine.execClockSlip a b s
  | .governorWindow m => Sys2Proof.Machine.execGovernorWindow m s
  | .opChange lowest later => Sys2Proof.Machine.execOpChange lowest later s
  | .emergencyStep temp power => Sys2Proof.Machine.execEmergencyStep temp power s
  | .dieTrip temp => Sys2Proof.Machine.execDieTrip temp s
  | .powerLoss => Sys2Proof.Machine.execPowerLoss s
  | .powerMode w => Sys2Proof.Machine.execPowerMode w s
  | .setpointW w => Sys2Proof.Machine.execSetpointW w s
  | .powerLimitW w => Sys2Proof.Machine.execPowerLimitW w s
  | .opCeiling w => Sys2Proof.Machine.execOpCeiling w s
  | .flowDeclared w => Sys2Proof.Machine.execFlowDeclared w s
  | .forceGuarded w => Sys2Proof.Machine.execForceGuarded w s
  | .portTrain port init => Sys2Proof.Machine.execPortTrain port init s
  | .flitReceive port flit fec frac => Sys2Proof.Machine.execFlitReceive port flit fec frac s
  | .nak port seq => Sys2Proof.Machine.execNak port seq s
  | .replayTimeout port => Sys2Proof.Machine.execReplayTimeout port s
  | .nakRepeat port => Sys2Proof.Machine.execNakRepeat port s
  | .retryDefeated port realigned => Sys2Proof.Machine.execRetryDefeated port realigned s
  | .circuitForward port flit fec => Sys2Proof.Machine.execCircuitForward port flit fec s
  | .idleInsert port => Sys2Proof.Machine.execIdleInsert port s
  | .credit port => Sys2Proof.Machine.execCredit port s
  | .creditReceive port => Sys2Proof.Machine.execCreditReceive port s
  | .reqReinject p => Sys2Proof.Machine.execReqReinject p s
  | .laneLost port lane => Sys2Proof.Machine.execLaneLost port lane s
  | .swap port lane => Sys2Proof.Machine.execSwap port lane s
  | .swapAck port lane => Sys2Proof.Machine.execSwapAck port lane s
  | .spareRelock port locked => Sys2Proof.Machine.execSpareRelock port locked s
  | .swapRequest w => Sys2Proof.Machine.execSwapRequest w s
  | .signpost entry w => Sys2Proof.Machine.execSignpost entry w s
  | .gateClasses w => Sys2Proof.Machine.execGateClasses w s
  | .gateDrained => Sys2Proof.Machine.execGateDrained s
  | .stewardMgtTake port => Sys2Proof.Machine.execStewardMgtTake port s
  | .hello port => Sys2Proof.Machine.execHello port s
  | .helloReceive => Sys2Proof.Machine.execHelloReceive s
  | .timeRequest frac => Sys2Proof.Machine.execTimeRequest frac s
  | .timeResponse frac => Sys2Proof.Machine.execTimeResponse frac s
  | .timeResponseReceive => Sys2Proof.Machine.execTimeResponseReceive s
  | .timeStep => Sys2Proof.Machine.execTimeStep s
  | .timeLock w => Sys2Proof.Machine.execTimeLock w s
  | .timeResync frac => Sys2Proof.Machine.execTimeResync frac s
  | .announce => Sys2Proof.Machine.execAnnounce s
  | .jobGate w => Sys2Proof.Machine.execJobGate w s
  | .gateClose => Sys2Proof.Machine.execGateClose s
  | .gateReport => Sys2Proof.Machine.execGateReport s
  | .gateOpen => Sys2Proof.Machine.execGateOpen s
  | .portDown port => Sys2Proof.Machine.execPortDown port s
  | .launchDecision => Sys2Proof.Machine.execLaunchDecision s
  | .followerLaunch => Sys2Proof.Machine.execFollowerLaunch s
  | .inboxRecord => Sys2Proof.Machine.execInboxRecord s
  | .stepBoundary => Sys2Proof.Machine.execStepBoundary s
  | .reckonerStart tower => Sys2Proof.Machine.execReckonerStart tower s
  | .reckonerColumnDone tower => Sys2Proof.Machine.execReckonerColumnDone tower s
  | .weightLoadSet w => Sys2Proof.Machine.execWeightLoadSet w s
  | .weightLoadInPlace w => Sys2Proof.Machine.execWeightLoadInPlace w s
  | .switch w => Sys2Proof.Machine.execSwitch w s
  | .barrierClose w => Sys2Proof.Machine.execBarrierClose w s
  | .barrierOpen w => Sys2Proof.Machine.execBarrierOpen w s
  | .adapterLoad w => Sys2Proof.Machine.execAdapterLoad w s
  | .loaderRequestStart => Sys2Proof.Machine.execLoaderRequestStart s
  | .flashReadComplete read ok data => Sys2Proof.Machine.execFlashReadComplete read ok data s
  | .passAlong => Sys2Proof.Machine.execPassAlong s
  | .shardRequest image => Sys2Proof.Machine.execShardRequest image s
  | .shardLanded => Sys2Proof.Machine.execShardLanded s
  | .shardTimeout => Sys2Proof.Machine.execShardTimeout s
  | .loaderTargetWrite => Sys2Proof.Machine.execLoaderTargetWrite s
  | .faultRaise found => Sys2Proof.Machine.execFaultRaise found s
  | .halt again => Sys2Proof.Machine.execHalt again s
  | .rewindResume => Sys2Proof.Machine.execRewindResume s
  | .jobFatalStop => Sys2Proof.Machine.execJobFatalStop s
  | .jobStopReceive => Sys2Proof.Machine.execJobStopReceive s
  | .moduleFatal index => Sys2Proof.Machine.execModuleFatal index s
  | .dictRead a => Sys2Proof.Machine.execDictRead a s
  | .dictInfo a => Sys2Proof.Machine.execDictInfo a s
  | .dictWrite index sub w => Sys2Proof.Machine.execDictWrite index sub w s
  | .dictReservedOpcode opcode a value => Sys2Proof.Machine.execDictReservedOpcode opcode a value s
  | .complete => Sys2Proof.Machine.execComplete s
  | .eotharDictRepeat => Sys2Proof.Machine.execEotharDictRepeat s
  | .hallsOff w => Sys2Proof.Machine.execHallsOff w s
  | .kloderInit groups body => Sys2Proof.Machine.execKloderInit groups body s
  | .kloderFrameReceive frame fec => Sys2Proof.Machine.execKloderFrameReceive frame fec s
  | .kloderNak channel seq => Sys2Proof.Machine.execKloderNak channel seq s
  | .kloderReplayTimeout channel => Sys2Proof.Machine.execKloderReplayTimeout channel s
  | .kloderNakRepeat channel => Sys2Proof.Machine.execKloderNakRepeat channel s
  | .kloderRetrain => Sys2Proof.Machine.execKloderRetrain s
  | .kloderGroupLoss group => Sys2Proof.Machine.execKloderGroupLoss group s
  | .bulkStaging => Sys2Proof.Machine.execBulkStaging s
  | .bulkWeightStream => Sys2Proof.Machine.execBulkWeightStream s
  | .bulkFlashWrite => Sys2Proof.Machine.execBulkFlashWrite s
  | .bulkFlashFlush => Sys2Proof.Machine.execBulkFlashFlush s
  | .bulkFirmware => Sys2Proof.Machine.execBulkFirmware s
  | .bulkReserved => Sys2Proof.Machine.execBulkReserved s
  | .event => Sys2Proof.Machine.execEvent s
  | .outboundSend => Sys2Proof.Machine.execOutboundSend s
  | .powerOnResetRelease good => Sys2Proof.Machine.execPowerOnResetRelease good s
  | .rstN ns => Sys2Proof.Machine.execRstN ns s
  | .moduleReset w => Sys2Proof.Machine.execModuleReset w s
  | .identityDerive => Sys2Proof.Machine.execIdentityDerive s
  | .dictionaryOpen failed => Sys2Proof.Machine.execDictionaryOpen failed s
  | .bringupEnd us f0 f1 => Sys2Proof.Machine.execBringupEnd us f0 f1 s
  | .bringupFailure stack => Sys2Proof.Machine.execBringupFailure stack s
  | .programKey w => Sys2Proof.Machine.execProgramKey w s
  | .weightKey w => Sys2Proof.Machine.execWeightKey w s
  | .attestNonce w => Sys2Proof.Machine.execAttestNonce w s
  | .attestReportDone => Sys2Proof.Machine.execAttestReportDone s
  | .fuseBlowDebugClose w => Sys2Proof.Machine.execFuseBlowDebugClose w s
  | .fuseBlowTestClose w => Sys2Proof.Machine.execFuseBlowTestClose w s
  | .fuseProgrammed => Sys2Proof.Machine.execFuseProgrammed s
  | .extest scan => Sys2Proof.Machine.execExtest scan s
  | .idcode => Sys2Proof.Machine.execIdcode s
  | .samplePreload scan => Sys2Proof.Machine.execSamplePreload scan s
  | .highz => Sys2Proof.Machine.execHighz s
  | .clamp => Sys2Proof.Machine.execClamp s
  | .extestPulse scan => Sys2Proof.Machine.execExtestPulse scan s
  | .extestTrain scan => Sys2Proof.Machine.execExtestTrain scan s
  | .bypass => Sys2Proof.Machine.execBypass s
  | .tapPrivate opcode => Sys2Proof.Machine.execTapPrivate opcode s
  | .tapLeaveExtest => Sys2Proof.Machine.execTapLeaveExtest s
  | .mctpControlCommand type data => Sys2Proof.Machine.execMctpControlCommand type data s
  | .i3cDynamicAddress address => Sys2Proof.Machine.execI3cDynamicAddress address s
  | .f0LinkDown ctrl next => Sys2Proof.Machine.execF0LinkDown ctrl next s
  | .flashWriteComplete command ok => Sys2Proof.Machine.execFlashWriteComplete command ok s
  | .pcieInboundRequest req => Sys2Proof.Machine.execPcieInboundRequest req s

end Sys2Proof.Machine
end

