-- ==== Sys2Proof/WellFormed.lean ====
section
/-! DEFINITION. Which commands could reach the module: operands that a wire, a sensor or a message of spec/ can carry. -/

namespace Sys2Proof

/-- LENGTH of a dictionary message has 16 bits, and the value that it tells is the value that it carries (Table 17.4). -/
def DictWrite.wf (w : DictWrite) : Bool := w.value.length == w.length.toNat

/-- A flit's CREDIT body and an INIT flit give ten buffer depths (R346). -/
def InitInfo.wf (i : InitInfo) : Bool := i.depths.length == 10

/-- A control window measures four towers' dies and 152 regions (spec/10). -/
def GovInputs.wf (m : GovInputs) : Bool := m.upper.length == 4 && m.lower.length == 4 && m.regions.length == 152

/-- A payload is at most 1,040 B, in words of 8 B (R497). -/
def KloderFrame.wf (f : KloderFrame) : Bool := decide (f.payload.length ≤ 1040) && f.payload.length % 8 == 0

/-- WHERE has 17 codes besides 0 (Table 16.10). -/
def Found.wf (f : Found) : Bool := decide (1 ≤ f.place.toNat) && decide (f.place.toNat ≤ 17)

/-- A write carries the bytes that its length tells, a read none. -/
def PcieRequest.wf (r : PcieRequest) : Bool := r.data.length == if r.write then r.len.toNat else 0

/-- Opcodes that Table 3.3 and Table 4.3 leave out. -/
def reservedMatrix (op : Nat) : Bool := decide (9 ≤ op ∧ op < 16) || decide (21 ≤ op)
def reservedVector (op : Nat) : Bool :=
  decide (0x0E ≤ op ∧ op < 0x10) || decide (0x1D ≤ op ∧ op < 0x20) || decide (0x2E ≤ op ∧ op < 0x30)
    || decide (0x3C ≤ op ∧ op < 0x40) || decide (0x48 ≤ op ∧ op < 0x50) || decide (0x5D ≤ op ∧ op < 0x60)
    || decide (0x6C ≤ op ∧ op < 0x70) || decide (0x76 ≤ op ∧ op < 0x80) || decide (0x85 ≤ op ∧ op < 0x90)
    || decide (0x97 ≤ op)

/-- The command could come. -/
def Instr.wf : Instr → Bool
  | .bellHandAdd w | .postDiscardHead w | .load _ _ w | .unload w | .powerMode w | .setpointW w | .powerLimitW w
  | .opCeiling w | .flowDeclared w | .forceGuarded w | .swapRequest w | .signpost _ w | .gateClasses w | .timeLock w
  | .jobGate w | .weightLoadSet w | .weightLoadInPlace w | .switch w | .barrierClose w | .barrierOpen w
  | .adapterLoad w | .hallsOff w | .moduleReset w | .programKey w | .weightKey w | .attestNonce w
  | .fuseBlowDebugClose w | .fuseBlowTestClose w => w.wf
  | .dictWrite _ _ w => w.wf
  | .governorWindow m => m.wf
  | .portTrain _ i => (i.map InitInfo.wf).getD true
  | .programStart _ rs => decide (rs.length ≤ 65536)
  | .faultRaise f => f.wf
  | .kloderFrameReceive f _ => f.wf
  | .kloderInit groups body => groups != 0#2 && body.length == 72
  | .flashReadComplete _ _ data => decide (data.length ≤ 131072)
  | .pcieInboundRequest r => r.wf
  | .dictReservedOpcode op _ _ => !(decide (1 ≤ op.toNat) && decide (op.toNat ≤ 3))
  | .mcReservedOpcode _ op => reservedMatrix op.toNat
  | .vcReservedOpcode _ op => reservedVector op.toNat
  | .tld _ a => a.handle &&& 1#12 == a.handle
  | .tapPrivate op => decide (7 ≤ op.toNat) && op != 0xFF#8
  | .mcNop _ | .mcEnd _ | .mcLoop _ _ | .mcWait _ _ | .mcWaitResume _ | .shapeEntryResume _ _ | .mcSignal _ _
  | .mcSignalBellChange _ | .mcSeta _ _ | .mcSetw _ _ | .mcSetr _ _ | .mcSetkeys _ _ | .mcLoadw _ _ | .mcAcc _ _
  | .mcDrain _ _ | .drainQueueResume _ | .ftqEntryVisible _ | .mcClear _ _ | .mcStatus _ _ | .vcNop _ | .vcEnd _
  | .br _ _ | .brp _ _ | .mark _ _ | .pace _ _ | .paceRelease _ | .vcWait _ _ | .vcWaitResume _ | .vcSignal _ _
  | .vcSignalBellChange _ | .desc _ _ | .psend _ _ | .precv _ _ | .precvResume _ | .vcStatus _ _ | .twait _ _
  | .twaitResume _ | .trel _ _ | .sadd _ _ | .ssub _ _ | .sand _ _ | .sor _ _ | .sxor _ _ | .sshl _ _ | .sshr _ _
  | .ssra _ _ | .smul _ _ | .sli _ _ | .slih _ _ | .sld _ _ | .sst _ _ | .iadd _ _ | .iadds _ _ | .iaddu _ _
  | .isub _ _ | .isubs _ _ | .isubu _ _ | .imul _ _ | .imulh _ _ | .imin _ _ | .imax _ _ | .iabs _ _ | .ishl _ _
  | .ishr _ _ | .isra _ _ | .vand _ _ | .vor _ _ | .vxor _ _ | .vnot _ _ | .vsel _ _ | .vmov _ _ | .vbcs _ _
  | .vli _ _ | .viota _ _ | .vperm _ _ | .vtos _ _ | .vsetl _ _ | .icmp _ _ | .fcmp _ _ | .pand _ _ | .por _ _
  | .pxor _ _ | .pnot _ _ | .pfirst _ _ | .pcnt _ _ | .fadd _ _ | .fsub _ _ | .fmul _ _ | .fma _ _ | .fnms _ _
  | .fmin _ _ | .fmax _ _ | .fabs _ _ | .fneg _ _ | .fscale _ _ | .frint _ _ | .fredmax _ _ | .fredmin _ _
  | .cvtif _ _ | .cvtfi _ _ | .cvtfb _ _ | .cvtfh _ _ | .cvtbf _ _ | .cvthf _ _ | .cvtf8 _ _ | .cvt8f _ _
  | .mxpack _ _ | .mxunpk _ _ | .inarrow _ _ | .iwiden _ _ | .exp2 _ _ | .log2 _ _ | .tanh _ _ | .sigm _ _ | .rcp _ _
  | .rsqrt _ _ | .vld _ _ | .vst _ _ | .lld _ _ | .lst _ _ | .xclr _ _ | .xadd _ _ | .xmac _ _ | .xrec _ _
  | .xfold _ _ | .xdrain _ _ | .xout _ _ | .cellarStreamArrive _ | .cellarBlockStart _ | .cellarReadDone _ _
  | .cellarWriteVisible _ | .refreshWindow _ _ _ | .stackHot _ _ | .stackLimit _ _ | .descReceive _
  | .descriptorStart _ | .descriptorWaitMet _ | .chainFetch _ | .porterSourceAccess _ | .packetInject _
  | .landingDeliver | .packetWrite _ | .descriptorComplete _ | .writeAckReceive | .porterSignal _ | .stageInject _
  | .postArrival _ | .postInputAccept _ | .postOutcome _ | .refusalReinject _ | .readerReset _ | .watchdogFire
  | .unloadDone | .launch | .commitPoint | .commitConfirm | .referenceLost | .stretchStart _ _ | .stretchEnd _ _
  | .clockSlip _ _ | .opChange _ _ | .emergencyStep _ _ | .dieTrip _ | .powerLoss | .flitReceive _ _ _ _ | .nak _ _
  | .replayTimeout _ | .nakRepeat _ | .retryDefeated _ _ | .circuitForward _ _ _ | .idleInsert _ | .credit _
  | .creditReceive _ | .reqReinject _ | .laneLost _ _ | .swap _ _ | .swapAck _ _ | .spareRelock _ _ | .gateDrained
  | .stewardMgtTake _ | .hello _ | .helloReceive | .timeRequest _ | .timeResponse _ | .timeResponseReceive
  | .timeStep | .timeResync _ | .announce | .gateClose | .gateReport | .gateOpen | .portDown _ | .launchDecision
  | .followerLaunch | .inboxRecord | .stepBoundary | .reckonerStart _ | .reckonerColumnDone _ | .loaderRequestStart
  | .passAlong | .shardRequest _ | .shardLanded | .shardTimeout | .loaderTargetWrite | .halt _ | .rewindResume
  | .jobFatalStop | .jobStopReceive | .moduleFatal _ | .dictRead _ | .dictInfo _ | .complete | .eotharDictRepeat
  | .kloderNak _ _ | .kloderReplayTimeout _ | .kloderNakRepeat _ | .kloderRetrain | .kloderGroupLoss _ | .bulkStaging
  | .bulkWeightStream | .bulkFlashWrite | .bulkFlashFlush | .bulkFirmware | .bulkReserved | .event | .outboundSend
  | .powerOnResetRelease _ | .rstN _ | .identityDerive | .dictionaryOpen _ | .bringupEnd _ _ _ | .bringupFailure _
  | .attestReportDone | .fuseProgrammed | .extest _ | .idcode | .samplePreload _ | .highz | .clamp | .extestPulse _
  | .extestTrain _ | .bypass | .tapLeaveExtest | .mctpControlCommand _ _ | .i3cDynamicAddress _ | .f0LinkDown _ _
  | .flashWriteComplete _ _ => true

end Sys2Proof
end

