-- ==== Sys2Proof/Safety.lean ====
section
/-! DEFINITION. What counts as a safe run of the module, in the terms that claims use. -/

namespace Sys2Proof.Machine

/-- The module is stopped by a module-fatal error or a failed bring-up (R443, R518). -/
def State.dead (s : State) : Bool := s.integ.fatalState == 1#8

/-- The job has stopped for a job-fatal error, which needs a program restart (R442). -/
def State.stopped (s : State) : Bool := s.job.loadState == 8#8

/-- The byte memories stand in their canonical form. -/
def State.memoriesOk (s : State) : Prop :=
  (∀ e ∈ s.pantry, Memory.wf e.2 = true) ∧ (∀ e ∈ s.larder, Memory.wf e.2 = true)
    ∧ (∀ e ∈ s.cellar, Memory.wf e.2 = true)

/-- The close fuses, once blown, stay blown (R529). -/
def fusesKept (s t : State) : Prop :=
  (s.part.debugClose = true → t.part.debugClose = true) ∧ (s.part.testClose = true → t.part.testClose = true)

/-- A step that ends in a next state. -/
def stepsTo (s t : State) : Prop := step s = Host.Outcome.next t

/-- A command that the module can be given runs without a fault or a refusal. -/
def runs (c : Instr) (s : State) : Prop := ∃ t, exec c s = Host.Outcome.next t

/-- A run of `n` steps is safe: it ends in a next state, and the module is not dead there. -/
def safeRun (n : Nat) (s : State) : Prop := ∃ t, Host.Core.run Sys2Proof.core n s = Host.Outcome.next t ∧ t.dead = false

end Sys2Proof.Machine
end

