-- ==== Sys2Proof/Certificates/Slice0/Obligations.lean ====
section
/-! DEFINITION. What is stated about the module: the vocabulary of the claims, and one Prop for each obligation. -/

namespace Sys2Proof.Claims

open Sys2Proof.Machine

/-! ### The words of the claims: accesses under way, and time -/

/-- On whatever beats come, as the accesses under way act, `P` holds. -/
def Through (s : State) (P : State → Prop) : Prop := ∀ bs : List Nat, P (bs.foldl State.toBeat s)

/-- Cores and movers go on, whatever the accesses under way meet. -/
def calm (s : State) : Prop := Through s fun s => s.moving = true

/-- `u` is `s` on its own or a later beat: the accesses under way that stand before that beat have acted. -/
def onward (s u : State) : Prop := ∃ bs : List Nat, u = bs.foldl State.toBeat s

/-- What the accesses under way are still to do, oldest first. -/
def underWay (s : State) : List (List Act × Nat) := (s.ld.runs.filter Run.pends).map fun r => (r.acts, r.done)

/-- The accesses `acts` are now under way too, and what they read goes to `k`. -/
def leavesToDo (u t : State) (acts : List Act) (k : Sink) : Prop :=
  underWay t = underWay u ++ [(acts, 0)] ∧ ∃ r ∈ t.ld.runs, r.acts = acts ∧ r.done = 0 ∧ r.got = [] ∧ r.sink = k

/-- A run, without where it brings what it reads. -/
def unsunk (r : Run) : Run := { r with sink := .none }

/-! ### The words of the claims: vector cores -/

/-- The hall exists on this part, and on whatever beat its vector core issues, it issues `i`: the job runs, the core is not
held, and the word at its address decodes to `i` (R13, R112). -/
def VcReady (h : HallId) (i : Instr) (s : State) : Prop :=
  s.hallEnabled h.val = true ∧ Through s fun s => s.vcIssues h i = true

/-- From `u` to `t` the vector core of hall `h` changes, and what loads under way may still write of a register that the
core has written since (R114); nothing else. -/
def onlyVector (h : HallId) (u t : State) : Prop :=
  t = { u with vc := t.vc, ld := { u.ld with runs := t.ld.runs } } ∧ (∀ k, k ≠ h.val → t.vcore k = u.vcore k)
    ∧ t.ld.runs.map unsunk = u.ld.runs.map unsunk

/-- Bell and amount of each SIGNAL that has not changed its bell. -/
def sigOf (l : List PendSignal) : List (BitVec 13 × BitVec 16) := l.map fun g => (g.bell, g.inc)

/-- What no instruction on registers changes in its core. -/
def vcKeeps (v v' : VCore) : Prop :=
  v'.running = v.running ∧ v'.hold = v.hold ∧ v'.shape = v.shape ∧ sigOf v'.signals = sigOf v.signals

/-- The core goes on to the next word, and its status word gains the bits `f` (R112, R140). -/
def vcGoesOn (v v' : VCore) (f : BitVec 8) : Prop :=
  vcKeeps v v' ∧ v'.pc = v.pc + 1 ∧ v'.status = v.status ||| f

/-- No register but vector register `d`. -/
def onlyV (v v' : VCore) (d : BitVec 6) : Prop :=
  (∀ k, k ≠ d → v'.vreg k = v.vreg k) ∧ v'.s = v.s ∧ v'.p = v.p ∧ v'.es = v.es ∧ v'.mark = v.mark

/-- Scalar register `d` takes `x`, s0 discards it (R111); no other register changes. -/
def scalarTakes (v v' : VCore) (d : BitVec 5) (x : W64) : Prop :=
  (∀ k, v'.sreg k = if k = d ∧ d ≠ 0#5 then x else v.sreg k) ∧ v'.v = v.v ∧ v'.p = v.p ∧ v'.es = v.es ∧ v'.mark = v.mark

/-- Predicate `d` takes `x`, p0 discards it (R111); no other register changes. -/
def predTakes (v v' : VCore) (d : BitVec 3) (x : BitVec 256) : Prop :=
  (∀ k, v'.preg k = if k = d ∧ d ≠ 0#3 then x else v.preg k) ∧ v'.v = v.v ∧ v'.s = v.s ∧ v'.es = v.es ∧ v'.mark = v.mark

/-- Exact-sum register `d` takes the elements `f`; no other register changes. -/
def sumTakes (v v' : VCore) (d : BitVec 3) (f : Nat → Acc) : Prop :=
  (∀ k i, i < 256 → v'.esElem k i = if k = d then f i else v.esElem k i)
    ∧ v'.v = v.v ∧ v'.s = v.s ∧ v'.p = v.p ∧ v'.mark = v.mark

/-- No register changes at all. -/
def noReg (v v' : VCore) : Prop := v'.v = v.v ∧ v'.s = v.s ∧ v'.p = v.p ∧ v'.es = v.es ∧ v'.mark = v.mark

/-- R118: active lanes of `d` take `f`; inactive ones keep the old value, or read 0 where ZERO = 1. -/
def lanesTake (v v' : VCore) (d : BitVec 6) (pred : BitVec 3) (zero : Bool) (f : Nat → W32) : Prop :=
  onlyV v v' d ∧ ∀ i, i < 256 → lane (v'.vreg d) i =
    if (v.preg pred).getLsbD i then f i else if zero then 0#32 else lane (v.vreg d) i

/-- INS_RESERVED where the FORM is reserved, or is not 0 on an FP32-only instruction (R113, Table 4.4). -/
def formBits (fp32 : Bool) (form : BitVec 2) : BitVec 8 :=
  if form = 3#2 ∨ (fp32 = true ∧ form ≠ 0#2) then 0x20#8 else 0#8

/-- Element width of a FORM (Table 4.2, R113). -/
def elemWidth (form : BitVec 2) : Nat := if form = 1#2 then 16 else if form = 2#2 then 8 else 32

/-- The instruction `i` of hall `h` completes on beat `b`, and leaves the core as `Q` says. -/
def vcDoesAt (h : HallId) (i : Instr) (Q : State → Nat → VCore → VCore → Prop) : Prop :=
  ∀ s, VcReady h i s → ∃ t b, exec i s = .next t ∧ onlyVector h (s.toBeat b) t
    ∧ Q s b ((s.toBeat b).vcore h) (t.vcore h)

/-- The same of an instruction whose claim needs no beat. -/
def vcDoes (h : HallId) (i : Instr) (Q : VCore → VCore → Prop) : Prop := vcDoesAt h i fun _ _ => Q

/-- Scalar instructions with two sources, and what they compute (Table 4.3). -/
def scalarOps (h : HallId) (a : SArgs) : List (Instr × (W64 → W64 → W64)) :=
  [(.sadd h a, fun x y => BitVec.ofNat 64 (x.toNat + y.toNat)),
   (.ssub h a, fun x y => BitVec.ofInt 64 (x.toInt - y.toInt)),
   (.sand h a, fun x y => x &&& y),
   (.sor h a, fun x y => x ||| y),
   (.sxor h a, fun x y => x ^^^ y),
   (.sshl h a, fun x y => BitVec.ofNat 64 (x.toNat * 2 ^ (y.toNat % 64))),
   (.sshr h a, fun x y => BitVec.ofNat 64 (x.toNat / 2 ^ (y.toNat % 64))),
   (.ssra h a, fun x y => BitVec.ofInt 64 (x.toInt / 2 ^ (y.toNat % 64))),
   (.smul h a, fun x y => BitVec.ofNat 64 (x.toNat * y.toNat))]

/-- Integer instructions on packed elements: width, signed and unsigned values of the two elements, and the exact
result, which is then taken modulo 2^w (R119). -/
def intOps (h : HallId) (a : RArgs) : List (Instr × (Nat → Int → Int → Int → Int → Int)) :=
  [(.iadd h a, fun _ sx sy _ _ => sx + sy),
   (.iadds h a, fun w sx sy _ _ => max (-2 ^ (w - 1)) (min (2 ^ (w - 1) - 1) (sx + sy))),
   (.iaddu h a, fun w _ _ ux uy => max 0 (min (2 ^ w - 1) (ux + uy))),
   (.isub h a, fun _ sx sy _ _ => sx - sy),
   (.isubs h a, fun w sx sy _ _ => max (-2 ^ (w - 1)) (min (2 ^ (w - 1) - 1) (sx - sy))),
   (.isubu h a, fun w _ _ ux uy => max 0 (min (2 ^ w - 1) (ux - uy))),
   (.imul h a, fun _ sx sy _ _ => sx * sy),
   (.imulh h a, fun w sx sy _ _ => sx * sy / 2 ^ w),
   (.imin h a, fun _ sx sy ux uy => if a.md.getLsbD 0 then min ux uy else min sx sy),
   (.imax h a, fun _ sx sy ux uy => if a.md.getLsbD 0 then max ux uy else max sx sy),
   (.iabs h a, fun w sx _ _ _ => min |sx| (2 ^ (w - 1) - 1)),
   (.ishl h a, fun w _ _ ux uy => ux * 2 ^ (uy % w).toNat),
   (.ishr h a, fun w _ _ ux uy => ux / 2 ^ (uy % w).toNat),
   (.isra h a, fun w sx _ _ uy => sx / 2 ^ (uy % w).toNat)]

/-- Signed value of element `e` of width `w`. -/
def signedElem (w : Nat) (r : VReg) (e : Nat) : Int := (BitVec.ofNat w (elemOf w r e)).toInt

/-- Instructions on whole lanes of one source (Table 4.3): what a lane becomes, and whether they are FP32 only. -/
def lane1Ops (h : HallId) (a : RArgs) : List (Instr × (W32 → W32) × Bool) :=
  [(.vnot h a, fun x => ~~~x, false), (.vmov h a, fun x => x, false),
   (.fabs h a, fun x => x &&& 0x7FFFFFFF#32, false), (.fneg h a, fun x => x ^^^ 0x80000000#32, false),
   (.frint h a, frint32 (a.md.toNat % 4), false), (.cvtif h a, cvtif32, false),
   (.exp2 h a, exp2of, true), (.log2 h a, log2of, true), (.tanh h a, tanhOf, true), (.sigm h a, sigmOf, true),
   (.rcp h a, rcpOf, true), (.rsqrt h a, rsqrtOf, true)]

/-- Instructions on whole lanes of two sources. -/
def lane2Ops (h : HallId) (a : RArgs) : List (Instr × (W32 → W32 → W32) × Bool) :=
  [(.vand h a, fun x y => x &&& y, false), (.vor h a, fun x y => x ||| y, false),
   (.vxor h a, fun x y => x ^^^ y, false), (.fadd h a, fadd32, true), (.fsub h a, fsub32, true),
   (.fmul h a, fmul32, true), (.fmin h a, fmin32, false), (.fmax h a, fmax32, false), (.fscale h a, fscale32, false)]

/-- Conversions that widen one part of a source: format, element width and the part (Table 4.3). -/
def widenOps (h : HallId) (a : RArgs) : List (Instr × FloatFmt × Nat × Nat) :=
  [(.cvtbf h a, fmtBF16, 16, a.md.toNat % 2), (.cvthf h a, fmtFP16, 16, a.md.toNat % 2),
   (.cvt8f h a, if a.md.getLsbD 0 then fmtE5M2 else fmtE4M3, 8, a.md.toNat / 2 % 4)]

/-- Conversions of 512 lanes to 16-bit elements: format and canonical NaN (Table 2.5). -/
def narrowOps (h : HallId) (a : RArgs) : List (Instr × FloatFmt × Nat) :=
  [(.cvtfb h a, fmtBF16, 0x7FC0), (.cvtfh h a, fmtFP16, 0x7E00)]

/-- Logic on predicates (Table 4.3). -/
def predOps (h : HallId) (a : RArgs) : List (Instr × (BitVec 256 → BitVec 256 → BitVec 256)) :=
  [(.pand h a, fun x y => x &&& y), (.por h a, fun x y => x ||| y), (.pxor h a, fun x y => x ^^^ y),
   (.pnot h a, fun x _ => ~~~x)]

/-- R118 for a predicate destination: active bits take `f`, the others keep the old bit, or read 0 where ZERO = 1. -/
def bitsTake (v v' : VCore) (a : RArgs) (f : Nat → Bool) : Prop :=
  ∃ x, predTakes v v' (a.vd.setWidth 3) x ∧ ∀ i, i < 256 → x.getLsbD i =
    if (v.preg a.pred).getLsbD i then f i else if a.zero then false else (v.preg (a.vd.setWidth 3)).getLsbD i

/-- ICMP's relation by MOD[2:0]; 6 and 7 are false (Table 4.3, R113). -/
def cmpHolds (m : Nat) (x y : Int) : Bool :=
  if m = 0 then decide (x = y) else if m = 1 then decide (x ≠ y) else if m = 2 then decide (x < y)
  else if m = 3 then decide (x ≤ y) else if m = 4 then decide (x > y) else if m = 5 then decide (x ≥ y) else false

/-- INS_RESERVED where MOD[2:0] is 6 or 7 (R113). -/
def condBits (a : RArgs) : BitVec 8 := if a.md.toNat % 8 = 6 ∨ a.md.toNat % 8 = 7 then 0x20#8 else 0#8

/-- Lanes of the group of lane `k`, with the lane active, in FREDMAX and FREDMIN (Table 4.3, R113). -/
def inGroup (a : RArgs) (p : BitVec 256) (k j : Nat) : Prop :=
  j < 256 ∧ j / 2 ^ min 8 (a.md.toNat % 16) = k / 2 ^ min 8 (a.md.toNat % 16) ∧ p.getLsbD j = true

/-- `r` is the greatest (or the least) of the lanes of a group in the order of R121, NaN where one of them is. -/
def extremeOf (greatest : Bool) (g : Nat → Prop) (x : VReg) (r : W32) : Prop :=
  ((∃ j, g j ∧ isNaN32 (lane x j) = true) → r = 0x7FC00000#32)
    ∧ ((∀ j, g j → isNaN32 (lane x j) = false) → (∃ j, g j ∧ r = lane x j)
      ∧ ∀ j, g j → if greatest then key32 (lane x j) ≤ key32 r else key32 r ≤ key32 (lane x j))

/-- BR's rule (Table 4.2): taken or not. -/
def brRule (cond : Nat) (x y : W64) : Bool :=
  if cond = 0 then true else if cond = 1 then decide (x = y) else if cond = 2 then decide (x ≠ y)
  else if cond = 3 then decide (x.toInt < y.toInt) else if cond = 4 then decide (x.toInt ≥ y.toInt)
  else if cond = 5 then decide (x.toNat < y.toNat) else if cond = 6 then decide (x.toNat ≥ y.toNat) else false

/-- BRP's rule: any lane set, no lane set, all lanes set. -/
def brpRule (cond : Nat) (p : BitVec 256) : Bool :=
  if cond = 0 then decide (p ≠ 0#256) else if cond = 1 then decide (p = 0#256)
  else if cond = 2 then decide (p = BitVec.allOnes 256) else false

/-- A branch: no register changes; the address follows; the next instruction issues 3 beats after a taken branch, else
on the following beat (R116). -/
def branches (v v' : VCore) (b : Nat) (taken reserved : Bool) (offset : BitVec 24) : Prop :=
  noReg v v' ∧ vcKeeps v v' ∧ v'.status = v.status ||| (if reserved then 0x20#8 else 0#8)
    ∧ v'.pc = (if taken then v.pc + offset.setWidth 16 else v.pc + 1) ∧ v'.nextIssue = b + (if taken then 3 else 1)

/-- The bits that active lanes set in the status word. -/
def bitsOver (p : BitVec 256) (f : Nat → BitVec 8) (st : BitVec 8) : Prop :=
  ∀ n, st.getLsbD n = true ↔ ∃ i, i < 256 ∧ p.getLsbD i = true ∧ (f i).getLsbD n = true

/-! ### Words about memory accesses of the cores -/

/-- The registers, the address, the status word and the sequencing of a vector core stay; beats of accesses may move. -/
def vcStays (v v' : VCore) : Prop := noReg v v' ∧ vcKeeps v v' ∧ v'.pc = v.pc ∧ v'.status = v.status

/-- The same of a matrix core (Tables 3.3 to 3.9). -/
def mcStays (m m' : MCore) : Prop :=
  m'.running = m.running ∧ m'.pc = m.pc ∧ m'.loops = m.loops ∧ m'.hold = m.hold ∧ m'.ar = m.ar ∧ m'.wt = m.wt
    ∧ m'.streamTag = m.streamTag ∧ m'.outBase = m.outBase ∧ m'.tileIndex = m.tileIndex ∧ m'.keys = m.keys
    ∧ m'.keysNext.map Prod.snd = m.keysNext.map Prod.snd ∧ m'.status = m.status ∧ m'.drainWait = m.drainWait
    ∧ m'.waitCount = m.waitCount ∧ m'.slot0 = m.slot0 ∧ m'.slot1 = m.slot1 ∧ m'.banks = m.banks ∧ m'.shape = m.shape
    ∧ m'.pieces = m.pieces ∧ sigOf m'.signals = sigOf m.signals

/-- Every core but those named stays. -/
def otherCores (s t : State) (vs : List Nat) (ms : List Nat) : Prop :=
  (∀ k, k ∉ vs → vcStays (s.vcore k) (t.vcore k)) ∧ ∀ k, k ∉ ms → mcStays (s.mcore k) (t.mcore k)

/-- Every byte of every Pantry, Larder slice and Cellar stack. -/
def memorySame (s t : State) : Prop := t.pantry = s.pantry ∧ t.larder = s.larder ∧ t.cellar = s.cellar

/-- The finished-tile queues, the bells and the handles. -/
def sharedSame (s t : State) : Prop :=
  t.ftq = s.ftq ∧ t.pb.bells = s.pb.bells ∧ t.ld.handles = s.ld.handles

/-- Whatever is under way, a vector instruction on memory completes: it leaves the accesses `acts` to be made, which bring
what they read to `k`; its status word gains `f`, and other cores, the memories, the queues, the bells and the handles
stay. -/
def vcLeaves (h : HallId) (i : Instr) (s : State) (f : BitVec 8) (acts : State → VCore → List Act) (k : VCore → Sink) :
    Prop :=
  VcReady h i s → ∃ t u, onward s u ∧ exec i s = .next t ∧ memorySame u t ∧ otherCores u t [h.val] [] ∧ sharedSame u t
    ∧ noReg (u.vcore h) (t.vcore h) ∧ vcGoesOn (u.vcore h) (t.vcore h) f
    ∧ leavesToDo u t (acts u (u.vcore h)) (k (u.vcore h))

/-- With no access under way before it, a vector instruction on memory completes, and once `c` more beats have passed its
accesses have been made: `Q` relates the state before to the state then, and the core's contents. Other cores, the
queues, the bells and the handles stay. -/
def vcLands (h : HallId) (i : Instr) (c : Nat) (s : State) (Q : State → VCore → VCore → Prop) : Prop :=
  VcReady h i s → s.ld.runs = [] → ∃ t, exec i s = .next t ∧
    let w := t.toBeat (t.milestone + c)
    otherCores s w [h.val] [] ∧ sharedSame s w ∧ Q w (s.vcore h) (w.vcore h)

/-- Pantry byte of the vector core of hall `h`, and its little-endian numbers (R141). -/
def vByte (s : State) (h : HallId) (a : Nat) : Byte := s.pantryByte (vPantryKey h) a

/-- `n` bytes from `a`, wrapping modulo 512 KiB. -/
def vBytes (s : State) (h : HallId) (a n : Nat) : Nat := s.pantryLE (vPantryKey h) a n

/-- The vector core's Pantry takes `f` on its bytes; every other byte of memory stays. -/
def vPantryTakes (s t : State) (h : HallId) (f : Nat → Byte) : Prop :=
  (∀ a, a < 2 ^ 19 → vByte t h a = f a) ∧ (∀ k, k ≠ vPantryKey h → t.pantryOf k = s.pantryOf k)
    ∧ t.larder = s.larder ∧ t.cellar = s.cellar

/-- SLD's and SST's byte address, VLD's and VST's granule, LLD's and LST's first row (R135, R136, Table 4.3). -/
def scalarPlace (v : VCore) (a : MArgs) : Nat := (v.sreg a.sa + a.offset.signExtend 64).toNat % 2 ^ 19 / 8 * 8
def granulePlace (v : VCore) (a : MArgs) : Nat := (v.sreg a.sa + a.offset.signExtend 64).toNat % 16384
def rowPlace (v : VCore) (a : MArgs) : Nat := (v.sreg a.sa + a.offset.signExtend 64).toNat

/-- Both rows of an LLD or LST pass every check (R136, R164, R266): the entry's pairs hold, the handle is bound, the rows
lie within the region and the slices that the core reaches, and guarded mode finds nothing. -/
def rowsGood (s : State) (h : HallId) (k o : Nat) (write : Bool) : Prop :=
  let e := s.handle (hallTower h) k
  e.ok = true ∧ e.valid = true ∧ o + 1 ≤ e.lenm1
    ∧ (s.reach (hallTower h) (tileOf h 2)).contains (e.sliceFor h) = true
    ∧ s.guardFault (hallTower h) k o write (tileOf h 2) = none
    ∧ s.guardFault (hallTower h) k (o + 1) write (tileOf h 2) = none

/-- The slice that the handle names for hall `h`. -/
def sliceKey (s : State) (h : HallId) (k : Nat) : Nat :=
  144 * hallTower h + (s.handle (hallTower h) k).sliceFor h

/-- Byte `j` of row `o` of the region that handle `k` names for hall `h` (R146, R154). -/
def rowByte (s : State) (h : HallId) (k o j : Nat) : Byte :=
  let e := s.handle (hallTower h) k
  (s.readRow (sliceKey s h k) e.row0 o e.grid).read j

/-- Head entry of the finished-tile queue Q of hall `h` (R132, R133): header and payload. -/
def headHeader (s : State) (h : HallId) (q : Bool) : W64 :=
  ((s.queue (2 * h.val + q.toNat)).entries.headD ⟨0#64, [], 0⟩).hdr
def headByte (s : State) (h : HallId) (q : Bool) (j : Nat) : Byte :=
  ((s.queue (2 * h.val + q.toNat)).entries.headD ⟨0#64, [], 0⟩).payload.read j

/-- The queue has a visible head entry (R105). -/
abbrev headSeen (s : State) (h : HallId) (q : Bool) : Prop :=
  (s.queue (2 * h.val + q.toNat)).released < (s.queue (2 * h.val + q.toNat)).seen

/-- R133: lane `i` of what TLD loads. -/
def tldLane (s : State) (h : HallId) (a : MArgs) (i : Nat) : W32 :=
  let q := a.handle.getLsbD 0
  let g := a.offset.toInt + (i / 8 : Nat)
  if 0 ≤ g ∧ g < ((headHeader s h q).extractLsb' 0 12).toNat then
    BitVec.ofNat 32 (numLE ((List.range 4).map fun j => headByte s h q (32 * g.toNat + 4 * (i % 8) + j)))
  else 0#32

/-- What a core leaves alone while it is only held at issue. -/
def onlyHolds (v v' : VCore) (k : VHold) : Prop := v' = { v with hold := k }

/-- A held TWAIT, TLD or TREL may issue now. -/
def heldAtQueue (s : State) (h : HallId) (i : Instr) (q : Bool) : Prop :=
  s.hallEnabled h.val = true ∧ s.active = true ∧ (s.vcore h).running = true ∧ (∃ b, (s.vcore h).hold = .queue q b)
    ∧ headSeen s h q ∧ decodeVector h (s.vcFetch h) = i

/-- TREL: the head entry is released, and the next becomes the head (R134). -/
def released (s t : State) (h : HallId) (q : Bool) : Prop :=
  let c := 2 * h.val + q.toNat
  (t.queue c).entries = (s.queue c).entries.tail ∧ (t.queue c).released = (s.queue c).released + 1
    ∧ (t.queue c).written = (s.queue c).written ∧ (t.queue c).seen = (s.queue c).seen
    ∧ (∀ k, k ≠ c → t.queue k = s.queue k)

/-- The bell of a tower rises by `n` modulo 2^48; every other bell stays (R222, R223). -/
def bellRises (s t : State) (tower b n : Nat) : Prop :=
  (t.bell tower b).ok = true ∧ ((t.bell tower b).count).toNat = (((s.bell tower b).count).toNat + n) % 2 ^ 48
    ∧ ∀ tw k, tw < 4 → k < 8192 → (tw, k) ≠ (tower, b) → t.bell tw k = s.bell tw k

/-- R137, R224: the bell of the core's tower meets the target. -/
abbrev bellMeets (count target : BitVec 48) : Prop := (count - target).toNat < 2 ^ 47

/-- The first beats of R114: no earlier than the issue after the predecessor, the unit's interval, every source written,
and the result later than every earlier result of the same registers. -/
def mayIssue (v : VCore) (unit : Nat) (srcs dsts : List Nat) (lat b : Nat) : Prop :=
  v.nextIssue ≤ b ∧ SMap.get 0 v.times.unitFree unit ≤ b ∧ (∀ r ∈ srcs, SMap.get 0 v.times.ready r ≤ b)
    ∧ ∀ r ∈ dsts, SMap.get 0 v.times.ready r < b + lat

/-- A register `x` of lanes, by halves of 512 B: bytes of half `q`, and those that belong to active lanes (R118). -/
def storeBytes (x : VReg) (q : Nat) : List Byte := (List.range 512).map fun j => BitVec.ofNat 8 (elemOf 8 x (512 * q + j))
def storeMask (p : BitVec 256) (q : Nat) (m : BitVec 512) : Prop :=
  ∀ j, j < 512 → m.getLsbD j = p.getLsbD (128 * q + j / 4)

/-- Where a load into VD under PRED and ZERO brings what it reads. -/
def laneSink (h : HallId) (a : MArgs) (v : VCore) : Sink :=
  .lanes h a.vd (v.preg a.pred) (if a.zero then ~~~(v.preg a.pred) else 0#256)


/-! ### The words of the claims: matrix cores -/

/-- The hall exists on this part, and on whatever beat the sequencer of matrix core `c` issues, it issues `i`: the job runs,
no WAIT holds the core, no drain of it waits, and the word at its address decodes to `i` (R13, R86). -/
def McReady (c : MCoreId) (i : Instr) (s : State) : Prop :=
  s.hallEnabled (c.val / 2) = true ∧ Through s fun s => s.mcIssues c i = true

/-- From `u` to `t` matrix core `c` changes, and what an ACC under way still adds to a bank that the core has cleared since;
nothing else. -/
def onlyMatrix (c : MCoreId) (u t : State) : Prop :=
  t = { u with mc := t.mc, ld := { u.ld with runs := t.ld.runs } } ∧ (∀ k, k ≠ c.val → t.mcore k = u.mcore k)
    ∧ t.ld.runs.map unsunk = u.ld.runs.map unsunk

/-- The core `m'` holds what `x` holds, and the sequencer has gone on from `m`: to the next word, or where the loops
that end there send it, on a later beat (R86, R90). -/
def mcGoesOn (m x m' : MCore) : Prop :=
  mcStays { x with pc := (closeLoops (m.pc + 1) m.loops).1, loops := (closeLoops (m.pc + 1) m.loops).2 } m'
    ∧ m.nextIssue < m'.nextIssue

/-- LOOP, CLEAR, DRAIN, ... complete on the beat that their unit gives them; time is all else that changes. -/
def mcOwn (c : MCoreId) (i : Instr) (s : State) (Q : MCore → MCore → Prop) : Prop :=
  McReady c i s → ∃ t u, onward s u ∧ exec i s = .next t ∧ onlyMatrix c u t ∧ Q (u.mcore c) (t.mcore c)

/-- The command completes, and the core then holds what `f` makes of it. -/
def mcDoes (c : MCoreId) (i : Instr) (f : MCore → MCore) : Prop :=
  ∀ s, mcOwn c i s fun m m' => mcGoesOn m (f m) m'

/-- Whatever is under way, a command that reads memory completes: it leaves the accesses `acts` to be made, which bring
what they read to `k`, and `Q` relates the core before and after. Memory, the other cores, the queues, the bells and the
handles stay. -/
def mcLeaves (c : MCoreId) (i : Instr) (s : State) (acts : MCore → List Act) (k : MCore → Sink) (Q : MCore → MCore → Prop) :
    Prop :=
  McReady c i s → ∃ t u, onward s u ∧ exec i s = .next t ∧ memorySame u t ∧ otherCores u t [] [c.val] ∧ sharedSame u t
    ∧ leavesToDo u t (acts (u.mcore c)) (k (u.mcore c)) ∧ Q (u.mcore c) (t.mcore c)

/-- With no access under way before it, a command that reads memory completes, and once `n` more beats have passed its
accesses have been made: `Q` relates the core before to the core then. -/
def mcLands (c : MCoreId) (i : Instr) (n : Nat) (s : State) (Q : MCore → MCore → Prop) : Prop :=
  McReady c i s → s.ld.runs = [] → ∃ t, exec i s = .next t ∧
    let w := t.toBeat (t.milestone + n)
    memorySame s w ∧ otherCores s w [] [c.val] ∧ sharedSame s w ∧ Q (s.mcore c) (w.mcore c)

/-- Byte `a` of the matrix core's Pantry, and the numbers it spells (R5, R88, R141). -/
def mByte (s : State) (c : MCoreId) (a : Nat) : Byte := s.pantryByte (mPantryKey c) a
def mBytes (s : State) (c : MCoreId) (a n : Nat) : Nat := s.pantryLE (mPantryKey c) a n

/-- Address register `k` of the core takes `x`; every other one stays. -/
def aregTakes (m m' : MCore) (k : BitVec 3) (x : AddrReg) : Prop :=
  ∀ j, m'.areg j = if j = k then x else m.areg j

/-- R87: the registers that a command uses, each with its increment bit, are stepped in turn. -/
def aregsStep (m m' : MCore) (l : List (BitVec 3 × Bool)) : Prop :=
  ∀ j, (m'.areg j).step = (m.areg j).step
    ∧ (m'.areg j).base.toInt ≡ (m.areg j).base.toInt + (l.filter fun e => e.2 && e.1 == j).length * (m.areg j).step.toInt
      [ZMOD 2 ^ 24]

/-- Every row of a core's access passes every check (R94, R164, R266): the entry's pairs hold, the handle is bound, the
rows lie within the region and the slices that the core reaches, and guarded mode finds nothing. -/
def accessGood (s : State) (c : MCoreId) (k : Nat) (rows : List Nat) : Prop :=
  let t := mcTower c
  let e := s.handle t k
  e.ok = true ∧ e.valid = true ∧ (∀ o ∈ rows, o ≤ e.lenm1)
    ∧ (s.reach t (tileOf (c.val / 2) (c.val % 2))).contains (e.sliceFor (c.val / 2)) = true
    ∧ ∀ o ∈ rows, s.guardFault t k o false (tileOf (c.val / 2) (c.val % 2)) = none

/-- Byte `j` of row `o` of the region that the handle names for the core. -/
def regionByte (s : State) (c : MCoreId) (k o j : Nat) : Byte :=
  let e := s.handle (mcTower c) k
  (s.readRow (144 * mcTower c + e.sliceFor (c.val / 2)) e.row0 o e.grid).read j

/-- R93, R95: the row offset of element row `k` of a Larder load. -/
def loadwOffset (m : MCore) (a : LoadwArgs) (k : Nat) : Nat :=
  (m.areg a.areg).base.toNat + k * (if 1 < a.rstride.toNat then a.rstride.toNat else 1)

/-- The tile of the slot that a command names, and the slots as LOADW leaves them. -/
def slotOf (m : MCore) (slot : Bool) : Tile := if slot then m.slot1 else m.slot0

/-- What a command leaves of a core when it fills a slot, steps address registers or writes banks: the rest stays. -/
def mcRest (m m' : MCore) : Prop :=
  m'.running = m.running ∧ m'.hold = m.hold ∧ m'.wt = m.wt ∧ m'.streamTag = m.streamTag ∧ m'.outBase = m.outBase
    ∧ m'.tileIndex = m.tileIndex ∧ m'.drainWait = m.drainWait ∧ m'.waitCount = m.waitCount ∧ m'.shape = m.shape
    ∧ m'.pieces = m.pieces ∧ sigOf m'.signals = sigOf m.signals
    ∧ (m'.pc, m'.loops) = closeLoops (m.pc + 1) m.loops ∧ m.nextIssue < m'.nextIssue

/-- Element (o, b) of bank k (R81). -/
def bankElem (m : MCore) (k o b : Nat) : Acc := SMap.get Acc.zero m.banks (bankKey k o b)

/-- Where vector `v` of an ACC has its elements and its scale bytes, and how many of each there are (R78, R80). -/
def accElems (m : MCore) (a : AccArgs) (v : Nat) : Nat × Nat :=
  let p := vecBytes a.afmt (vecLen a.orient (slotOf m a.slot))
  (granuleByte (m.areg a.areg).base + v * p, p)
def accScales (m : MCore) (a : AccArgs) (v : Nat) : Nat × Nat :=
  let n := vecLen a.orient (slotOf m a.slot) / 32
  (granuleByte (m.areg a.sreg).base + v * n, n)

/-- The operands of vector `v` of an ACC (R80, R82). -/
def accVec (s : State) (c : MCoreId) (a : AccArgs) (v : Nat) : ActVec :=
  let e := accElems (s.mcore c) a v
  let x := accScales (s.mcore c) a v
  ⟨a.afmt, s.pantryWindow (mPantryKey c) e.1 e.2,
    if Fmt.isMx a.afmt then s.pantryWindow (mPantryKey c) x.1 x.2 else []⟩

/-- What an ACC leaves to be read, vector by vector (R80, R150). -/
def accReads (c : MCoreId) (a : AccArgs) (m : MCore) : List Act :=
  (List.range (accCount a)).map fun v =>
    let e := accElems m a v
    let x := accScales m a v
    .read (.pantry (mPantryKey c) e.1 e.2 :: if Fmt.isMx a.afmt then [.pantry (mPantryKey c) x.1 x.2] else [])

/-- The element that output `y` of vector `v` of an ACC becomes, and the conditions it meets (R83, R98). -/
def accOut (s : State) (c : MCoreId) (a : AccArgs) (v y : Nat) : Acc × BitVec 8 :=
  let m := s.mcore c
  let p := outPlace a (slotOf m a.slot) y
  accElem a (slotOf m a.slot) (accVec s c a v) y (bankElem m p.1 p.2 (accCol a v))

/-- Element (o, b) of bank k is one that the ACC writes, as output `y` of vector `v`. -/
def accWrites (t : Tile) (a : AccArgs) (v y k o b : Nat) : Prop :=
  v < accCount a ∧ y < outCount a t ∧ outPlace a t y = (k, o) ∧ accCol a v = b

/-- Element (o, b) is among those that a drain reads (R100). -/
def drained (a : DrainArgs) (k o b : Nat) : Prop :=
  k = a.bank.toNat ∧ (∃ i, i < 32 * (a.nrowq.toNat + 1) ∧ o = (32 * a.row0q.toNat + i) % 128)
    ∧ ∃ v, v < drainCount a ∧ b = (a.col0.toNat + v) % 128

/-- Random values of a drain of core `c` (R69, R102): the Philox counters and the column-key map in force at its
start. -/
def drainUses (s : State) (m : MCore) (a : DrainArgs) : DrainKeys :=
  ⟨m.outBase, m.tileIndex, m.streamTag, m.keysAt (drainStart m a), s.job.seed⟩

/-- Entry `j` of a drain that writes `n` of them (R103, R104, Table 3.8): its columns, header without STATUS, payload
and conditions. -/
def entryIs (s : State) (m : MCore) (a : DrainArgs) (n j : Nat) (p : DrainPiece) : Prop :=
  let c0 := j * drainPerEntry a
  let k := min (drainPerEntry a) (drainCount a - c0)
  let cols := (List.range k).map fun i => drainColumn m.banks a (drainUses s m a) (drainColumnOf a (c0 + i))
  p.hdr = entryHeader a (decide (j + 1 = n)) j (drainColumnOf a c0) k (entryPayload a cols).2
    ∧ p.payload = (entryPayload a cols).1
    ∧ (∀ b, p.conds.getLsbD b = true ↔ ∃ x ∈ cols, x.2.2.getLsbD b = true)
    ∧ p.stclr = (decide (j + 1 = n) && a.stclr) ∧ p.addr = m.pc

/-- The oldest converted entry of core `c`, as its queue takes it: STATUS holds the status word with the entry's own
conditions (Table 3.8); the last entry of a drain with STCLR = 1 then clears the word. -/
def entryWritten (s t : State) (c : MCoreId) (p : DrainPiece) (b : Nat) : Prop :=
  let m := s.mcore c
  let q := s.queue c
  let st := m.status ||| p.conds
  (t.queue c).entries = q.entries ++ [⟨p.hdr ||| ((st.setWidth 6).setWidth 64 <<< 42), p.payload, b⟩]
    ∧ (t.queue c).written = q.written + 1 ∧ (t.queue c).released = q.released
    ∧ (∀ k, k ≠ c.val → t.queue k = s.queue k)
    ∧ (t.mcore c).banks = m.banks ∧ ((t.mcore c).pc, (t.mcore c).ar, (t.mcore c).wt) = (m.pc, m.ar, m.wt)
    ∧ ∀ k, k ≠ c.val → t.mcore k = s.mcore k

/-- The oldest entry of core `c` that is not yet visible becomes visible on beat `b` (R105): the queue counts it, SIGNALs
that await it take that beat, and nothing else changes. -/
def entrySeen (u t : State) (c : MCoreId) (b : Nat) : Prop :=
  t = { u with mc := t.mc, ftq := t.ftq } ∧ (∀ k, k ≠ c.val → t.queue k = u.queue k ∧ t.mcore k = u.mcore k)
    ∧ t.queue c = { u.queue c with seen := (u.queue c).seen + 1, seenAt := b }
    ∧ (t.mcore c) = { u.mcore c with signals := (t.mcore c).signals }
    ∧ sigOf (t.mcore c).signals = sigOf (u.mcore c).signals

/-- Entries of a queue that are written and not released on beat `b` (R105). -/
def standing (q : Ftq) (b : Nat) : Nat := q.entries.length + (q.releases.filter fun r => decide (b < r)).length


/-! ### The words of the claims: Cellar controllers -/

/-- From `u` to `t` only the controller of stack `k` changes, to `x`. -/
def onlyStack (k : Nat) (u t : State) (x : Stack) : Prop :=
  t = { u with cel := t.cel } ∧ t.cel = { u.cel with ctl := t.cel.ctl } ∧ t.stack k = x
    ∧ ∀ k', k' ≠ k → t.stack k' = u.stack k'

/-- Cores and memories stay. -/
def coresAndMemorySame (s t : State) : Prop := memorySame s t ∧ t.mc = s.mc ∧ t.vc = s.vc ∧ t.ftq = s.ftq

/-- 3130.01 of the stack's tower records an error: its cause, the stack in the tower and the address (Table 6.9). -/
def cellarRecorded (t : State) (k cause addr : Nat) : Prop :=
  let w := SMap.get 0#64 t.cel.lastError (stackTower k)
  w.extractLsb' 61 3 = BitVec.ofNat 3 cause ∧ w.extractLsb' 20 38 = BitVec.ofNat 38 addr
    ∧ w.extractLsb' 58 3 = BitVec.ofNat 3 (if 16 ≤ k then 5 + k % 2 else 1 + k % 4)

/-- R182: the slots that a block of unit `u`, bank `b` and die group `g` may take, not before `i0`. -/
def slotAllowed (x : Stack) (k : Nat) (write : Bool) (g u b i0 i : Nat) : Prop :=
  i0 ≤ i ∧ SMap.get 0 x.unitNext u ≤ i ∧ SMap.get 0 x.bankNext (256 * g + 16 * u + b) ≤ i
    ∧ (SMap.get 0 x.unitDir u ≠ 0 → SMap.get 0 x.unitDir u ≠ (if write then 2 else 1) → SMap.get 0 x.unitNext u + 1 ≤ i)
    ∧ 6 ≤ (i / slotsPerFrame k + 96 - refreshFrame k) % 96

/-- Row, column and byte of a stack address (Table 6.4): what the hash leaves as it is. -/
def rowOf (k a : Nat) : Nat := if deepStack k then a % 2 ^ 35 / 2 ^ 19 else a % 2 ^ 34 / 2 ^ 20
def columnOf (k a : Nat) : Nat := if deepStack k then a / 2 ^ 17 % 4 else a / 2 ^ 17 % 8

/-- Byte `a` of stack `k`, while the stack's contents are valid. -/
def stackByte (s : State) (k a : Nat) : Byte := (s.stackOf k).read a

/-- A stream that starts or ends one more of its blocks, in the list of a controller. -/
def streamsAfter (x x' : Stack) (c c' : CellarStream) : Prop :=
  x' = { x with streams := if c'.ended = c.count then x.streams.erase c else putStream x.streams c c' }

/-! ### The words of the claims: porters and packets -/

/-- From `u` to `t` the movers change, with their counters, and time; cores, memories, bells and handles stay. -/
def moversOnly (u t : State) : Prop := coresAndMemorySame u t ∧ t.pb.bells = u.pb.bells ∧ t.ld.handles = u.ld.handles

/-- Every porter but `k` stays. -/
def otherPorters (u t : State) (k : Nat) : Prop := ∀ k', k' ≠ k → t.porter k' = u.porter k'

/-- 3240.01 of the porter's tower records cause, agent and TAG (Table 7.12). -/
def porterRecorded (t : State) (k cause : Nat) (d : PDesc) : Prop :=
  let w := SMap.get 0#64 t.por.lastFault (moverTower k)
  w.extractLsb' 60 4 = BitVec.ofNat 4 cause ∧ w.extractLsb' 52 8 = BitVec.ofNat 8 (moverAgent k)
    ∧ w.extractLsb' 36 16 = PDesc.tag d

/-- A descriptor at the head of porter `k` may start: the porter acts, holds nothing, and its last descriptor has
injected its packets (R193). -/
def headReady (s : State) (k : Nat) (hd : Handed) (rest : List Handed) : Prop :=
  s.moverThere k = true ∧ calm s ∧ (s.porter k).queue = hd :: rest ∧ (s.porter k).hold = none
    ∧ ∀ t ∈ (s.porter k).active, s.toInject k t ≤ t.injected

/-- The first beat of R193's conditions. -/
def startBeat (s : State) (k : Nat) (hd : Handed) : Nat := max hd.due (s.porter k).startFree

/-- Both endpoints of a COPY lie in Pantries of enabled halls of the module, and the descriptor meets every check of
R198. -/
def pantryCopy (s : State) (k : Nat) (hd : Handed) : Prop :=
  let d := hd.desc
  let here := fun e : Endpoint => e.space = 0 ∧ e.remote = false ∧ e.core < 3 ∧ e.hall < 48
    ∧ s.hallEnabled e.mhall = true ∧ (isHallPorter k = true → e.tower = moverTower k)
  PDesc.op d = 1 ∧ PDesc.cast d = 0 ∧ PDesc.route d < 3 ∧ PDesc.cls d < 3 ∧ PDesc.chain d = false
    ∧ hd.supplied = none ∧ here (PDesc.src d) ∧ here (PDesc.dst d)

/-- The descriptor has started on beat `b`: it has left the queue, it is the porter's latest, and its TAG is the
porter's (Table 7.11). -/
def startedAt (u t : State) (k : Nat) (hd : Handed) (rest : List Handed) (b : Nat) : Prop :=
  (t.porter k).queue = rest ∧ (t.porter k).hold = none ∧ (t.porter k).tag = PDesc.tag hd.desc ∧ b ≤ t.milestone
    ∧ ∃ x, (t.porter k).active = (u.porter k).active ++ [x] ∧ x.desc = hd.desc ∧ x.start = b ∧ x.injected = 0 ∧ x.reads = 0

/-- The transfers of mover `k`: the one that `start` names becomes what `P` says; of the others only beats move. -/
def transferTakes (u t : State) (k start : Nat) (P : Transfer → Transfer → Prop) : Prop :=
  List.Forall₂ (fun x y => y.start = x.start ∧ y.desc = x.desc ∧
    if x.start = start then P x y else y.injected = x.injected ∧ y.buf = x.buf ∧ y.reads = x.reads
      ∧ y.flights.map (fun f => (f.packet, f.dest)) = x.flights.map (fun f => (f.packet, f.dest)))
    (u.transfers k) (t.transfers k)

/-- The elements of 16 B that the bytes [lo, hi) of a transfer lie in. -/
def inElements (lo hi i : Nat) : Prop := lo / 16 ≤ i ∧ i < ceilDiv hi 16

/-- A buffer takes the bytes [lo, hi) of a transfer from the places of an endpoint, as they stand in `s`. -/
def bufTakes (s : State) (e : Endpoint) (h lo hi : Nat) (buf buf' : Memory) : Prop :=
  (∀ i, inElements lo hi i → buf'.readBytes (16 * i) 16 = s.readSpot (s.spot e h i))
    ∧ ∀ a, ¬ inElements lo hi (a / 16) → buf'.read a = buf.read a

/-- The bytes [lo, hi) of a buffer are written at an endpoint: each element's place holds them, unless a later element
has the same place; nothing else in memory changes. -/
def endpointTakes (u t : State) (e : Endpoint) (h lo hi : Nat) (buf : Memory) : Prop :=
  (∀ i, inElements lo hi i → (∀ j, inElements lo hi j → i < j → u.spot e h j ≠ u.spot e h i) →
      t.readSpot (u.spot e h i) = buf.readBytes (16 * i) 16)
    ∧ (∀ key a, (t.pantryOf key).read a ≠ (u.pantryOf key).read a →
      ∃ i, inElements lo hi i ∧ u.spot e h i = .pantry key (a / 16 * 16))
    ∧ (∀ key a, (t.sliceOf key).read a ≠ (u.sliceOf key).read a →
      ∃ i, inElements lo hi i ∧ u.spot e h i = .larder key (a / 16 * 16))
    ∧ t.cellar = u.cellar

/-- One access under way that writes the bytes [lo, hi) of a transfer to its Larder destination, as the packets carry
them. -/
def lineOf (k : Nat) (y : Transfer) (h : Nat) (sp : Nat × Nat) (a : Act) : Prop :=
  ∃ data dues, a = .line k y.start (PDesc.dst y.desc).e0 (PDesc.dst y.desc).e1 h sp.1 sp.2 data y.srank dues
    ∧ ∀ b, sp.1 ≤ b → b < sp.2 → Memory.read data b = y.buf.read b


/-! ### The words of the claims: dictionary writes -/

/-- A write of object `index`.`sub` passes the checks that every object has (R478, Table 17.8): the module answers and
its dictionary is open, the row may be written on this path, the value has the row's type and size, a row that is locked
while a job is loaded is not, and the request is neither a repeated one nor one too many. -/
def writeFits (s : State) (index sub : Nat) (w : DictWrite) (row : ObjRow) : Prop :=
  objRow index sub = some row ∧ s.answers = true ∧ s.dictOpen = true ∧ s.integ.fatalState ≠ 1#8 ∧ 2 ≤ row.access
    ∧ s.pathOk w.path = true ∧ s.deskOk row w.path = true ∧ (index = 0x9000 → s.part.debugClose = false)
    ∧ w.type.toNat = row.type ∧ w.offset = 0#24 ∧ w.length.toNat = row.size ∧ w.value.length = row.size
    ∧ (s.covers row.kind w.inst).isSome = true ∧ row.size ≤ writeLimit index w.path ∧ (row.access = 4 → s.jobLoaded = false) ∧ boolOk row w.value = true
    ∧ s.repeated w.path w.tag = none ∧ s.full w.path (writeMessage index sub w) = false

/-- A reply over Eothar has a port to leave by (R329, R336). -/
def replyLeaves (s : State) (w : DictWrite) : Prop :=
  ∀ r, w.path = .eothar r → ∃ p, s.routeRank s.ranks.myRank r 0#16 = .port p

/-- The write is answered with status `st`. -/
def answeredWith (s t : State) (w : DictWrite) (st : BitVec 8) : Prop :=
  ∃ r, t.dict.replies = s.dict.replies ++ [r] ∧ r.status = st ∧ r.tag = w.tag ∧ r.path = w.path ∧ r.inst = w.inst

/-- Cores, memories, queues, handles and bells stay. -/
def machineSame (s t : State) : Prop :=
  coresAndMemorySame s t ∧ t.ld.handles = s.ld.handles ∧ t.pb.bells = s.pb.bells

/-- A hand action is counted, its event raised, and a loaded job's determinism ends (R230, R231). -/
def handActed (s t : State) : Prop :=
  t.pb.handActions = s.pb.handActions + 1
    ∧ t.job.determinismEnded = (s.jobLoaded || s.job.determinismEnded)
    ∧ ∃ b body, t.integ.raised = s.integ.raised ++ [(0x02#16, b, body)]

/-! ### The words of the claims: posts and send stages -/

/-- What a stage holds, by number and state. -/
def stageWords (g : Stage) : List (BitVec 32 × BitVec 256 × EntryState) := g.entries.map fun e => (e.num, e.desc, e.state)

/-- Only beats of the cores move, and no memory changes. -/
def onlyBeats (s t : State) : Prop :=
  memorySame s t ∧ (∀ j, mcStays (s.mcore j) (t.mcore j)) ∧ ∀ j, vcStays (s.vcore j) (t.vcore j)

/-- Post `k` takes an arrival: SENT rises, the descriptor is the last of its slots; TAKEN stays (R232, R237). -/
def postTakes (s t : State) (k : Nat) (d : BitVec 256) : Prop :=
  (t.post k).sent = Pair32.of ((s.post k).sent.v + 1) ∧ (t.post k).taken = (s.post k).taken
    ∧ (t.post k).slots.map PostSlot.desc = (s.post k).slots.map PostSlot.desc ++ [d]
    ∧ (t.post k).closed = (s.post k).closed

/-- A local send is settled: its entry has left the stage, and its outcome is on the way. -/
def settled (s t : State) (g : Nat) (num : BitVec 32) (closed : Bool) : Prop :=
  (∀ e ∈ (t.stage g).entries, e.num ≠ num)
    ∧ ∃ r, t.pb.returns = s.pb.returns ++ [r] ∧ r.stage = g ∧ r.num = num ∧ r.closed = closed

/-- Slots, counts and the closed state of a post. -/
def postKept (p p' : Post) : Prop :=
  p'.slots = p.slots ∧ p'.sent = p.sent ∧ p'.taken = p.taken ∧ p'.closed = p.closed ∧ p'.waiting = p.waiting

/-- Every post of hall `h` is closed and nothing waits at it; every other post keeps what it holds (R242). -/
def hallClosed (s t : State) (h : HallId) : Prop :=
  (∀ i, i < 96 → (t.post (96 * h.val + i)).closed = true ∧ (t.post (96 * h.val + i)).waiting = []
      ∧ (t.post (96 * h.val + i)).slots = (s.post (96 * h.val + i)).slots)
    ∧ ∀ k, ¬ (96 * h.val ≤ k ∧ k < 96 * h.val + 96) → postKept (s.post k) (t.post k)

/-! ### The words of the claims: jobs -/

/-- The Steward can read every block of the staged image. -/
def stagingGood (len : Nat) (reads : StagingReads) : Prop := ∀ b, reads.bad = some b → len ≤ 512 * b.toNat

/-- The staged image passes the Steward's checks before the header's ranges (R257, step 2). -/
def imageReadable (s : State) (len : Nat) : Prop :=
  (s.ih 0).extractLsb' 32 32 = 0x5449524D#32 ∧ (s.ih 0).extractLsb' 16 16 = 1#16
    ∧ len = 4096 * s.imgPages ∧ len ≤ stagingBytes

/-- The load is refused with a cause: nothing stays bound, no core runs, no porter or loader has work, and the desk has no
role (R257, R274, Table 9.10). -/
def loadRefused (s t : State) (cause : Nat) : Prop :=
  t.job.loadState = 6#8 ∧ t.job.refusal.extractLsb' 56 8 = BitVec.ofNat 8 cause ∧ t.ld.handles = []
    ∧ t.job.logicalHalls = 0#8 ∧ t.desk.role = 0#8 ∧ t.loader.active = none ∧ (∀ k, t.porter k = Porter.idle)
    ∧ (∀ c, (t.mcore c).running = false) ∧ (∀ h, (t.vcore h).running = false)
    ∧ t.pantry = s.pantry ∧ t.cellar = s.cellar

/-- The job's axes and settings stand as the header gives them (R257, Table 9.1), and the point is not above MAX_OP
(R268). -/
def headerTaken (s t : State) : Prop :=
  t.job.placement = ((s.ih 1).extractLsb' 0 2).setWidth 8
    ∧ t.job.check = (if s.modes.forceGuarded then 2#8 else ((s.ih 1).extractLsb' 2 2).setWidth 8)
    ∧ t.job.interval = (s.ih 1).extractLsb' 32 32 ∧ t.job.hopSlack = (s.ih 1).extractLsb' 16 16
    ∧ t.job.hopBeats = (s.ih 2).extractLsb' 48 16 ∧ t.job.seed = s.ih 3 ∧ t.job.launches = 0#64
    ∧ t.integ.commits = 0#64 ∧ t.integ.lastCommit = 0 ∧ t.integ.jobOffset = 0 ∧ t.integ.rewinds = 0#32
    ∧ t.job.maxOp = ((s.ih 2).extractLsb' 44 4).setWidth 8
    ∧ (s.clock.refLost = false → t.clock.opNow.toNat = min s.clock.opNow.toNat t.job.maxOp.toNat)

/-- Program start on beat `b` (R258): every bell is 0, every queue and stage empty, the cores of the used halls run from
START in their reset state, and every other core stands still; posts are open in the used halls. -/
def programStarted (s t : State) (b : Nat) : Prop :=
  t.job.loadState = 5#8 ∧ t.job.startBeat = b ∧ b ≤ t.milestone ∧ t.integ.jobOffset = 0 ∧ t.integ.halted = false
    ∧ (∀ tw k, (t.bell tw k).ok = true ∧ (t.bell tw k).count = 0#48) ∧ (∀ c, t.queue c = Ftq.empty)
    ∧ (∀ g, t.stage g = Stage.empty) ∧ memorySame s t ∧ t.ld.handles = s.ld.handles
    ∧ (∀ h, h ∈ s.usedHalls →
      t.vcore h = { VCore.idle with
        running := true, pc := BitVec.ofNat 16 (SMap.get 0 s.job.starts (3 * h + 2)), nextIssue := b }
      ∧ ∀ c, c < 2 → t.mcore (2 * h + c) = { MCore.idle with
        running := true, pc := SMap.get 0 s.job.starts (3 * h + c), nextIssue := b })
    ∧ (∀ h, h ∉ s.usedHalls → t.vcore h = VCore.idle ∧ t.mcore (2 * h) = MCore.idle ∧ t.mcore (2 * h + 1) = MCore.idle)
    ∧ ∀ h p, h < 192 → p < 96 → s.hallEnabled h = true → (t.post (96 * h + p)).slots = []
      ∧ ((t.post (96 * h + p)).closed = true ↔ h ∉ s.usedHalls)

/-- A launch of `shape` (R260, R465): the step bell of every used tower rises by 1, no other bell moves, the used halls
latch the shape, the launch is counted, and the Ledger of the step that ended is published. -/
def launched (s t : State) (shape : BitVec 4) (at_ : Nat) : Prop :=
  t.job.launches = s.job.launches + 1 ∧ t.job.lastShape = shape.setWidth 8
    ∧ (∃ p, at_ ≤ p ∧ t.job.stepRunning = some (p, shape) ∧ t.job.commitDue = some p)
    ∧ t.integ.ledger = s.integ.ledgerAcc ∧ t.integ.ledgerStep = s.job.launches ∧ t.integ.ledgerAcc = []
    ∧ memorySame s t
    ∧ (∀ tw, tw ∈ s.usedTowers → (s.bell tw s.job.stepBell.toNat).ok = true →
      (t.bell tw s.job.stepBell.toNat).ok = true
        ∧ (t.bell tw s.job.stepBell.toNat).count = (s.bell tw s.job.stepBell.toNat).count + 1)
    ∧ (∀ tw k, tw < 4 → k < 8192 → ¬ (tw ∈ s.usedTowers ∧ k = s.job.stepBell.toNat) → t.bell tw k = s.bell tw k)
    ∧ (∀ h ∈ s.usedHalls, (s.vcore h).running = true → (t.vcore h).shape = shape)
    ∧ ∀ h ∈ s.usedHalls, ∀ c, c < 2 → (s.mcore (2 * h + c)).running = true → (t.mcore (2 * h + c)).shape = shape

/-- Two programs' clocks, modes and jobs are one, and cores and memories stay. -/
def settingOnly (s t : State) : Prop := machineSame s t ∧ t.job = s.job ∧ t.part = s.part ∧ t.milestone = s.milestone

/-! ### The words of the claims: ports -/

/-- What sending changes in a port: the flits on their way out, the labels and credits that they use, and their counts. -/
def sends (p p' : Port) : Prop :=
  p' = { p with
    nextSeq := p'.nextSeq, replay := p'.replay, outq := p'.outq, pins := p'.pins, txLabels := p'.txLabels,
    sent := p'.sent, sinceIdle := p'.sinceIdle, flitsTx := p'.flitsTx, transit := p'.transit, freed := p'.freed,
    unreported := p'.unreported, creditWait := p'.creditWait, schedWait := p'.schedWait }

/-- Port `n` becomes `p` but for what it sends then, and so do the other ports but for what they send. -/
def portBecomes (s t : State) (n : Nat) (p : Port) : Prop :=
  machineSame s t ∧ sends p (t.port n) ∧ ∀ q, q ≠ n → sends (s.port q) (t.port q)

/-- Only port `n` changes. -/
def onlyPort (s t : State) (n : Nat) : Prop := t = { s with eo := t.eo } ∧ ∀ q, q ≠ n → t.port q = s.port q

/-- Port `q` has a flit to send, or has sent it and awaits its ACK: its type, class, hops and payload. -/
def handedTo (t : State) (q : Nat) (type : BitVec 4) (cls : BitVec 3) (hops : BitVec 6) (payload : BitVec 1024) : Prop :=
  (∃ o ∈ (t.port q).outq, o.type = type ∧ o.cls = cls ∧ o.hops = hops ∧ o.payload = payload)
    ∨ ∃ r ∈ (t.port q).replay, r.flit.type = type ∧ r.flit.cls = cls ∧ r.flit.hops = hops ∧ r.flit.payload = payload

/-- An unsequenced flit with the ACK in force: every field of its header but TYPE and ACK is 0 (R307, Table 11.2). -/
def isBare (p : Port) (type : BitVec 4) (f : Flit) : Prop :=
  f.type = type ∧ f.ack = p.expect ∧ f.seq = 0#10 ∧ f.payload = 0#1024 ∧ f.crc = f.computed

/-- What is on the lanes of a port ends with a NAK; an IDLE goes before it where 4,096 flits would pass without one (R310).
While the port's lanes are swapped it sends nothing (R323). -/
def nakSent (p p' : Port) : Prop :=
  p.swap = .none → ∃ f, isBare p typeNak f ∧ (p'.pins = [f] ∨ ∃ g, isBare p typeIdle g ∧ p'.pins = [g, f])

/-- A receiving end asks for the SEQ that it expects, unless it has asked before (R315). -/
def naks (s : State) (p p' : Port) : Prop :=
  p'.expect = p.expect ∧ p'.flitsRx = p.flitsRx ∧ p'.rxLabels = p.rxLabels
    ∧ (p.nak = none → p'.nak = some (p.expect, s.wall) ∧ nakSent p p')
    ∧ (∀ x, p.nak = some x → p'.nak = some x)

/-- The sender goes back to a SEQ: every unacknowledged flit from it on is sent once more, in order (R316), an IDLE before
them where 4,096 flits would pass without one (R310); but nothing while the port's lanes are swapped (R323). -/
def replays (p p' : Port) (seq : BitVec 10) : Prop :=
  let again := p.replay.filter fun r => !ackPasses seq r.flit.seq
  p'.nextSeq = p.nextSeq
    ∧ (p.swap = .none → (∃ pre sent, p'.pins = pre ++ sent ∧ (pre = [] ∨ ∃ g, isBare p typeIdle g ∧ pre = [g])
        ∧ sent.map Flit.seq = again.map (fun r => r.flit.seq))
      ∧ p'.replays = p.replays + 1 ∧ p'.flitsTx = p.flitsTx + BitVec.ofNat 64 again.length
      ∧ p'.replay.map (fun r => (r.flit.seq, r.times)) = p.replay.map fun r =>
        (r.flit.seq, if ackPasses seq r.flit.seq then r.times else r.times + 1))
    ∧ (p.swap ≠ .none → p'.pins = p.pins ∧ p'.replays = p.replays ∧ p'.replay = p.replay)

/-- The port has gone down (R317, R375): it holds nothing, its neighbour is stale, and while a job is loaded it is
excluded. -/
def wentDown (s t : State) (n : Nat) : Prop :=
  let p := s.port n
  let p' := t.port n
  p'.up = false ∧ p'.lock = false ∧ p'.outq = [] ∧ p'.replay = [] ∧ p'.txLabels = [] ∧ p'.rxLabels = [] ∧ p'.nak = none
    ∧ p'.swap = .none ∧ p'.retraining = decide (p.role ≠ 0#8) ∧ p'.stale = p.valid
    ∧ p'.excluded = (s.jobLoaded || p.excluded) ∧ (p.role = 0#8 → p'.lanesOk = 0#4)

/-- The error becomes a rewind of the running job: its record has `origin`, and the member halts (R441, R450). -/
def rewindBegins (s t : State) : Prop :=
  s.active = true → s.integ.window = none → s.recentRewinds < 2 →
    t.integ.halted = true ∧ t.integ.rewinds = s.integ.rewinds + 1 ∧ t.integ.errorCount = s.integ.errorCount + 1

/-! ### The words of the claims: ranks, gates, time -/

/-- The write would meet every check of `writeFits` with no job loaded. -/
def fitsUnloaded (s : State) (index sub : Nat) (w : DictWrite) (row : ObjRow) : Prop :=
  writeFits { s with job := { s.job with loadState := 0#8 } } index sub w row

/-- A signpost word that R333 accepts. -/
def signpostGood (w : W64) : Prop :=
  let plen := (w.extractLsb' 58 5).toNat
  let fits (port width : Nat) := width < 3 ∧ port % 2 ^ width = 0
  plen ≤ 16 ∧ (∀ i, i < 16 - plen → (w.extractLsb' 42 16).getLsbD i = false)
    ∧ fits (w.extractLsb' 37 5).toNat (w.extractLsb' 35 2).toNat ∧ fits (w.extractLsb' 29 5).toNat (w.extractLsb' 27 2).toNat
    ∧ w.setWidth 27 = 0#27

/-- The oldest frame that the Steward keeps of those that satisfy `P`: its port, and what is left without it. -/
def oldest (s : State) (P : BitVec 960 → Prop) (n : Nat) (f : MgtFrame) (rest : List (Nat × MgtFrame)) : Prop :=
  ∃ pre post, s.shp.inbox = pre ++ (n, f) :: post ∧ rest = pre ++ post ∧ P f.body ∧ ∀ e ∈ pre, ¬ P e.2.body

/-- A frame's MTYPE, and the KIND of a GATE or ANNOUNCE frame (Tables 13.2 and 13.4). -/
def frameIs (type : Nat) (b : BitVec 960) : Prop := (b.extractLsb' 0 8).toNat = type
def gateIs (kind : Nat) (b : BitVec 960) : Prop := frameIs 6 b ∧ (b.extractLsb' 8 8).toNat = kind
def timeIs (kind : Nat) (b : BitVec 960) : Prop := frameIs 2 b ∧ (b.extractLsb' 40 2).toNat = kind

/-- A link-local frame with body `b` is handed to port `q` (R358). -/
def localTo (s t : State) (q : Nat) (b : BitVec 960) : Prop :=
  handedTo t q typeSingle clsMgt 0#6 (singleOf 5#8 0#16 s.ranks.myRank b)

/-- A frame goes down the time tree: to every child whose port is UP. -/
def sentDown (s t : State) (b : BitVec 960) : Prop := ∀ q ∈ s.shp.children, (s.port q).up = true → localTo s t q b

/-- The member's gate (R356). -/
def gateIsNow (t : State) (mask state : BitVec 8) : Prop := t.ranks.gateClasses = mask ∧ t.ranks.gateState = state

/-- No flit of a class of the mask stands in the port's input buffers (where what it has to send waits), replay buffer or
open labels (R356). -/
def portDrained (p : Port) (mask : BitVec 8) : Prop :=
  (∀ f ∈ p.outq, mask.getLsbD f.cls.toNat = false)
    ∧ (∀ r ∈ p.replay, mask.getLsbD r.flit.cls.toNat = false)
    ∧ (∀ l ∈ p.txLabels, mask.getLsbD (l.label.toNat / 200) = false)
    ∧ ∀ l ∈ p.rxLabels, mask.getLsbD (l.label.toNat / 200) = false

/-- No flit of a class of the mask stands anywhere in the member (R356); a pass-along frame is of class 2. -/
def memberDrained (s : State) (mask : BitVec 8) : Prop :=
  (∀ p, p < 32 → portDrained (s.port p) mask) ∧ (s.ranks.passAlong ≠ [] → mask.getLsbD 2 = false)

/-- The member is halted for a rewind of its job (R451). -/
def inRewind (s : State) : Prop :=
  s.integ.halted = true ∧ s.integ.window = none ∧ ∃ f ∈ s.integ.frames, f.stop = false

/-- Every pending write of an object has ended with `ok`, or had ended before. -/
def endedAll (s t : State) (index : BitVec 16) (sub : BitVec 8) (ok : Bool) : Prop :=
  List.Forall₂ (fun o o' => o' = { o with ended := o'.ended } ∧
    (if o.index = index ∧ o.sub = sub ∧ o.ended = none then ∃ b, o'.ended = some (ok, b) else o'.ended = o.ended))
    s.dict.owed t.dict.owed

/-! ### The words of the claims: the front desk and the Reckoners -/

/-- Generation lodgers ready for a step of generation `w`, and prompt tokens that wait for one (R388, R389, R400). -/
def gReady (s : State) (w : BitVec 8) : Nat := (s.desk.tab.lodgers.filter fun e => e.2.genReady w).length
def pReady (s : State) (w : BitVec 8) : Nat :=
  ((s.desk.tab.lodgers.filter fun e => e.2.prefillReady w).map fun e => e.2.promptLen.toNat - e.2.kvFill.v.toNat).sum

/-- Shape `y` is better than shape `x` for `g` and `p` (R400): more generation columns in use, then more prefill columns,
then fewer beats. -/
def shapeBetter (g p : Nat) (y x : Shape) : Prop :=
  min x.g g < min y.g g ∨ (min x.g g = min y.g g ∧ (min x.p p < min y.p p
    ∨ (min x.p p = min y.p p ∧ y.beats < x.beats)))

/-- The desk may decide a launch at the beat in force, with LAUNCH_LEAD 0 and one generation of weights; every lodger's
pairs hold (R386, R400, R408, R433, R506). -/
def deskFree (s : State) : Prop :=
  s.active = true ∧ s.desk.role = 1#8 ∧ s.desk.launchLead = 0#32 ∧ s.desk.tab.boundary = some s.now
    ∧ s.desk.tab.stepOpen = false ∧ s.desk.tab.stepEnd ≤ s.now ∧ (∀ d ∈ s.desk.decided, d.done = true ∧ d.sent = true)
    ∧ s.badLodger = none ∧ s.switchPending = none ∧ s.loader.gens.old = 0#8 ∧ s.loader.gens.live ≠ 0#8 ∧ s.loader.barrier = false
    ∧ s.job.unloadPending = false ∧ 524288 ≤ s.outFree ∧ s.clock.powerModeNow = 0#8

/-- A step's columns (R401, R402): generation lodgers first, each with its last token at its next place; then runs of
prompt tokens, the last of a prompt sampling. -/
def columnsGood (s t : State) (w : BitVec 8) (x : Shape) : Prop :=
  ∀ c ∈ t.desk.tab.cols, let l := s.lodger c.lodger
    (c.gen = true → c.col < min x.g (gReady s w) ∧ l.genReady w = true ∧ c.sample = true ∧ c.token = l.lastToken
      ∧ c.pos = l.kvFill.v)
    ∧ (c.gen = false → x.g ≤ c.col ∧ c.col < x.g + x.p ∧ l.prefillReady w = true ∧ l.kvFill.v.toNat ≤ c.pos.toNat
      ∧ c.pos.toNat < l.promptLen.toNat ∧ (c.sample = true ↔ c.pos.toNat + 1 = l.promptLen.toNat)
      ∧ c.token = (SMap.get 0#32 s.desk.prompts (l.promptAt.toNat + c.pos.toNat)).setWidth 18)

/-- The lodger has left with a reason (R399). -/
def retired (l l' : Lodger) (reason : BitVec 4) : Prop :=
  l'.state = 0#4 ∧ l'.reason = reason ∧ l'.submitId = l.submitId ∧ l'.acceptSeq = l.acceptSeq

/-- What a boundary makes of a lodger in use with `n` columns in the step that has ended (R397). -/
def settles (c n : Nat) (l l' : Lodger) : Prop :=
  let kv := l.kvFill.v + BitVec.ofNat 32 n
  let fill := if n = 0 then l.kvFill else Pair32.of kv
  let g := l.genCount.v.toNat + 1
  if l.cancel = true then retired l l' 3#4
  else if l.deadline ≠ 0#64 ∧ l.deadline.toNat ≤ c then retired l l' 4#4
  else if l.noCandidate = true then retired l l' 5#4
  else if l.hasPending = true then
    l'.lastToken = l.pending ∧ l'.genCount = Pair32.of (BitVec.ofNat 32 g) ∧ l'.kvFill = fill ∧ l'.hasPending = false ∧
      if l.pending ∈ l.stops.take l.nstop.toNat then retired l l' 1#4
      else if g = l.maxNew.toNat then retired l l' 2#4 else l'.state = 3#4
  else if l.genCount.v.toNat = l.maxNew.toNat then retired l l' 2#4
  else l' = { l with
    hasPending := false, noCandidate := false, kvFill := fill,
    state := if n ≠ 0 ∧ l.state = 1#4 then 2#4 else l.state }

/-- A token that a column may sample: its bit of the lodger's mask is 1 and its biased logit is finite (R406). -/
def mayPick (s : State) (l : Lodger) (logits : Memory) (tok : Nat) : Prop :=
  tok < s.desk.vocab.toNat
    ∧ (l.maskMode ≠ 0#2 → ((SMap.get [] s.desk.masks l.maskSlot.toNat : Memory).read (tok / 8)).getLsbD (tok % 8) = true)
    ∧ notFinite (fadd32 (logitAt s.logitFp32 logits tok) (l.bias tok)) = false

/-- The order of two biased logits (R406). -/
def logitBelow (s : State) (l : Lodger) (logits : Memory) (a b : Nat) : Prop :=
  orderKey (fadd32 (logitAt s.logitFp32 logits a) (l.bias a)) < orderKey (fadd32 (logitAt s.logitFp32 logits b) (l.bias b))

/-- The Reckoner of a tower goes on to its next column at program beat `b`, where it has one (R405). -/
def nextColumn (s : State) (tower b : Nat) (rest : List SampleCol) : State :=
  let r := s.reckoner tower
  if rest = [] then s
  else (s.setReckoner tower { r with cols := rest, ends := none, done := r.done + 1 }).beginColumn tower b


/-! ### The words of the claims: the loader -/

/-- The loader's request has ended with a failure (Table 15.10). -/
def loadFailed (t : State) (cause shard : Nat) : Prop :=
  t.loader.active = none ∧ t.loader.state = 4#4 ∧ t.loader.failed.extractLsb' 60 4 = BitVec.ofNat 4 cause
    ∧ t.loader.failed.extractLsb' 32 28 = BitVec.ofNat 28 shard

/-- An attempt at a part has failed (R425): flash is tried once more, then the peer, then the load fails. -/
def attemptFailed (s t : State) (a : ActiveLoad) (part cause : Nat) : Prop :=
  let x := a.landing part
  if x.tried = 0 ∧ s.flashTry a = true then
    t.loader.retries = s.loader.retries + 1 ∧ ∃ a', t.loader.active = some a' ∧ (a'.landing part).tried = 1
  else if x.tried < 2 ∧ part ≠ manifestShard ∧ s.loader.peerPort ≠ 0xFF#8 then
    t.loader.peerFetches = s.loader.peerFetches + 1 ∧ ∃ a', t.loader.active = some a' ∧ (a'.landing part).tried = 2
  else loadFailed t cause part

/-- Bytes that have come are in the landing buffer. -/
def landed (s t : State) (at_ : Nat) (bs : List Byte) : Prop :=
  t.loader.bytesLanded = s.loader.bytesLanded + BitVec.ofNat 64 bs.length
    ∧ ∃ a', t.loader.active = some a' ∧ ∀ j, j < bs.length → a'.buf.read (at_ + j) = bs.getD j 0#8

/-- A pass-along frame on a port (R420). -/
def passedTo (t : State) (q : Nat) (b : BitVec 960) : Prop :=
  handedTo t q typeSingle clsColl 0#6 (singleOf 6#8 0#16 0#16 b)

/-! ### The words of the claims: rewinds -/

/-- The machine has gone back to snapshot `x`, to go on at beat `resume` (R452, R453, Table 16.5): bells, counts, cores'
registers and the desk's table are those of the snapshot, everything on its way is gone, and the memories, the vector
registers, exact sums, weight slots and banks are as they were. -/
def rewound (s t : State) (x : Snapshot) (resume : Nat) : Prop :=
  memorySame s t ∧ t.pb.bells = x.bells ∧ (∀ c, (t.queue c).entries = []) ∧ (∀ g, (t.stage g).entries = [])
    ∧ (∀ k, (t.porter k).queue = [] ∧ (t.porter k).active = [] ∧ (t.porter k).hold = none)
    ∧ (∀ c, c < 384 → let m := t.mcore c
        let y := SMap.get MCore.idle x.mc c
        m.running = y.running ∧ m.pc = y.pc ∧ m.loops = y.loops ∧ m.ar = y.ar ∧ m.wt = y.wt ∧ m.status = y.status
          ∧ m.slot0 = (s.mcore c).slot0 ∧ m.slot1 = (s.mcore c).slot1 ∧ m.banks = (s.mcore c).banks)
    ∧ (∀ h, h < 192 → let v := t.vcore h
        let y := SMap.get VCore.idle x.vc h
        v.running = y.running ∧ v.pc = y.pc ∧ v.s = y.s ∧ v.p = y.p ∧ v.status = y.status ∧ v.mark = y.mark
          ∧ v.v = (s.vcore h).v ∧ v.es = (s.vcore h).es)
    ∧ (∀ tw k, (s.handle tw k).ok = true → t.handle tw k = s.handle tw k)
    ∧ t.desk.tab = x.table ∧ t.job.launches = x.launch.launches ∧ t.integ.lastResume = resume
    ∧ t.integ.jobOffset = resume - x.beat ∧ (resume - x.beat) % 3456 = 0

/-- RESUME lies at least LEAD after the frame was raised, and less than 96 frames later (R452). -/
def resumesAfter (s : State) (raised resume : Nat) : Prop := raised + s.lead ≤ resume ∧ resume < raised + s.lead + 3456

/-- A rewind can begin: a running job, no rewind under way, and no error that rules one out (R441, R442). -/
def mayRewind (s : State) : Prop :=
  s.active = true ∧ s.integ.window = none ∧ s.recentRewinds < 2 ∧ s.integ.frames = []

/-! ### The words of the claims: requests, the Kloder link, the flash port -/

/-- A READ or an INFO of a whole object passes the checks that every object has (R472, R476, R478). -/
def askFits (s : State) (a : DictAsk) (row : ObjRow) (i : Nat) : Prop :=
  s.answers = true ∧ s.dictOpen = true ∧ objRow a.index.toNat a.sub.toNat = some row ∧ s.covers row.kind a.inst = some [i]
    ∧ groupSelector row.kind a.inst = false ∧ s.pathOk a.path = true ∧ a.type = 0#8 ∧ a.length = 0#16 ∧ a.offset = 0#24
    ∧ s.repeated a.path a.tag = none ∧ a.path = .kloder

/-- The request is answered, and nothing but the links changes. -/
def replied (s t : State) (a : DictAsk) (opcode status : BitVec 8) (value : List Byte) : Prop :=
  machineSame s t ∧ t.job = s.job ∧ t.desk = s.desk ∧ t.loader = s.loader
    ∧ ∃ r, t.dict.replies = s.dict.replies ++ [r] ∧ r.opcode = opcode ∧ r.status = status ∧ r.tag = a.tag
      ∧ r.path = a.path ∧ r.inst = a.inst ∧ r.index = a.index ∧ r.sub = a.sub ∧ r.value = value

/-- A frame of channel CTRL that acknowledges channel `c`, with NAK or without (R500). -/
def isCtrl (s : State) (c : Nat) (nak : Bool) (aseq : BitVec 32) (f : KFrame) : Prop :=
  f.ch = 15#4 ∧ f.nak = nak ∧ f.ach.toNat = c ∧ f.aseq = aseq ∧ f.cch.toNat = c ∧ f.cfreed = (s.chan c).freed
    ∧ f.payload = []

/-- The oldest BULK segment leaves the queue; its frame is acknowledged and its credit freed (R505, Table 18.3). -/
def segmentTaken (s t : State) (rest : List (List Byte)) : Prop :=
  machineSame { s with cellar := t.cellar } t ∧ t.kl.segments = rest
    ∧ (t.chan 3).expect = (s.chan 3).expect + 1 ∧ (t.chan 3).freed = (s.chan 3).freed + 1

/-- A completion record for a segment is on its way (Table 18.6): its kind, result, TAG and offset. -/
def completes (t : State) (kind result : BitVec 4) (tag : BitVec 16) (offset : W64) : Prop :=
  let bs := bytesLE ((kind ++ result ++ 0#40 ++ tag : BitVec 64)).toNat 8 ++ bytesLE offset.toNat 8
  (∃ w ∈ (t.chan 3).outq, w.payload = bs) ∨ ∃ r ∈ (t.chan 3).replay, r.frame.payload = bs

/-! ### The words of the claims: the flash port, resets, the test port -/

/-- Byte `p` of a namespace is gathered, or on its way in a Write. -/
def gathered (t : State) (c : Bool) (n : BitVec 32) (p : Nat) (b : Byte) : Prop :=
  (∃ r ∈ t.flash.runs, r.ctrl = c ∧ r.nsid = n ∧ r.offset ≤ p ∧ p < r.offset + r.bytes.length
    ∧ r.bytes.getD (p - r.offset) 0#8 = b)
  ∨ ∃ o bs, FlashCmd.write c n o bs ∈ t.flash.issued ∧ o ≤ p ∧ p < o + bs.length ∧ bs.getD (p - o) 0#8 = b

/-- A cold boot has begun (R298, R512, R535): nothing is left but what is fused, the test port and its scan, wall time,
waiting commands and what has left the module. -/
def coldBooted (s t : State) : Prop :=
  t.boot.phase = .held ∧ t.pantry = [] ∧ t.larder = [] ∧ t.cellar = [] ∧ t.mc = [] ∧ t.vc = [] ∧ t.ftq = []
    ∧ t.job = State.reset.job ∧ t.ranks = State.reset.ranks ∧ t.desk = State.reset.desk ∧ t.loader = State.reset.loader
    ∧ t.integ = State.reset.integ ∧ t.eo = State.reset.eo ∧ t.clock = State.reset.clock ∧ t.wall = s.wall
    ∧ t.pending = s.pending ∧ (s.boot.fuses = [] → t.part = s.part)

/-- The lands are taken from the module (R540): its ports and its links are down, and its own work stops. -/
def landsTakenNow (s t : State) : Prop :=
  machineSame s t ∧ (∀ q, (t.port q).up = false) ∧ t.integ.halted = true ∧ t.kl.up = false
    ∧ (∀ c, c < 2 → SMap.get 0#32 t.flash.state c = 0#32)
/-! ### The words of the claims: exact sums -/

/-- The integer that a product becomes at anchor `a` (R48): the floor of the product over 2^(a - 80). -/
def truncated (a : BitVec 10) (p : Dy) : Int := ⌊(p.m : ℚ) * (2 : ℚ) ^ (p.e - (a.toInt - 80))⌋

/-- What a product adds (R49, R51): its integer clamped to 128 bits, or 0 where an operand is NaN. -/
def clamped (a : BitVec 10) : Option Dy → Int
  | none => 0
  | some p => max (-2 ^ 127) (min (2 ^ 127 - 1) (truncated a p))

end Sys2Proof.Claims

open Sys2Proof Sys2Proof.Machine Sys2Proof.Claims

/-- R112, R113, R116: NOP and a reserved opcode change nothing but the address (the latter sets INS_RESERVED); BR
compares s[SA] with s[SB] under COND and BRP tests a predicate; a taken branch goes to its own address plus OFFSET, 3
beats later; a reserved COND is not taken and sets INS_RESERVED. -/
def Obligations.VectorControlFlow : Prop :=
  ∀ (h : HallId) (op : BitVec 8) (a : BArgs),
    vcDoes h (.vcNop h) (fun v v' => noReg v v' ∧ vcGoesOn v v' 0#8)
    ∧ vcDoes h (.vcReservedOpcode h op) (fun v v' => noReg v v' ∧ vcGoesOn v v' 0x20#8)
    ∧ vcDoesAt h (.br h a) (fun s b v v' => b = vcBeat (s.vcore h) ⟨unitS, [sKey a.sa, sKey a.sb], [], 1, 1, false⟩
      ∧ branches v v' b (brRule a.cond.toNat (v.sreg a.sa) (v.sreg a.sb)) (decide (7 ≤ a.cond.toNat)) a.offset)
    ∧ vcDoesAt h (.brp h a) (fun s b v v' => b = vcBeat (s.vcore h) ⟨unitS, [pKey (a.sb.setWidth 3)], [], 1, 1, false⟩
      ∧ branches v v' b (brpRule a.cond.toNat (v.preg (a.sb.setWidth 3))) (decide (3 ≤ a.cond.toNat)) a.offset)

/-- R111, Table 4.3: what each scalar instruction writes to SD; the second operand is IMM, sign-extended, where
UIMM = 1. SLI writes IMM, sign-extended; SLIH writes IMM to bits 63 to 32. -/
def Obligations.VectorScalar : Prop :=
  ∀ (h : HallId) (a : SArgs),
    (∀ op ∈ scalarOps h a, vcDoes h op.1 fun v v' =>
      scalarTakes v v' a.sd (op.2 (v.sreg a.sa) (if a.uimm then a.imm.signExtend 64 else v.sreg a.sb))
        ∧ vcGoesOn v v' 0#8)
    ∧ vcDoes h (.sli h a) (fun v v' => scalarTakes v v' a.sd (BitVec.ofInt 64 a.imm.toInt) ∧ vcGoesOn v v' 0#8)
    ∧ vcDoes h (.slih h a) (fun v v' =>
        scalarTakes v v' a.sd (BitVec.ofNat 64 (a.imm.toNat * 2 ^ 32 + (v.sreg a.sd).toNat % 2 ^ 32)) ∧ vcGoesOn v v' 0#8)

/-- R118, R119: every element of an active lane takes the integer result, wrapped to the element width; elements of an
inactive lane are kept, or 0 where ZERO = 1. A reserved FORM acts as FORM 0 and sets INS_RESERVED; nothing else sets a
status bit. -/
def Obligations.VectorIntegerElements : Prop :=
  ∀ (h : HallId) (a : RArgs), ∀ op ∈ intOps h a, vcDoes h op.1 fun v v' =>
    let w := elemWidth a.form
    onlyV v v' a.vd ∧ vcGoesOn v v' (formBits false a.form)
      ∧ ∀ e, e < 8192 / w → (elemOf w (v'.vreg a.vd) e : Int) =
        if (v.preg a.pred).getLsbD (e * w / 32) then
          op.2 w (signedElem w (v.vreg a.va) e) (signedElem w (v.vreg a.vb) e) (elemOf w (v.vreg a.va) e)
            (elemOf w (v.vreg a.vb) e) % 2 ^ w
        else if a.zero then 0 else elemOf w (v.vreg a.vd) e

/-- Table 4.3, R118: instructions on whole lanes write the value of their function to every active lane. -/
def Obligations.VectorLaneResults : Prop :=
  ∀ (h : HallId) (a : RArgs),
    (∀ op ∈ lane1Ops h a, vcDoes h op.1 fun v v' =>
      lanesTake v v' a.vd a.pred a.zero (fun i => op.2.1 (lane (v.vreg a.va) i)) ∧ vcGoesOn v v' (formBits op.2.2 a.form))
    ∧ (∀ op ∈ lane2Ops h a, vcDoes h op.1 fun v v' =>
      lanesTake v v' a.vd a.pred a.zero (fun i => op.2.1 (lane (v.vreg a.va) i) (lane (v.vreg a.vb) i))
        ∧ vcGoesOn v v' (formBits op.2.2 a.form))
    ∧ vcDoes h (.fma h a) (fun v v' =>
      lanesTake v v' a.vd a.pred a.zero
        (fun i => fma32 (lane (v.vreg a.va) i) (lane (v.vreg a.vb) i) (lane (v.vreg a.vc) i))
        ∧ vcGoesOn v v' (formBits false a.form))
    ∧ vcDoes h (.fnms h a) (fun v v' =>
      lanesTake v v' a.vd a.pred a.zero
        (fun i => fnms32 (lane (v.vreg a.va) i) (lane (v.vreg a.vb) i) (lane (v.vreg a.vc) i))
        ∧ vcGoesOn v v' (formBits false a.form))
    ∧ (∀ op ∈ [(Instr.fredmax h a, true), (Instr.fredmin h a, false)], vcDoes h op.1 fun v v' =>
      onlyV v v' a.vd ∧ vcGoesOn v v' ((if 8 < a.md.toNat % 16 then 0x20#8 else 0#8) ||| formBits false a.form)
        ∧ ∀ k, k < 256 →
          if (v.preg a.pred).getLsbD k then
            extremeOf op.2 (inGroup a (v.preg a.pred) k) (v.vreg a.va) (lane (v'.vreg a.vd) k)
          else lane (v'.vreg a.vd) k = if a.zero then 0#32 else lane (v.vreg a.vd) k)

/-- Table 4.3: VSEL, VBCS, VLI, VIOTA, VPERM, VTOS and VSETL. -/
def Obligations.VectorMoves : Prop :=
  ∀ (h : HallId) (a : RArgs) (im : IArgs),
    vcDoes h (.vsel h a) (fun v v' => onlyV v v' a.vd ∧ vcGoesOn v v' (formBits false a.form)
      ∧ ∀ i, i < 256 → lane (v'.vreg a.vd) i = if (v.preg a.pred).getLsbD i then lane (v.vreg a.va) i else lane (v.vreg a.vb) i)
    ∧ vcDoes h (.vbcs h a) (fun v v' => vcGoesOn v v' (formBits false a.form)
      ∧ lanesTake v v' a.vd a.pred a.zero fun _ => (v.sreg (a.va.setWidth 5)).setWidth 32)
    ∧ vcDoes h (.vli h im) (fun v v' => vcGoesOn v v' (formBits false im.form)
      ∧ lanesTake v v' im.vd im.pred im.zero fun _ => im.imm)
    ∧ vcDoes h (.viota h a) (fun v v' => vcGoesOn v v' (formBits false a.form)
      ∧ lanesTake v v' a.vd a.pred a.zero fun i => BitVec.ofNat 32 i)
    ∧ vcDoes h (.vperm h a) (fun v v' => vcGoesOn v v' (formBits false a.form)
      ∧ lanesTake v v' a.vd a.pred a.zero fun i => lane (v.vreg a.va) ((lane (v.vreg a.vb) i).toNat % 256))
    ∧ vcDoes h (.vtos h a) (fun v v' => vcGoesOn v v' (formBits false a.form)
      ∧ scalarTakes v v' (a.vd.setWidth 5) ((lane (v.vreg a.va) (a.md.toNat % 256)).signExtend 64))
    ∧ vcDoes h (.vsetl h a) (fun v v' => onlyV v v' a.vd ∧ vcGoesOn v v' (formBits false a.form)
      ∧ ∀ i, i < 256 → lane (v'.vreg a.vd) i =
        if i = a.md.toNat % 256 then (v.sreg (a.va.setWidth 5)).setWidth 32 else lane (v.vreg a.vd) i)

/-- Table 4.3, R111, R118, R121: comparisons and predicate instructions. PFIRST compares with s[SA] as a signed number
(log row 9). -/
def Obligations.VectorPredicates : Prop :=
  ∀ (h : HallId) (a : RArgs),
    vcDoes h (.icmp h a) (fun v v' => vcGoesOn v v' (condBits a ||| formBits false a.form)
      ∧ bitsTake v v' a fun i => decide (∀ k, k < 32 / elemWidth a.form →
          let w := elemWidth a.form
          let e := i * (32 / w) + k
          cmpHolds (a.md.toNat % 8)
            (if a.md.getLsbD 3 then (elemOf w (v.vreg a.va) e : Int) else signedElem w (v.vreg a.va) e)
            (if a.md.getLsbD 3 then (elemOf w (v.vreg a.vb) e : Int) else signedElem w (v.vreg a.vb) e) = true))
    ∧ vcDoes h (.fcmp h a) (fun v v' => vcGoesOn v v' (condBits a ||| formBits true a.form)
      ∧ bitsTake v v' a fun i => fcmp32 (a.md.toNat % 8) (lane (v.vreg a.va) i) (lane (v.vreg a.vb) i))
    ∧ (∀ op ∈ predOps h a, vcDoes h op.1 fun v v' => vcGoesOn v v' (formBits false a.form)
      ∧ predTakes v v' (a.vd.setWidth 3) (op.2 (v.preg (a.va.setWidth 3)) (v.preg (a.vb.setWidth 3))))
    ∧ vcDoes h (.pfirst h a) (fun v v' => vcGoesOn v v' (formBits false a.form)
      ∧ bitsTake v v' a fun i => decide ((i : Int) < (v.sreg (a.va.setWidth 5)).toInt))
    ∧ vcDoes h (.pcnt h a) (fun v v' => vcGoesOn v v' (formBits false a.form)
      ∧ scalarTakes v v' (a.vd.setWidth 5)
        (BitVec.ofNat 64 ((Finset.range 256).filter fun i => (v.preg (a.va.setWidth 3)).getLsbD i = true).card))

/-- R120, R121: NaN, infinities and zeros. -/
def Sys2Proof.Claims.fp32SpecialsHold : Prop :=
  ∀ x y z : W32,
    (isNaN32 x = true ∨ isNaN32 y = true →
      fadd32 x y = 0x7FC00000#32 ∧ fsub32 x y = 0x7FC00000#32 ∧ fmul32 x y = 0x7FC00000#32
        ∧ fmin32 x y = 0x7FC00000#32 ∧ fmax32 x y = 0x7FC00000#32 ∧ fma32 x y z = 0x7FC00000#32
        ∧ fnms32 x y z = 0x7FC00000#32 ∧ fma32 z x y = 0x7FC00000#32)
    ∧ (∀ m, fcmp32 m x y = if isNaN32 x ∨ isNaN32 y then decide (m = 1 ∨ m = 4)
        else if m = 0 then decide (ord32 x = ord32 y) else if m = 1 then decide (ord32 x ≠ ord32 y)
        else if m = 2 then decide (ord32 x < ord32 y) else if m = 3 then decide (ord32 x ≤ ord32 y) else decide (m = 5))
    ∧ ord32 0x80000000#32 = ord32 0#32
    ∧ fmin32 0x80000000#32 0#32 = 0x80000000#32 ∧ fmin32 0#32 0x80000000#32 = 0x80000000#32
    ∧ fmax32 0x80000000#32 0#32 = 0#32 ∧ fmax32 0#32 0x80000000#32 = 0#32
    ∧ fadd32 0x7F800000#32 0xFF800000#32 = 0x7FC00000#32 ∧ fmul32 0#32 0x7F800000#32 = 0x7FC00000#32
    ∧ (isNaN32 y = false → isInf32 y = false → fadd32 0x7F800000#32 y = 0x7F800000#32
        ∧ fadd32 y 0xFF800000#32 = 0xFF800000#32 ∧ fsub32 y 0x7F800000#32 = 0xFF800000#32)
    ∧ (isNaN32 y = false → isZero32 y = false →
        fmul32 0x7F800000#32 y = if y.msb then 0xFF800000#32 else 0x7F800000#32)

/-- Table 4.3, R122: conversions between FP32 and narrower formats, each under R118; OUT_SAT is set where an active
lane saturates. -/
def Obligations.VectorConversions : Prop :=
  ∀ (h : HallId) (a : RArgs),
    (∀ op ∈ widenOps h a, vcDoes h op.1 fun v v' => vcGoesOn v v' (formBits false a.form)
      ∧ lanesTake v v' a.vd a.pred a.zero fun i => widen32 op.2.1 (elemOf op.2.2.1 (v.vreg a.va) (256 * op.2.2.2 + i)))
    ∧ vcDoes h (.cvtfi h a) (fun v v' =>
      lanesTake v v' a.vd a.pred a.zero (fun i => (cvtfi32 (a.md.toNat % 4) (lane (v.vreg a.va) i)).1)
        ∧ ∃ st, bitsOver (v.preg a.pred) (fun i => (cvtfi32 (a.md.toNat % 4) (lane (v.vreg a.va) i)).2) st
          ∧ vcGoesOn v v' (st ||| formBits false a.form))
    ∧ (∀ op ∈ narrowOps h a, vcDoes h op.1 fun v v' =>
      let one := fun e => narrow32 op.2.1 op.2.2 (if e < 256 then lane (v.vreg a.va) e else lane (v.vreg a.vb) (e - 256))
      onlyV v v' a.vd
        ∧ (∀ e, e < 512 → elemOf 16 (v'.vreg a.vd) e =
          if (v.preg a.pred).getLsbD (e / 2) then (one e).1 % 2 ^ 16 else if a.zero then 0 else elemOf 16 (v.vreg a.vd) e)
        ∧ ∃ st, bitsOver (v.preg a.pred) (fun i => (one (2 * i)).2 ||| (one (2 * i + 1)).2) st
          ∧ vcGoesOn v v' (st ||| formBits false a.form))
    ∧ vcDoes h (.cvtf8 h a) (fun v v' =>
      let q := a.md.toNat / 2 % 4
      let f := if a.md.getLsbD 0 then (fmtE5M2, 0x7E) else (fmtE4M3, 0x7F)
      let one := fun k => narrow32 f.1 f.2 (lane (v.vreg a.va) k)
      onlyV v v' a.vd
        ∧ (∀ e, e < 1024 → elemOf 8 (v'.vreg a.vd) e =
          if e / 256 = q then
            (if (v.preg a.pred).getLsbD (e / 4) then (one (e - 256 * q)).1 % 2 ^ 8
             else if a.zero then 0 else elemOf 8 (v.vreg a.vd) e)
          else elemOf 8 (v.vreg a.vd) e)
        ∧ ∃ st, vcGoesOn v v' (st ||| formBits false a.form)
          ∧ ∀ n, st.getLsbD n = true ↔ ∃ e, e < 1024 ∧ e / 256 = q ∧ (v.preg a.pred).getLsbD (e / 4) = true
            ∧ (one (e - 256 * q)).2.getLsbD n = true)
/-- Table 4.3, R71: MXPACK, MXUNPK, INARROW and IWIDEN. A MOD[3:0] outside 0x5 to 0xA writes nothing and sets
FORMAT_RESERVED; FORM 0 and 3 of INARROW and IWIDEN act as FORM 1 and set INS_RESERVED (R113). -/
def Obligations.VectorBlocks : Prop :=
  ∀ (h : HallId) (a : RArgs),
    let md := a.md.toNat % 16
    let f : Fmt := BitVec.ofNat 4 md
    let nw := if a.form = 2#2 then 8 else 16
    let nf : BitVec 8 := if a.form = 0#2 ∨ a.form = 3#2 then 0x20#8 else 0#8
    let half := a.md.toNat % 2
    (¬ (5 ≤ md ∧ md ≤ 10) → ∀ i ∈ [Instr.mxpack h a, Instr.mxunpk h a], vcDoes h i fun v v' =>
      noReg v v' ∧ vcGoesOn v v' (0x08#8 ||| formBits false a.form))
    ∧ (5 ≤ md → md ≤ 10 → vcDoes h (.mxpack h a) fun v v' =>
      let block := fun g => mxBlock f ((List.range 32).map fun k => exact32 (lane (v.vreg a.va) (32 * g + k)))
        (if a.md.getLsbD 4 then 1#2 else 0#2) (List.replicate 32 0)
      onlyV v v' a.vd
        ∧ (∀ g k, g < 8 → k < 32 → elemOf f.bits (v'.vreg a.vd) (32 * g + k) = ((block g).2.1.getD k 0) % 2 ^ f.bits)
        ∧ (∀ g, g < 8 → elemOf 8 (v'.vreg a.vd) (1016 + g) = (block g).1.toNat)
        ∧ ∃ st, vcGoesOn v v' (st ||| formBits false a.form))
    ∧ (5 ≤ md → md ≤ 10 → vcDoes h (.mxunpk h a) fun v v' => vcGoesOn v v' (formBits false a.form)
      ∧ lanesTake v v' a.vd a.pred a.zero fun i => mxUnpackLane f (v.vreg a.va) i)
    ∧ vcDoes h (.inarrow h a) (fun v v' => onlyV v v' a.vd ∧ vcGoesOn v v' nf
      ∧ ∀ e, e < 8192 / nw → (elemOf nw (v'.vreg a.vd) e : Int) =
        if e * nw / 4096 = half then
          (if (v.preg a.pred).getLsbD (e * nw / 32) then
            let x := signedElem (2 * nw) (v.vreg a.va) (e - 4096 / nw * half)
            (if a.md.getLsbD 1 then max 0 (min (2 ^ nw - 1) x)
             else max (-2 ^ (nw - 1)) (min (2 ^ (nw - 1) - 1) x)) % 2 ^ nw
           else if a.zero then 0 else elemOf nw (v.vreg a.vd) e)
        else elemOf nw (v.vreg a.vd) e)
    ∧ vcDoes h (.iwiden h a) (fun v v' => onlyV v v' a.vd ∧ vcGoesOn v v' nf
      ∧ ∀ e, e < 8192 / (2 * nw) → (elemOf (2 * nw) (v'.vreg a.vd) e : Int) =
        if (v.preg a.pred).getLsbD (e * (2 * nw) / 32) then
          (if a.md.getLsbD 1 then (elemOf nw (v.vreg a.va) (4096 / nw * half + e) : Int)
           else signedElem nw (v.vreg a.va) (4096 / nw * half + e)) % 2 ^ (2 * nw)
        else if a.zero then 0 else elemOf (2 * nw) (v.vreg a.vd) e)

/-- R125: what the transcendental instructions return for NaN, for zeros and for infinities. -/
def Sys2Proof.Claims.transcendentalSpecialsHold : Prop :=
  ∀ x : W32,
    (isNaN32 x = true → ∀ f ∈ [exp2of, log2of, rcpOf, rsqrtOf, tanhOf, sigmOf], f x = 0x7FC00000#32)
    ∧ (x.toNat % 2 ^ 31 = 0 → exp2of x = 0x3F800000#32 ∧ log2of x = 0xFF800000#32 ∧ tanhOf x = x
        ∧ sigmOf x = 0x3F000000#32 ∧ rcpOf x = (if x.msb then 0xFF800000#32 else 0x7F800000#32)
        ∧ rsqrtOf x = (if x.msb then 0xFF800000#32 else 0x7F800000#32))
    ∧ exp2of 0x7F800000#32 = 0x7F800000#32 ∧ exp2of 0xFF800000#32 = 0#32
    ∧ log2of 0x7F800000#32 = 0x7F800000#32 ∧ log2of 0xFF800000#32 = 0x7FC00000#32
    ∧ rcpOf 0x7F800000#32 = 0#32 ∧ rcpOf 0xFF800000#32 = 0x80000000#32
    ∧ rsqrtOf 0x7F800000#32 = 0#32 ∧ tanhOf 0x7F800000#32 = 0x3F800000#32 ∧ tanhOf 0xFF800000#32 = 0xBF800000#32
    ∧ sigmOf 0x7F800000#32 = 0x3F800000#32 ∧ sigmOf 0xFF800000#32 = 0#32
    ∧ (x.msb = true → x.toNat % 2 ^ 31 ≠ 0 → log2of x = 0x7FC00000#32 ∧ rsqrtOf x = 0x7FC00000#32)

/-- R120, R121, R125: the special values of the FP32 and transcendental instructions. -/
def Obligations.FloatSpecials : Prop := fp32SpecialsHold ∧ transcendentalSpecialsHold

/-- R126 to R131: the exact-sum instructions. XCLR sets every element to X = 0 and one anchor; XADD and XMAC add exact
products at the anchor that each element holds; XREC adds ACC records; XFOLD sums groups; XDRAIN and XOUT write lanes or
records and leave ESA as it is. -/
def Obligations.VectorExactSums : Prop :=
  ∀ (h : HallId) (a : XArgs),
    (a.auto = false → vcDoes h (.xclr h a) fun v v' => vcGoesOn v v' 0#8
      ∧ sumTakes v v' a.esd fun _ => ⟨0#136, a.anchor, false, false⟩)
    ∧ (a.auto = true → vcDoes h (.xclr h a) fun v v' => vcGoesOn v v' 0#8
      ∧ sumTakes v v' a.esd fun _ => ⟨0#136, BitVec.ofInt 10 (xclrAnchor a (v.preg a.pred) (v.vreg a.va) (v.vreg a.vb)),
          false, false⟩)
    ∧ (∀ mac : Bool, vcDoes h (if mac then .xmac h a else .xadd h a) fun v v' =>
      let add := fun i => (v.esElem a.esd i).addProduct (mulElem (exact32 (lane (v.vreg a.va) i))
        (if mac then exact32 (lane (v.vreg a.vb) i) else some ⟨1, 0⟩))
      sumTakes v v' a.esd (fun i => if (v.preg a.pred).getLsbD i then (add i).1 else v.esElem a.esd i)
        ∧ ∃ st, bitsOver (v.preg a.pred) (fun i => (add i).2) st ∧ vcGoesOn v v' st)
    ∧ vcDoes h (.xrec h a) (fun v v' =>
      let g := a.group.toNat % 8
      vcGoesOn v v' (if 7 < a.group.toNat then 0x20#8 else 0#8)
        ∧ sumTakes v v' a.esd fun i =>
          if i / 32 = g ∧ (v.preg a.pred).getLsbD (8 * (i % 32)) = true then
            (v.esElem a.esd i).add (Acc.ofRecord ((v.vreg a.va).extractLsb' (256 * (i % 32)) 256))
          else v.esElem a.esd i)
    ∧ vcDoes h (.xfold h a) (fun v v' =>
      let n := 2 ^ min 8 a.group.toNat
      vcGoesOn v v' (if 8 < a.group.toNat then 0x20#8 else 0#8)
        ∧ sumTakes v v' a.esd fun i =>
          match (((List.range n).map fun j => i / n * n + j).filter fun j => (v.preg a.pred).getLsbD j).map
            (v.esElem a.esa) with
          | [] => ⟨0#136, 0#10, false, false⟩
          | c :: cs => cs.foldl Acc.add c)
    ∧ vcDoesAt h (.xdrain h a) (fun s _ v v' =>
      let k := v.sreg a.sk
      let rand := fun i => if a.rnd.toNat < 2 then 0 else
        drainRandom s.job.seed (k.setWidth 32 + BitVec.ofNat 32 i) (k.extractLsb' 32 32)
          ((v.sreg (a.sk + 1)).setWidth 32) (if a.rnd = 3#2 then 0x80000000#32 else 0#32)
      let one := fun i => drainElem (if a.ofmt then 4#4 else 2#4) (v.esElem a.esa i) a.outShift.toInt a.rnd (rand i)
      lanesTake v v' a.va a.pred a.zero (fun i => BitVec.ofNat 32 (one i).1)
        ∧ ∃ st, bitsOver (v.preg a.pred) (fun i => (one i).2) st
          ∧ vcGoesOn v v' (st ||| (if 2 ≤ a.rnd.toNat ∧ a.sk = 31#5 then 0x20#8 else 0#8)))
    ∧ vcDoes h (.xout h a) (fun v v' => onlyV v v' a.va ∧ vcGoesOn v v' (if 7 < a.group.toNat then 0x20#8 else 0#8)
      ∧ ∀ k, k < 32 → (v'.vreg a.va).extractLsb' (256 * k) 256 = (v.esElem a.esa (32 * (a.group.toNat % 8) + k)).toRecord)
/-- R135, R141, Table 4.3: SLD and SST move 8 B between the scalar that the low 5 bits of VD name and the core's Pantry;
VLD and VST move 32 granules, wrapping; a store writes only the bytes of active lanes (R118), and nothing else in
memory changes. Each completes whatever is under way, and leaves its accesses to be made on their beats (R150); with none
before them, they have been made 3 or 4 beats after issue. -/
def Sys2Proof.Claims.vectorPantryAccessHold : Prop :=
  ∀ (h : HallId) (a : MArgs) (s : State),
    let key := vPantryKey h
    vcLeaves h (.sld h a) s 0#8 (fun _ v => [.read [.pantry key (scalarPlace v a) 8]])
      (fun _ => .scalar h (a.vd.setWidth 5))
    ∧ vcLeaves h (.vld h a) s 0#8
      (fun _ v => [.read [.pantry key (32 * granulePlace v a) 512], .read [.pantry key (32 * granulePlace v a + 512) 512]])
      (laneSink h a)
    ∧ vcLeaves h (.sst h a) s 0#8 (fun _ v => [.patch (.pantry key (scalarPlace v a) 8) (BitVec.allOnes 512)
        (bytesLE (v.sreg (a.vd.setWidth 5)).toNat 8)]) (fun _ => .none)
    ∧ (VcReady h (.vst h a) s → ∃ t u, onward s u ∧ exec (.vst h a) s = .next t ∧ memorySame u t
      ∧ otherCores u t [h.val] [] ∧ sharedSame u t ∧ noReg (u.vcore h) (t.vcore h)
      ∧ vcGoesOn (u.vcore h) (t.vcore h) 0#8
      ∧ let v := u.vcore h
        ∃ m0 m1, storeMask (v.preg a.pred) 0 m0 ∧ storeMask (v.preg a.pred) 1 m1
          ∧ leavesToDo u t [.patch (.pantry key (32 * granulePlace v a) 512) m0 (storeBytes (v.vreg a.vd) 0),
            .patch (.pantry key (32 * granulePlace v a + 512) 512) m1 (storeBytes (v.vreg a.vd) 1)] .none)
    ∧ vcLands h (.sld h a) 3 s (fun w v v' => memorySame s w ∧ vcGoesOn v v' 0#8
      ∧ scalarTakes v v' (a.vd.setWidth 5) (BitVec.ofNat 64 (vBytes s h (scalarPlace v a) 8)))
    ∧ vcLands h (.sst h a) 3 s (fun w v v' => noReg v v' ∧ vcGoesOn v v' 0#8
      ∧ vPantryTakes s w h fun b =>
        if scalarPlace v a ≤ b ∧ b < scalarPlace v a + 8 then
          (v.sreg (a.vd.setWidth 5)).extractLsb' (8 * (b - scalarPlace v a)) 8
        else vByte s h b)
    ∧ vcLands h (.vld h a) 4 s (fun w v v' => memorySame s w ∧ vcGoesOn v v' 0#8
      ∧ lanesTake v v' a.vd a.pred a.zero fun i => BitVec.ofNat 32 (vBytes s h (32 * granulePlace v a + 4 * i) 4))
    ∧ vcLands h (.vst h a) 4 s (fun w v v' => noReg v v' ∧ vcGoesOn v v' 0#8
      ∧ vPantryTakes s w h fun b =>
        let o := (b + 2 ^ 19 - 32 * granulePlace v a) % 2 ^ 19
        if o < 1024 ∧ (v.preg a.pred).getLsbD (o / 4) = true then BitVec.ofNat 8 (elemOf 8 (v.vreg a.vd) o)
        else vByte s h b)

/-- R136: LLD and LST move two consecutive rows of a handle's region. A grid-mode LST writes the bytes of active lanes, a
row-mode LST both rows whole. A row outside the region is a job-fatal error: nothing is moved, and 3010.02 records the
core, the handle and the row (R164, Table 5.7). The rows are read on the beats of R150, so that LLD and LST complete in
every case; with no access before them, the rows have been moved, or refused, 6 or 8 beats after issue. -/
def Sys2Proof.Claims.vectorLarderAccessHold : Prop :=
  ∀ (h : HallId) (a : MArgs) (s : State),
    let k := a.handle.toNat
    let o := rowPlace (s.vcore h) a
    let e := s.handle (hallTower h) k
    vcLeaves h (.lld h a) s 0#8 (fun _ v => [.read [.row h 2 k (rowPlace v a) [rowPlace v a, rowPlace v a + 1]],
        .read [.row h 2 k (rowPlace v a + 1) []]]) (laneSink h a)
    ∧ (VcReady h (.lst h a) s → ∃ t u, onward s u ∧ exec (.lst h a) s = .next t ∧ memorySame u t
      ∧ otherCores u t [h.val] [] ∧ sharedSame u t ∧ noReg (u.vcore h) (t.vcore h)
      ∧ vcGoesOn (u.vcore h) (t.vcore h) 0#8
      ∧ let v := u.vcore h
        let r := rowPlace v a
        ∃ m0 m1, storeMask (v.preg a.pred) 0 m0 ∧ storeMask (v.preg a.pred) 1 m1
          ∧ leavesToDo u t [.patch (.row h 2 k r [r, r + 1]) m0 (storeBytes (v.vreg a.vd) 0),
            .patch (.row h 2 k (r + 1) []) m1 (storeBytes (v.vreg a.vd) 1)] .none)
    ∧ (rowsGood s h k o false → vcLands h (.lld h a) 6 s fun w v v' => memorySame s w ∧ vcGoesOn v v' 0#8
      ∧ lanesTake v v' a.vd a.pred a.zero fun i =>
        BitVec.ofNat 32 (numLE ((List.range 4).map fun j => rowByte s h k (o + i / 128) (4 * (i % 128) + j))))
    ∧ (rowsGood s h k o true → vcLands h (.lst h a) 8 s fun w v v' => noReg v v' ∧ vcGoesOn v v' 0#8
      ∧ w.pantry = s.pantry ∧ w.cellar = s.cellar
      ∧ (∀ q j, q < 2 → j < 512 → rowByte w h k (o + q) j =
        if e.grid = false ∨ (v.preg a.pred).getLsbD (128 * q + j / 4) = true then
          BitVec.ofNat 8 (elemOf 8 (v.vreg a.vd) (512 * q + j))
        else rowByte s h k (o + q) j)
      ∧ (∀ k', k' ≠ sliceKey s h k → w.sliceOf k' = s.sliceOf k')
      ∧ ∀ b, ¬ (e.row0 + o ≤ b / 512 ∧ b / 512 ≤ e.row0 + o + 1) →
        (w.sliceOf (sliceKey s h k)).read b = (s.sliceOf (sliceKey s h k)).read b)
    ∧ (∀ i ∈ [Instr.lld h a, Instr.lst h a], VcReady h i s → s.ld.runs = [] → e.ok = true → e.valid = true →
      e.lenm1 < o → ∃ t, exec i s = .next t ∧
        let w := t.toBeat (t.milestone + 8)
        memorySame s w ∧ otherCores s w [h.val] [] ∧ noReg (s.vcore h) (w.vcore h)
        ∧ SMap.get 0#64 w.ld.lastFault (hallTower h) = BitVec.ofNat 3 2 ++ BitVec.ofNat 12 k
          ++ BitVec.ofNat 8 (tileOf h 2) ++ BitVec.ofNat 24 o ++ 0#17)

/-- R135, R136: the vector core's loads and stores. -/
def Obligations.VectorMemoryAccess : Prop := vectorPantryAccessHold ∧ vectorLarderAccessHold

/-- R132 to R134: with a visible head entry TWAIT writes its header to SD, TLD loads 32 granules of its payload (0
outside it) and TREL releases it; with none they are held, and go on in the same way once the head is visible. -/
def Sys2Proof.Claims.vectorQueuesHold : Prop :=
  ∀ (h : HallId) (a : CArgs) (m : MArgs) (s : State),
    let q := a.q
    let qm := m.handle.getLsbD 0
    (VcReady h (.twait h a) s → ∃ t u, onward s u ∧ exec (.twait h a) s = .next t ∧ onlyVector h u t
      ∧ if headSeen u h q then
          scalarTakes (u.vcore h) (t.vcore h) a.sd (headHeader u h q) ∧ vcGoesOn (u.vcore h) (t.vcore h) 0#8
        else ∃ b, onlyHolds (u.vcore h) (t.vcore h) (.queue q b))
    ∧ (VcReady h (.tld h m) s → ∃ t u, onward s u ∧ exec (.tld h m) s = .next t ∧ onlyVector h u t
      ∧ if headSeen u h qm then
          lanesTake (u.vcore h) (t.vcore h) m.vd m.pred m.zero (tldLane u h m) ∧ vcGoesOn (u.vcore h) (t.vcore h) 0#8
        else ∃ b, onlyHolds (u.vcore h) (t.vcore h) (.queue qm b))
    ∧ (VcReady h (.trel h a) s → ∃ t u, onward s u ∧ exec (.trel h a) s = .next t
      ∧ if headSeen u h q then
          released u t h q ∧ noReg (u.vcore h) (t.vcore h) ∧ vcGoesOn (u.vcore h) (t.vcore h) 0#8
            ∧ t = { u with vc := t.vc, ftq := t.ftq } ∧ ∀ k, k ≠ h.val → t.vcore k = u.vcore k
        else onlyVector h u t ∧ ∃ b, onlyHolds (u.vcore h) (t.vcore h) (.queue q b))
    ∧ (heldAtQueue s h (.twait h a) q → calm s → ∃ t u, onward s u ∧ exec (.twaitResume h) s = .next t
      ∧ onlyVector h u t ∧ scalarTakes (u.vcore h) (t.vcore h) a.sd (headHeader u h q) ∧ (t.vcore h).hold = .free
      ∧ (t.vcore h).pc = (u.vcore h).pc + 1)
    ∧ (heldAtQueue s h (.tld h m) qm → calm s → ∃ t u, onward s u ∧ exec (.twaitResume h) s = .next t
      ∧ onlyVector h u t ∧ lanesTake (u.vcore h) (t.vcore h) m.vd m.pred m.zero (tldLane u h m)
      ∧ (t.vcore h).hold = .free ∧ (t.vcore h).pc = (u.vcore h).pc + 1)
    ∧ (heldAtQueue s h (.trel h a) q → calm s → ∃ t u, onward s u ∧ exec (.twaitResume h) s = .next t
      ∧ released u t h q ∧ noReg (u.vcore h) (t.vcore h) ∧ (t.vcore h).hold = .free
      ∧ (t.vcore h).pc = (u.vcore h).pc + 1)

/-- R117, R140: MARK records its issue beat, which the model keeps as a program beat (log row 10); PACE issues on mark +
IMM, is held until then, and on a beat that has passed issues at once with PACE_LATE (trusting) or is a guarded-mode
fault that names the core and, beside Table 9.12's word, the PACE's word address; STATUS writes the status word to SD and
clears the bits of IMM[7:0]. -/
def Sys2Proof.Claims.vectorTimeHold : Prop :=
  ∀ (h : HallId) (a : CArgs) (s : State),
    let b := vcBeat (s.vcore h) ⟨unitC, [markKey], [], 1, 1, false⟩
    let u := s.toBeat b
    let v := u.vcore h
    let due := v.mark.toNat + a.imm.toNat + u.integ.jobOffset
    vcDoesAt h (.mark h a) (fun s b v v' => vcGoesOn v v' 0#8 ∧ v'.v = v.v ∧ v'.s = v.s ∧ v'.p = v.p ∧ v'.es = v.es
      ∧ b = vcBeat (s.vcore h) ⟨unitC, [], [markKey], 1, 1, false⟩
      ∧ v'.mark = BitVec.ofNat 64 (b - (s.toBeat b).integ.jobOffset))
    ∧ (VcReady h (.pace h a) s →
      (b = due → ∃ t, exec (.pace h a) s = .next t ∧ onlyVector h u t ∧ noReg v (t.vcore h) ∧ vcGoesOn v (t.vcore h) 0#8)
      ∧ (b < due → ∃ t, exec (.pace h a) s = .next t ∧ onlyVector h u t ∧ onlyHolds v (t.vcore h) (.pace due))
      ∧ (due < b → u.guarded = false → ∃ t, exec (.pace h a) s = .next t ∧ onlyVector h u t ∧ noReg v (t.vcore h)
        ∧ vcGoesOn v (t.vcore h) 0x10#8)
      ∧ (due < b → u.guarded = true → ∃ t, exec (.pace h a) s = .next t ∧ memorySame u t ∧ t.vc = u.vc ∧ t.mc = u.mc
        ∧ (t.job.guardFault.extractLsb' 60 4).toNat = 5 ∧ (t.job.guardFault.extractLsb' 30 8).toNat = tileOf h 2
        ∧ t.job.guardAddr = v.pc.toNat))
    ∧ (∀ until_, s.hallEnabled h.val = true → s.active = true → (s.vcore h).running = true →
      (s.vcore h).hold = .pace until_ → calm s →
      ∃ t u, onward s u ∧ exec (.paceRelease h) s = .next t ∧ onlyVector h u t ∧ noReg (u.vcore h) (t.vcore h)
        ∧ (t.vcore h).hold = .free ∧ (t.vcore h).pc = (u.vcore h).pc + 1 ∧ (t.vcore h).status = (u.vcore h).status
        ∧ until_ ≤ t.milestone)
    ∧ vcDoes h (.vcStatus h a) (fun v v' => vcKeeps v v' ∧ v'.pc = v.pc + 1
      ∧ scalarTakes v v' a.sd (v.status.setWidth 64) ∧ v'.status = v.status &&& ~~~(a.imm.setWidth 8))

/-- R137, R222 to R224: WAIT goes on at issue where its bell meets the target (a WAIT on STEP_BELL that a launch has met
waits for its ENTRY, R260), and is held otherwise; a held WAIT goes on once its bell has met the target, 3 beats later
unless an addition of the beat of its issue met it. SIGNAL leaves an addition of IMM[15:0] to come, none where it is 0;
the addition raises the bell modulo 2^48. -/
def Sys2Proof.Claims.vectorBellsHold : Prop :=
  ∀ (h : HallId) (a : CArgs) (s : State),
    let tw := hallTower h
    (VcReady h (.vcWait h a) s → ∃ t u, onward s u ∧ exec (.vcWait h a) s = .next t ∧
      let v := u.vcore h
      let p := u.bell tw a.bell.toNat
      let target : BitVec 48 := (v.sreg a.sa).setWidth 48
      if p.ok then
        onlyVector h u t ∧
        if bellMeets p.count target then
          if u.launchWait a.bell target then ∃ b, onlyHolds v (t.vcore h) (.entry (u.job.lastShape.setWidth 4) b)
          else noReg v (t.vcore h) ∧ vcGoesOn v (t.vcore h) 0#8
        else ∃ b, onlyHolds v (t.vcore h) (.bell a.bell target b none)
      else memorySame u t ∧ ∃ b, (t.vcore h).hold = .bell a.bell target b none)
    ∧ (∀ b tg since met, s.hallEnabled h.val = true → s.active = true → (s.vcore h).running = true →
      (s.vcore h).hold = .bell b tg since (some met) → calm s → ∃ t u, onward s u ∧ exec (.vcWaitResume h) s = .next t
        ∧ onlyVector h u t ∧ noReg (u.vcore h) (t.vcore h) ∧ (t.vcore h).hold = .free
        ∧ (t.vcore h).pc = (u.vcore h).pc + 1 ∧ (if met ≤ since then since else met + 3) ≤ t.milestone)
    ∧ vcDoes h (.vcSignal h a) (fun v v' => noReg v v' ∧ v'.hold = v.hold ∧ v'.pc = v.pc + 1 ∧ v'.status = v.status
      ∧ sigOf v'.signals = sigOf v.signals ++
        (if a.imm.setWidth 16 = 0#16 then [] else [(a.bell, a.imm.setWidth 16)]))
    ∧ (∀ g gs, s.hallEnabled h.val = true → s.active = true → (s.vcore h).signals = g :: gs → calm s →
      ∃ t u, onward s u ∧ exec (.vcSignalBellChange h) s = .next t ∧ memorySame u t ∧ g.due ≤ t.milestone
        ∧ ((u.bell tw g.bell.toNat).ok = true → bellRises u t tw g.bell.toNat g.inc.toNat
          ∧ (t.vcore h).signals = gs ∧ noReg (u.vcore h) (t.vcore h)))

/-- R117, R137, R140, R222 to R224: MARK, PACE, STATUS, WAIT and SIGNAL. -/
def Obligations.VectorTimeAndBells : Prop := vectorTimeHold ∧ vectorBellsHold

/-- R138, R139, R192, R235: DESC hands the 64 B at granule s[SA] to the porter that IMM[4:0] selects, 17 to 31 to none,
which sets INS_RESERVED; PSEND with a free stage entry and no reply slot to reserve sends the 32 B descriptor at granule
s[SA], clears OUTCOME of the sender's copy, and answers the new sequence number and count with result 0; PRECV moves the
head descriptor of the post to granule s[SA], and is held while the post is empty. Their accesses are made on their beats:
they complete whatever is under way. -/
def Sys2Proof.Claims.vectorSendsHold : Prop :=
  ∀ (h : HallId) (a : CArgs) (s : State),
    let key := vPantryKey h
    let place := fun v : VCore => 32 * ((v.sreg a.sa).toNat % 16384)
    let g := ((s.vcore h).sreg a.sa).toNat % 16384
    let sel := a.imm.toNat % 32
    let porter := if sel = 0 then 64 + h.val else 16 * hallTower h + (sel - 1)
    let k := precvPost h a
    (VcReady h (.desc h a) s → ∃ t u, onward s u ∧ exec (.desc h a) s = .next t ∧ memorySame u t
      ∧ otherCores u t [h.val] [] ∧ sharedSame u t ∧ noReg (u.vcore h) (t.vcore h)
      ∧ vcGoesOn (u.vcore h) (t.vcore h) (if 17 ≤ sel then 0x20#8 else 0#8)
      ∧ ∃ x, leavesToDo u t [.read [.pantry key (place (u.vcore h)) 64]] x
        ∧ if 17 ≤ sel then x = .none else ∃ hd, x = .hand porter hd ∧ hd.supplied = none ∧ hd.core = some h.val)
    ∧ (VcReady h (.psend h a) s → ∃ t u, onward s u ∧ exec (.psend h a) s = .next t ∧ memorySame u t
      ∧ otherCores u t [h.val] [] ∧ sharedSame u t ∧ noReg (u.vcore h) (t.vcore h)
      ∧ vcGoesOn (u.vcore h) (t.vcore h) 0#8
      ∧ ∃ x, leavesToDo u t [.read [.pantry key (place (u.vcore h)) 32], .read []] (.send h
          (((u.vcore h).sreg a.sa).toNat % 16384) a.sd x))
    ∧ (sel < 17 → vcLands h (.desc h a) 2 s fun w v v' => memorySame s w ∧ noReg v v' ∧ vcGoesOn v v' 0#8
      ∧ ∃ pre hd, (w.porter porter).arriving = pre ++ [hd] ∧ hd.desc.toNat = vBytes s h (32 * g) 64)
    ∧ (let d : PostDesc := BitVec.ofNat 256 (vBytes s h (32 * g) 32)
      s.postFault d = 0 → (s.stage h).entries.length < 8 → ¬ (d.wantReply = true ∧ d.post < 16) →
      vcLands h (.psend h a) 4 s fun w v v' => vcGoesOn v v' 0#8
        ∧ (vPantryTakes s w h fun b => if b = 32 * g + 10 then vByte s h b &&& 0xF3#8 else vByte s h b)
        ∧ scalarTakes v v' a.sd (((s.stage h).seq + 1) ++ 0#16 ++ BitVec.ofNat 8 ((s.stage h).entries.length + 1) ++ 0#8)
        ∧ (w.stage h).seq = (s.stage h).seq + 1 ∧ (w.stage h).entries.length = (s.stage h).entries.length + 1)
    ∧ (VcReady h (.precv h a) s → ∃ t u, onward s u ∧ exec (.precv h a) s = .next t ∧ memorySame u t
      ∧ ((u.post k).slots = [] → onlyVector h u t ∧ ∃ b, onlyHolds (u.vcore h) (t.vcore h) (.post k b))
      ∧ ∀ x xs, (u.post k).slots = x :: xs → (u.post k).pairsOk = true →
        (t.post k).slots = xs ∧ (t.post k).taken.v = (u.post k).taken.v + 1 ∧ (∃ y, scalarTakes (u.vcore h) (t.vcore h) a.sd y)
        ∧ leavesToDo u t [.patch (.pantry key (place (u.vcore h)) 32) (BitVec.allOnes 512) (bytesLE x.desc.toNat 32)] .none)
    ∧ (∀ x xs, (s.post k).slots = x :: xs → (s.post k).pairsOk = true →
      vcLands h (.precv h a) 3 s fun w v v' =>
        vcKeeps v v' ∧ v'.pc = v.pc + 1 ∧ v'.status = v.status ||| (if a.imm.toNat % 4 = 3 then 0x20#8 else 0#8)
        ∧ (vPantryTakes s w h fun b => if 32 * g ≤ b ∧ b < 32 * g + 32 then x.desc.extractLsb' (8 * (b - 32 * g)) 8
            else vByte s h b)
        ∧ (∃ x, scalarTakes v v' a.sd x)
        ∧ (w.post k).slots = xs ∧ (w.post k).taken.v = (s.post k).taken.v + 1 ∧ (w.post k).pairsOk = true)
    ∧ (∀ x xs since, s.hallEnabled h.val = true → s.active = true → (s.vcore h).running = true →
      (s.vcore h).hold = .post k since → decodeVector h (s.vcFetch h) = .precv h a → (s.post k).slots = x :: xs →
      (s.post k).pairsOk = true → s.ld.runs = [] →
      ∃ t, exec (.precvResume h) s = .next t ∧
        let w := t.toBeat (t.milestone + 3)
        (w.vcore h).hold = .free ∧ (w.vcore h).pc = (s.vcore h).pc + 1
        ∧ (vPantryTakes s w h fun b => if 32 * g ≤ b ∧ b < 32 * g + 32 then x.desc.extractLsb' (8 * (b - 32 * g)) 8
            else vByte s h b)
        ∧ (w.post k).slots = xs ∧ (w.post k).taken.v = (s.post k).taken.v + 1)

/-- R132 to R134, R138, R139, R235: finished-tile queues, porters and posts, as a vector core uses them. -/
def Obligations.VectorQueuesAndSends : Prop := vectorQueuesHold ∧ vectorSendsHold

/-- R114 for integer instructions on two vector registers: the issue beat is the first that meets the conditions, the
next instruction issues no earlier than one beat later, and the destination is written 2 beats after issue (Table 4.3). -/
def Obligations.VectorIssueBeat : Prop :=
  ∀ (h : HallId) (a : RArgs) (s : State), ∀ i ∈ [Instr.iadd h a, Instr.isub h a, Instr.vand h a, Instr.vxor h a],
    VcReady h i s → ∃ t b, exec i s = .next t ∧ onlyVector h (s.toBeat b) t ∧ b ≤ t.milestone
      ∧ IsLeast { b | mayIssue (s.vcore h) unitA [pKey a.pred, vKey a.va, vKey a.vb] [vKey a.vd] 2 b } b
      ∧ (t.vcore h).nextIssue = b + 1
      ∧ SMap.get 0 (t.vcore h).times.ready (vKey a.vd)
        = max (b + 2) (SMap.get 0 ((s.toBeat b).vcore h).times.ready (vKey a.vd))
      ∧ SMap.get 0 (t.vcore h).times.unitFree unitA = b + 1

/-- R150, R152, R160, R197, R266: accesses act one after another, in the order of their beats; where none stands before a
beat, or cores and movers do not act, time passes and nothing else changes. An access that a check refuses moves nothing,
and its run makes no further one. A store changes the bytes that its mask names, or a row of a row-mode region whole, and no
other byte of memory; a load leaves memory, and the last access of one brings the register what was read on its beats. -/
def Sys2Proof.Claims.accessesActHold : Prop :=
  ∀ (s : State) (r : Run),
    let t := s.perform r
    let next := r.acts[r.done]?
    (∀ b, s.moving = false ∨ nextAct s.ld.runs (max s.milestone b) = none →
      s.toBeat b = { s with
        milestone := max s.milestone b, wall := (s.toBeat b).wall, clock := (s.toBeat b).clock })
    ∧ (∀ b, nextAct s.ld.runs b = some r → r ∈ s.ld.runs ∧ r.pends = true ∧ r.actBeat < b
      ∧ ∀ x ∈ s.ld.runs, x.pends = true → r.actBeat ≤ x.actBeat)
    ∧ (∀ b, nextAct s.ld.runs b = none → ∀ x ∈ s.ld.runs, x.pends = true → b ≤ x.actBeat)
    ∧ (∀ ps, next = some (.read ps) → (∃ p ∈ ps, (s.placeFault p false).isSome = true) →
      memorySame s t ∧ t.mc = s.mc ∧ t.vc = s.vc ∧ ∀ x ∈ t.ld.runs, x.seq ≠ r.seq)
    ∧ (∀ p m bs, next = some (.patch p m bs) → (s.placeFault p true).isSome = true →
      memorySame s t ∧ t.mc = s.mc ∧ t.vc = s.vc ∧ ∀ x ∈ t.ld.runs, x.seq ≠ r.seq)
    ∧ (∀ key a n m bs, next = some (.patch (.pantry key a n) m bs) → bs.length ≤ 512 →
      t.larder = s.larder ∧ t.cellar = s.cellar ∧ t.mc = s.mc ∧ t.vc = s.vc
      ∧ (∀ k, k ≠ key → t.pantryOf k = s.pantryOf k)
      ∧ ∀ x, x < pantrySize key → t.pantryByte key x =
        let j := (x + pantrySize key - a % pantrySize key) % pantrySize key
        if j < bs.length ∧ m.getLsbD j = true then bs.getD j 0#8 else s.pantryByte key x)
    ∧ (∀ h c k o all m bs, next = some (.patch (.row h c k o all) m bs) → bs.length = 512 →
      s.placeFault (.row h c k o all) true = none →
      let e := s.handle (hallTower h) k
      t.pantry = s.pantry ∧ t.cellar = s.cellar ∧ t.mc = s.mc ∧ t.vc = s.vc
      ∧ (∀ i, i ≠ s.coreSlice h k → t.sliceOf i = s.sliceOf i)
      ∧ (∀ j, j < 512 → (t.readRow (s.coreSlice h k) e.row0 o e.grid).read j =
        if e.grid = false ∨ m.getLsbD j = true then bs.getD j 0#8
        else (s.readRow (s.coreSlice h k) e.row0 o e.grid).read j)
      ∧ ∀ x, x / 512 ≠ e.row0 + o → (t.sliceOf (s.coreSlice h k)).read x = (s.sliceOf (s.coreSlice h k)).read x)
    ∧ (∀ p h sd, next = some (.read [p]) → s.placeFault p false = none → r.sink = .scalar h sd →
      memorySame s t ∧ t.mc = s.mc ∧ (∀ k, k ≠ h → t.vcore k = s.vcore k)
      ∧ scalarTakes (s.vcore h) (t.vcore h) sd (BitVec.ofNat 64 ((s.readPlace p).readLE 0 8)))
    ∧ ∀ p h vd take wipe, next = some (.read [p]) → s.placeFault p false = none → r.sink = .lanes h vd take wipe →
      memorySame s t ∧ t.mc = s.mc ∧ (∀ k, k ≠ h → t.vcore k = s.vcore k)
      ∧ (r.done + 1 < r.acts.length → t.vcore h = s.vcore h)
      ∧ (r.done + 1 = r.acts.length → onlyV (s.vcore h) (t.vcore h) vd ∧ ∀ i, i < 256 → lane ((t.vcore h).vreg vd) i =
        if take.getLsbD i then
          BitVec.ofNat 32 ((joinRows (r.got ++ [s.readPlace p]) 0).readLE (4 * i) 4)
        else if wipe.getLsbD i then 0#32 else lane ((s.vcore h).vreg vd) i)


/-- R86, R89, R90: NOP and a reserved opcode only go on (the latter sets CMD_RESERVED), to the next word, or back to
the first word of an innermost loop body that ends here and has runs left; END stops the sequencer; a LOOP whose COUNT is
0 skips its body, a fifth nested one runs it once and sets CMD_RESERVED. -/
def Sys2Proof.Claims.matrixControlHold : Prop :=
  ∀ (c : MCoreId) (op : BitVec 6) (a : LoopArgs) (s₀ : State),
    mcDoes c (.mcNop c) (fun m => m)
    ∧ mcDoes c (.mcReservedOpcode c op) (fun m => { m with status := m.status ||| 0x10#8 })
    ∧ mcOwn c (.mcNop c) s₀ (fun m m' =>
      (m.loops = [] → m'.pc = m.pc + 1 ∧ m'.loops = [])
      ∧ ∀ f fs, m.loops = f :: fs →
        (m.pc + 1 ≠ f.stop → m'.pc = m.pc + 1 ∧ m'.loops = f :: fs)
        ∧ (m.pc + 1 = f.stop → 1 < f.remaining → m'.pc = f.start
          ∧ m'.loops = { f with remaining := f.remaining - 1 } :: fs)
        ∧ (m.pc + 1 = f.stop → f.remaining ≤ 1 → (∀ g ∈ fs, m.pc + 1 ≠ g.stop) → m'.pc = m.pc + 1 ∧ m'.loops = fs))
    ∧ mcOwn c (.mcEnd c) s₀ (fun m m' => m' = { m with running := false })
    ∧ (a.count = 0#24 → mcOwn c (.mcLoop c a) s₀ fun m m' =>
      m' = { m with pc := m.pc + 1 + a.body.toNat, nextIssue := m.nextIssue + 1 })
    ∧ (a.count ≠ 0#24 → mcOwn c (.mcLoop c a) s₀ fun m m' =>
      m' = { m with
        pc := m.pc + 1, nextIssue := m.nextIssue + 1,
        loops := ⟨m.pc + 1, m.pc + 1 + a.body.toNat, if m.loops.length = 4 then 1 else a.count.toNat⟩ :: m.loops,
        status := if m.loops.length = 4 then m.status ||| 0x10#8 else m.status })

/-- R73, R87, R91, Table 3.4: SETA, SETW, SETR and STATUS write the register they name and no other; a reserved selector
of SETR writes none and sets CMD_RESERVED. -/
def Sys2Proof.Claims.matrixRegistersHold : Prop :=
  ∀ (c : MCoreId) (a : SetaArgs) (w : SetwArgs) (r : SetrArgs) (mask : BitVec 8) (s : State),
    mcOwn c (.mcSeta c a) s (fun m m' => aregTakes m m' a.areg ⟨a.base, a.step⟩ ∧ mcGoesOn m { m with ar := m'.ar } m')
    ∧ mcOwn c (.mcSetw c w) s (fun m m' => mcGoesOn m { m with wt := m'.wt } m'
      ∧ ∀ j : BitVec 4, SMap.get 0#48 m'.wt j.toNat = if j = w.wreg then w.value else SMap.get 0#48 m.wt j.toNat)
    ∧ mcDoes c (.mcSetr c r) (fun m =>
      if r.sel = 0x01#8 then { m with streamTag := r.value }
      else if r.sel = 0x02#8 then { m with outBase := r.value }
      else if r.sel = 0x03#8 then { m with tileIndex := r.value }
      else { m with status := m.status ||| 0x10#8 })
    ∧ mcDoes c (.mcStatus c mask) (fun m => { m with status := m.status &&& ~~~mask })

/-- R73, R86, R87, R89 to R91: the sequencer and its registers. -/
def Obligations.MatrixControlAndRegisters : Prop := matrixControlHold ∧ matrixRegistersHold

/-- R91, R92, R260: WAIT adds STEP to its wait register and goes on at issue where the bell meets it, else holds the
sequencer until 3 beats after the bell first does, or until the beat of issue where an addition of that beat met it; one
on STEP_BELL that a launch meets resumes at ENTRY of the latched shape with its loop stack empty. SIGNAL leaves an
addition of INC to come, none where INC = 0; the oldest raises its bell, modulo 2^48, once every entry of the earlier
drains is visible. -/
def Obligations.MatrixBells : Prop :=
  ∀ (c : MCoreId) (a : MWaitArgs) (g : MSignalArgs) (s : State),
    let tw := mcTower c
    (McReady c (.mcWait c a) s → ∃ t u, onward s u ∧ exec (.mcWait c a) s = .next t ∧
      let m := u.mcore c
      let p := u.bell tw a.bell.toNat
      let target := SMap.get 0#48 m.wt a.wreg.toNat + a.step.setWidth 48
      let wt' := SMap.set 0#48 m.wt a.wreg.toNat target
      if p.ok then
        onlyMatrix c u t ∧
        if bellMeets p.count target then
          if u.launchWait a.bell target then
            ∃ b, t.mcore c = { m with wt := wt', hold := .entry (u.job.lastShape.setWidth 4) b }
          else mcGoesOn m { m with wt := wt' } (t.mcore c)
        else ∃ b, t.mcore c = { m with wt := wt', hold := .bell a.bell target b none }
      else memorySame u t ∧ ∃ b, t.mcore c = { m with wt := wt', hold := .bell a.bell target b none })
    ∧ (∀ b tg since met, s.hallEnabled (c.val / 2) = true → s.active = true → (s.mcore c).running = true →
      (s.mcore c).hold = .bell b tg since (some met) → calm s → ∃ t u, onward s u ∧ exec (.mcWaitResume c) s = .next t
        ∧ onlyMatrix c u t ∧
        let m := u.mcore c
        let b := if met ≤ since then since else met + 3
        (t.mcore c).hold = .free ∧ mcGoesOn m { m with hold := .free } { t.mcore c with nextIssue := m.nextIssue + 1 }
          ∧ (t.mcore c).nextIssue = b + 1 ∧ b ≤ t.milestone)
    ∧ (∀ shape met, s.hallEnabled (c.val / 2) = true → s.active = true → (s.mcore c).running = true →
      (s.mcore c).hold = .entry shape met → calm s →
      ∃ t u, onward s u ∧ exec (.shapeEntryResume false c) s = .next t ∧ onlyMatrix c u t
        ∧ t.mcore c = { u.mcore c with
            hold := .free, loops := [], shape := shape, nextIssue := met + 3
            pc := u.entryOf (mPantryKey c) shape.toNat })
    ∧ (∀ h : HallId, h.val = c.val / 2 → ∀ shape met, s.hallEnabled h.val = true → s.active = true →
      (s.vcore h).running = true → (s.vcore h).hold = .entry shape met → calm s →
      ∃ t u, onward s u ∧ exec (.shapeEntryResume true c) s = .next t ∧ onlyVector h u t
        ∧ t.vcore h = { u.vcore h with
            hold := .free, shape := shape, nextIssue := met + 3
            pc := BitVec.ofNat 16 (u.entryOf (vPantryKey h) shape.toNat) })
    ∧ mcOwn c (.mcSignal c g) s (fun m m' => mcGoesOn m { m with signals := m'.signals } m'
      ∧ sigOf m'.signals = sigOf m.signals ++ (if g.inc = 0#16 then [] else [(g.bell, g.inc)]))
    ∧ (∀ x xs, s.hallEnabled (c.val / 2) = true → s.active = true → (s.mcore c).signals = x :: xs →
      x.mark ≤ (s.queue c).seen → calm s →
      ∃ t u, onward s u ∧ exec (.mcSignalBellChange c) s = .next t ∧ memorySame u t ∧ x.due ≤ t.milestone
        ∧ ((u.bell tw x.bell.toNat).ok = true → bellRises u t tw x.bell.toNat x.inc.toNat ∧ (t.mcore c).signals = xs))

/-- R87, R93 to R96, R102, R150, R158: LOADW fills its slot with the planes that lie in the Pantry, or row by row in the
handle's region; SETKEYS takes 128 column keys. AREG, and SREG for an MX format, are stepped when the command starts; the
rows are read on their beats, and the last fills the slot. A Larder row outside the region is a job-fatal error, and the
slot keeps its tile. -/
def Obligations.MatrixLoads : Prop :=
  ∀ (c : MCoreId) (a : LoadwArgs) (k : SetkeysArgs) (s : State),
    let f : Fmt := a.wfmt
    let n := elemRows f + scaleRows f
    let rows := loadwRows (s.mcore c) a
    let e := s.handle (mcTower c) a.handle.toNat
    let key := mPantryKey c
    let xp := a.xpose && decide (a.wfmt = 3#4 ∨ a.wfmt = 5#4 ∨ a.wfmt = 6#4 ∨ a.wfmt = 10#4)
    let steps := fun m m' => aregsStep m m' [(a.areg, a.ainc), (a.sreg, a.sinc && f.isMx)]
    let others := fun m m' : MCore => mcRest m m' ∧ slotOf m' (!a.slot) = slotOf m (!a.slot) ∧ m'.banks = m.banks
      ∧ m'.status = m.status ∧ m'.keys = m.keys
    let begun := fun m m' : MCore => others m m' ∧ steps m m' ∧ slotOf m' a.slot = slotOf m a.slot
    (a.src = false → mcLeaves c (.mcLoadw c a) s
        (fun m => ((List.range (elemRows f)).map fun i => .read [.pantry key (granuleByte (m.areg a.areg).base + 512 * i) 512])
          ++ (List.range (scaleRows f)).map fun i => .read [.pantry key (granuleByte (m.areg a.sreg).base + 512 * i) 512])
        (fun _ => .slot c a.slot a.wfmt false (elemRows f)) begun)
    ∧ (a.src = true → mcLeaves c (.mcLoadw c a) s
        (fun m => (loadwRows m a).zipIdx.map fun r =>
          .read [.row (c.val / 2) (c.val % 2) a.handle.toNat r.1 (if r.2 = 0 then loadwRows m a else [])])
        (fun _ => .slot c a.slot a.wfmt xp (elemRows f)) begun)
    ∧ (a.src = false → mcLands c (.mcLoadw c a) (n + 2) s fun m m' => others m m' ∧ steps m m'
      ∧ (slotOf m' a.slot).fmt = a.wfmt ∧ (slotOf m' a.slot).xpose = false
      ∧ (∀ j, j < 512 * elemRows f →
        (slotOf m' a.slot).elems.read j = mByte s c (granuleByte (m.areg a.areg).base + j))
      ∧ ∀ j, j < 512 * scaleRows f →
        (slotOf m' a.slot).scales.read j = mByte s c (granuleByte (m.areg a.sreg).base + j))
    ∧ (a.src = true → accessGood s c a.handle.toNat rows → mcLands c (.mcLoadw c a) (n + 4) s fun m m' =>
      others m m' ∧ steps m m' ∧ (slotOf m' a.slot).fmt = a.wfmt ∧ (slotOf m' a.slot).xpose = xp
      ∧ (∀ j, j < 512 * elemRows f → (slotOf m' a.slot).elems.read j
        = regionByte s c a.handle.toNat (loadwOffset m a (j / 512)) (j % 512))
      ∧ ∀ j, j < 512 * scaleRows f → (slotOf m' a.slot).scales.read j
        = regionByte s c a.handle.toNat ((m.areg a.sreg).base.toNat + j / 512) (j % 512))
    ∧ (a.src = true → McReady c (.mcLoadw c a) s → s.ld.runs = [] → e.ok = true → e.valid = true → ∀ o ∈ rows,
      e.lenm1 < o → (∀ o' ∈ rows.takeWhile (· != o), o' ≤ e.lenm1) →
      ∃ t, exec (.mcLoadw c a) s = .next t ∧
        let w := t.toBeat (t.milestone + n + 4)
        memorySame s w ∧ otherCores s w [] [c.val] ∧ slotOf (w.mcore c) a.slot = slotOf (s.mcore c) a.slot
        ∧ SMap.get 0#64 w.ld.lastFault (mcTower c) = BitVec.ofNat 3 2 ++ a.handle
          ++ BitVec.ofNat 8 (tileOf (c.val / 2) (c.val % 2)) ++ BitVec.ofNat 24 o ++ 0#17)
    ∧ mcLeaves c (.mcSetkeys c k) s
      (fun m => [.read [.pantry key (granuleByte (m.areg k.areg).base) 256],
        .read [.pantry key (granuleByte (m.areg k.areg).base + 256) 256]]) (fun _ => .keys c)
      (fun m m' => aregsStep m m' [(k.areg, k.ainc)] ∧ mcRest m m' ∧ m'.keys = m.keys
        ∧ m'.keysNext.map Prod.snd = m.keysNext.map Prod.snd)
    ∧ mcLands c (.mcSetkeys c k) 2 s fun m m' =>
      aregsStep m m' [(k.areg, k.ainc)] ∧ mcRest m m' ∧ m'.slot0 = m.slot0 ∧ m'.slot1 = m.slot1 ∧ m'.banks = m.banks
        ∧ m'.keys = m.keys ∧ ∃ keys, m'.keysNext.map Prod.snd = m.keysNext.map Prod.snd ++ [keys]
        ∧ ∀ i, i < 128 → SMap.get 0#32 keys i = BitVec.ofNat 32 (mBytes s c (granuleByte (m.areg k.areg).base + 4 * i) 4)

/-- R82, R83, R98, R150: an ACC leaves its vectors to be read one after another, and every element that it writes takes the
products of its one activation vector, after CLEAR has cleared and anchored it; every other element of every bank stays.
The status word gains the conditions met, and FORMAT_RESERVED where an operand's format is no source of the array. -/
def Obligations.MatrixAccumulate : Prop :=
  ∀ (c : MCoreId) (a : AccArgs) (s : State),
    let steps := fun m m' : MCore => aregsStep m m' [(a.areg, a.ainc), (a.sreg, a.sinc && Fmt.isMx a.afmt)]
    let foreign := fun m : MCore => ¬ (Fmt.arraySource (slotOf m a.slot).fmt = true ∧ Fmt.arraySource a.afmt = true)
    mcLeaves c (.mcAcc c a) s (accReads c a) (fun _ => .column c a []) (fun m m' =>
      mcRest m m' ∧ m'.slot0 = m.slot0 ∧ m'.slot1 = m.slot1 ∧ m'.keys = m.keys ∧ m'.banks = m.banks ∧ steps m m'
        ∧ ∀ n, n < 8 → (m'.status.getLsbD n = true ↔ m.status.getLsbD n = true ∨ (n = 3 ∧ foreign m)))
    ∧ mcLands c (.mcAcc c a) (8 * accCount a) s fun m m' =>
      let t := slotOf m a.slot
      mcRest m m' ∧ m'.slot0 = m.slot0 ∧ m'.slot1 = m.slot1 ∧ m'.keys = m.keys ∧ steps m m'
        ∧ (∀ v y k o b, accWrites t a v y k o b → bankElem m' k o b = (accOut s c a v y).1)
        ∧ (∀ k o b, o < 128 → b < 128 → (∀ v y, ¬ accWrites t a v y k o b) → bankElem m' k o b = bankElem m k o b)
        ∧ ∀ n, n < 8 → (m'.status.getLsbD n = true ↔ m.status.getLsbD n = true ∨ (n = 3 ∧ foreign m)
          ∨ ∃ v y, v < accCount a ∧ y < outCount a t ∧ (accOut s c a v y).2.getLsbD n = true)

/-- R85, R100, R103, R104: CLEAR clears its whole bank. A DRAIN leaves one entry to be written for every
floor (32,768 ÷ column bytes) columns, and clears the elements it reads where CLR = 1; one to a reserved format writes
nothing and sets FORMAT_RESERVED (R38; that STCLR = 1 then clears nothing is the model's choice, log row 115). -/
def Sys2Proof.Claims.matrixClearAndDrainHold : Prop :=
  ∀ (c : MCoreId) (bank : BitVec 2) (a : DrainArgs) (s : State),
    mcOwn c (.mcClear c bank) s (fun m m' => mcGoesOn m { m with banks := m'.banks } m'
      ∧ ∀ k o b, o < 128 → b < 128 → bankElem m' k o b = if k = bank.toNat then Acc.zero else bankElem m k o b)
    ∧ (McReady c (.mcDrain c a) s → ∃ t u, onward s u ∧ exec (.mcDrain c a) s = .next t ∧ onlyMatrix c u t ∧
      let m := u.mcore c
      let m' := t.mcore c
      (m'.pc, m'.loops) = closeLoops (m.pc + 1) m.loops ∧ m'.ar = m.ar ∧ m'.wt = m.wt ∧ m'.slot0 = m.slot0
      ∧ m'.slot1 = m.slot1 ∧ m'.signals = m.signals ∧ m'.drainWait = m.drainWait
      ∧ (∀ k o b, o < 128 → b < 128 → (a.clr = true ∧ drained a k o b → bankElem m' k o b = Acc.zero)
        ∧ (¬ (a.clr = true ∧ drained a k o b) → bankElem m' k o b = bankElem m k o b))
      ∧ (Fmt.reserved a.ofmt = true → m'.pieces = m.pieces ∧ m'.status = m.status ||| 0x08#8)
      ∧ (Fmt.reserved a.ofmt = false → m'.status = m.status ∧ ∃ new, m'.pieces = m.pieces ++ new
        ∧ new.length = ceilDiv (drainCount a) (drainPerEntry a)
        ∧ ∀ j p, new[j]? = some p → entryIs u m a new.length j p))

/-- R105, R106: an entry that is written becomes visible 2 beats later; the oldest entry that a drain has converted is
written where fewer than eight stand in the queue on the beat of its first byte, else the drain waits (trusting mode), or
a guarded-mode fault records the core, the beat and the drain's command address; a drain that waits goes on once an entry
is released, counts the beats waited and sets FTQ_WAIT, and all that follows in the core comes as much later. -/
def Sys2Proof.Claims.finishedTileQueueHold : Prop :=
  ∀ (c : MCoreId) (s : State), s.hallEnabled (c.val / 2) = true → s.active = true → calm s →
    let m := s.mcore c
    let q := s.queue c
    (q.seen < q.written → ∃ t u b, onward s u ∧ exec (.ftqEntryVisible c) s = .next t ∧ entrySeen u t c b ∧ b ≤ t.milestone
      ∧ (∀ x, q.entries[q.seen - q.released]? = some x → b = x.writtenAt + 2))
    ∧ (∀ p ps, q.written ≤ q.seen → m.pieces = p :: ps → m.drainWait = none →
      (standing q p.first < 8 → ∃ t u v, onward s u ∧ p.due ≤ u.milestone ∧ exec (.ftqEntryVisible c) s = .next t
        ∧ memorySame u v ∧ v.vc = u.vc ∧ entryWritten u v c p p.due ∧ (v.mcore c).pieces = ps
        ∧ (v.mcore c).status = (if p.stclr then 0#8 else (u.mcore c).status ||| p.conds)
        ∧ ((v.toBeat (p.due + 2)).moving = true → entrySeen (v.toBeat (p.due + 2)) t c (p.due + 2)))
      ∧ (8 ≤ standing q p.first → ∃ t u, onward s u ∧ exec (.ftqEntryVisible c) s = .next t ∧
        if u.guarded then
          memorySame u t ∧ t.mc = u.mc ∧ t.vc = u.vc ∧ t.ftq = u.ftq ∧ (t.job.guardFault.extractLsb' 60 4).toNat = 4
          ∧ (t.job.guardFault.extractLsb' 30 8).toNat = tileOf (c.val / 2) (c.val % 2) ∧ t.job.guardAddr = p.addr
        else onlyMatrix c u t ∧ t.mcore c = { u.mcore c with drainWait := some p.first }))
    ∧ (∀ since now, m.drainWait = some since → (q.releases.filter fun r => decide (since < r)).getLast? = some now →
      ∃ t u, onward s u ∧ exec (.drainQueueResume c) s = .next t ∧ onlyMatrix c u t ∧
        let m := u.mcore c
        let m' := t.mcore c
        now ≤ t.milestone ∧ m'.waitCount = m.waitCount + (now - since) ∧ m'.drainWait = none
        ∧ m'.status = m.status ||| 0x20#8 ∧ m'.banks = m.banks ∧ m'.pc = m.pc ∧ now ≤ m'.nextIssue
        ∧ m'.pieces = m.pieces.map fun p => { p with first := p.first + (now - since), due := p.due + (now - since) })

/-- R85, R100, R103 to R106: CLEAR, DRAIN and the entries that a drain writes. -/
def Obligations.MatrixDrains : Prop := matrixClearAndDrainHold ∧ finishedTileQueueHold

/-- R176: the hash is one-to-one: two addresses of a stack with one die group, unit, bank, row, column and byte in the
block are one address. -/
def Sys2Proof.Claims.cellarHashHold : Prop :=
  ∀ k a a', placeOf k a = placeOf k a' → rowOf k a = rowOf k a' → columnOf k a = columnOf k a' → a % 512 = a' % 512 →
    a = a'

/-- R178, R179, R182: a block takes the first slot that its stream, unit, bank and direction allow, outside the
stack's refresh window; its unit, its bank and the last slot then follow from that slot, and the grid of R177 fixes its
beat. -/
def Sys2Proof.Claims.cellarSlotsHold : Prop :=
  ∀ (x : Stack) (k : Nat) (write : Bool) (a i0 : Nat), k < 24 →
    let p := placeOf k a
    let key := 256 * p.1 + 16 * p.2.1 + p.2.2
    let r := x.assign k write a i0
    IsLeast { i | slotAllowed x k write p.1 p.2.1 p.2.2 i0 i } r.2
      ∧ r.1.last = r.2
      ∧ (∀ u, SMap.get 0 r.1.unitNext u = if u = p.2.1 then r.2 + 1 else SMap.get 0 x.unitNext u)
      ∧ (∀ u, SMap.get 0 r.1.unitDir u = if u = p.2.1 then (if write then 2 else 1) else SMap.get 0 x.unitDir u)
      ∧ (∀ b, SMap.get 0 r.1.bankNext b = if b = key then r.2 + (if 16 ≤ k then 6 else 16) else SMap.get 0 x.bankNext b)
      ∧ r.1.arriving = x.arriving ∧ r.1.streams = x.streams
      ∧ (∀ i, slotBeat k i < slotBeat k (i + 1)) ∧ ∀ b, IsLeast { i | b ≤ slotBeat k i } (slotAt k b)

/-- R176 to R179, R182: where a block lies, and when it may start. -/
def Obligations.CellarSchedule : Prop := cellarHashHold ∧ cellarSlotsHold

/-- R174, R181, R182: the next stream arrives and every block gets its slot, none before that of the block before; a
stream with a block beyond the stack's capacity is a job-fatal error of cause 3, and none of it is performed. -/
def Obligations.CellarStreams : Prop :=
  ∀ (k : Fin 24) (s : State) (c : CellarStream),
    let x := s.stack k.val
    calm s → nextStream x.arriving = some c →
    c ∈ x.arriving ∧ (∀ d ∈ x.arriving, c.arrive < d.arrive ∨ (c.arrive = d.arrive ∧ c.order ≤ d.order))
      ∧ ((∀ b, b < c.count → c.addr + c.stride * b < stackCapacity k.val) →
        ∃ t u slots, onward s u ∧ exec (.cellarStreamArrive k) s = .next t ∧ c.arrive ≤ t.milestone
          ∧ t = { u with cel := t.cel } ∧ (∀ k', k' ≠ k.val → t.stack k' = u.stack k')
          ∧ (t.stack k.val).arriving = x.arriving.erase c
          ∧ (t.stack k.val).streams = x.streams ++ [{ c with slots := slots }]
          ∧ slots.length = c.count ∧ slots.Pairwise (· ≤ ·)
          ∧ ∀ i ∈ slots, x.last ≤ i ∧ c.arrive + 6 ≤ slotBeat k.val i + s.integ.jobOffset)
      ∧ (∀ b, b < c.count → stackCapacity k.val ≤ c.addr + c.stride * b →
        (∀ b', b' < b → c.addr + c.stride * b' < stackCapacity k.val) →
        ∃ t u, onward s u ∧ exec (.cellarStreamArrive k) s = .next t ∧ coresAndMemorySame u t
          ∧ cellarRecorded t k.val 3 (c.addr + c.stride * b)
          ∧ (t.stack k.val).streams = x.streams ∧ (t.stack k.val).arriving = x.arriving.erase c)

/-- R175, R182 to R186: a block starts at its slot's beat, and a read takes it as it stands then; a read's last byte
leaves 80 beats later from a Near stack and 108 from a Deep one; a written block is visible 10 beats after its slot. What
the code corrects or cannot correct is counted, and the latter recorded with cause 1. -/
def Sys2Proof.Claims.cellarBlocksHold : Prop :=
  ∀ (k : Fin 24) (ecc : Ecc) (s : State) (c : CellarStream), calm s →
    let x := s.stack k.val
    let b := c.ended
    let slot := fun i => slotBeat k.val (c.slots.getD i 0) + s.integ.jobOffset
    let c' := { c with ended := b + 1 }
    (earliest (·.started) (x.streams.filter fun c => decide (c.started < c.count)) = some c →
      ∃ t u taken, onward s u ∧ exec (.cellarBlockStart k) s = .next t ∧ slot c.started ≤ t.milestone
        ∧ onlyStack k.val u t { x with
            streams := putStream x.streams c { c with started := c.started + 1, taken := taken } }
        ∧ (c.write = true → taken = c.taken)
        ∧ (c.write = false → ∀ j, SMap.get [] taken j
          = if j = c.started then u.blockNow k.val (c.block c.started) else SMap.get [] c.taken j))
    ∧ (earliest (·.ended) (x.streams.filter fun c => !c.write && decide (c.ended < c.started)) = some c →
      ∃ t u, onward s u ∧ exec (.cellarReadDone k ecc) s = .next t ∧ coresAndMemorySame u t
        ∧ slot b + (if 16 ≤ k.val then 108 else 80) ≤ t.milestone
        ∧ (t.stack k.val).corrected = x.corrected + (if ecc = .corrected then 1 else 0)
        ∧ (t.stack k.val).uncorrected = x.uncorrected + (if ecc = .uncorrectable then 1 else 0)
        ∧ (t.stack k.val).streams = (if b + 1 = c.count then x.streams.erase c
            else putStream x.streams c { c' with taken := SMap.erase c.taken b })
        ∧ (ecc = .uncorrectable → cellarRecorded t k.val 1 (c.block b))
        ∧ (ecc ≠ .uncorrectable → b < c.count - c.ahead → ∀ y ∈ t.transfers c.porter, y.start = c.ident →
          let n := ceilDiv (PDesc.bytes y.desc) 512 - (c.count - c.ahead) + b
          ∀ j, j < 512 → 512 * n + j < PDesc.bytes y.desc → y.buf.read (512 * n + j) = Memory.read (SMap.get [] c.taken b) j))
    ∧ (earliest (·.ended) (x.streams.filter fun c => c.write && decide (c.ended < c.started)) = some c →
      s.cel.invalid = none → ∃ t u, onward s u ∧ exec (.cellarWriteVisible k) s = .next t ∧ slot b + 10 ≤ t.milestone
        ∧ t.pantry = u.pantry ∧ t.larder = u.larder ∧ t.mc = u.mc ∧ t.vc = u.vc
        ∧ (∀ a, stackByte t k.val a = if c.block b ≤ a ∧ a < c.block b + min 512 (c.len - 512 * b) then
            c.data.read (512 * b + (a - c.block b)) else stackByte u k.val a)
        ∧ (∀ k', k' ≠ k.val → t.stackOf k' = u.stackOf k')
        ∧ (t.stack k.val).streams = (if b + 1 = c.count then x.streams.erase c
            else putStream x.streams c { c' with taken := SMap.erase c.taken b })
        ∧ ∀ y ∈ t.transfers c.porter, y.start = c.ident → slot b + 10 ≤ y.lastWrite)

/-- R179, R187, R188: a refresh window scrubs sixteen blocks, one for each unit, and goes on by 8,192 bytes; each block that
scrubbing corrects is counted, and each that it cannot correct is counted and a job-fatal error of cause 2. A stack is HOT
from 100 °C on; from 105 °C on it is at its limit, no stack holds valid contents, and the job ends with cause 5. -/
def Sys2Proof.Claims.cellarUpkeepHold : Prop :=
  ∀ (k : Fin 24) (corrected bad : BitVec 16) (temp : BitVec 32) (s : State),
    let x := s.stack k.val
    let count := fun m : BitVec 16 => BitVec.ofNat 64 ((List.range 16).filter fun i => m.getLsbD i).length
    let passed := fun t : State => t.pantry = s.pantry ∧ t.larder = s.larder ∧ t.mc = s.mc ∧ t.vc = s.vc
      ∧ t.cel.invalid.isSome = true ∧ (t.stack k.val).limit = true ∧ (t.stack k.val).hot = true
      ∧ (t.stack k.val).temp = temp ∧ (SMap.get 0#64 t.cel.lastError (stackTower k.val)).extractLsb' 61 3 = 5#3
    (s.boot.phase = .ready → ∃ t u, onward s u ∧ exec (.refreshWindow k corrected bad) s = .next t
      ∧ s.milestone ≤ t.milestone ∧ x.windowAt ≤ t.milestone
      ∧ (t.milestone - s.integ.jobOffset) % (36 * 96) = 36 * refreshFrame k.val
      ∧ (t.stack k.val).corrected = x.corrected + count (corrected &&& ~~~bad)
      ∧ (t.stack k.val).uncorrected = x.uncorrected + count bad
      ∧ (t.stack k.val).scrub = (x.scrub + 8192) % stackCapacity k.val ∧ t.milestone < (t.stack k.val).windowAt
      ∧ (t.stack k.val).streams = x.streams ∧ coresAndMemorySame u t
      ∧ (bad = 0#16 → onlyStack k.val u t (t.stack k.val))
      ∧ ∀ i, i < 16 → bad.getLsbD i = true → (∀ j, i < j → j < 16 → bad.getLsbD j = false) →
        cellarRecorded t k.val 2 (x.scrub + 512 * i))
    ∧ (∃ t, exec (.stackHot k temp) s = .next t ∧
      if 105 * 65536 ≤ temp.toInt then passed t
      else
        let hot := decide (100 * 65536 ≤ temp.toInt)
        t.stack k.val = { x with temp := temp, hot := hot } ∧ (∀ k', k' ≠ k.val → t.stack k' = s.stack k')
          ∧ t = { s with cel := t.cel, clock := { s.clock with hotSeen := s.clock.hotSeen || hot } }
          ∧ t.cel = { s.cel with ctl := t.cel.ctl })
    ∧ ∃ t, exec (.stackLimit k temp) s = .next t ∧ if 105 * 65536 ≤ temp.toInt then passed t else t = s

/-- R175, R179, R182 to R188: blocks read and written, refresh, scrubbing and temperature. -/
def Obligations.CellarTraffic : Prop := cellarBlocksHold ∧ cellarUpkeepHold

/-- R192: a porter receives its descriptors into a queue of 16, a DESC that is being read among them once it is. With a
free entry the descriptor joins the queue; in trusting mode a full one holds it, and its core, until the beat on which an
entry is free; in guarded mode that is a job-fatal error of cause 6. -/
def Sys2Proof.Claims.porterReceiptHold : Prop :=
  ∀ (p : Fin 256) (s : State) (hd : Handed),
    let k := p.val
    let s1 := s.awaitHand k
    let u := s1.toBeat hd.due
    let q := u.porter k
    let full := 16 ≤ q.queue.length ∨ (q.queue.length = 15 ∧ hd.due < q.freedAt)
    s.moverThere k = true → calm s → nextHanded (s1.porter k).arriving = some hd →
    (q.queue.length < 16 → (full → u.guarded = false) →
      ∃ t v r, onward u v ∧ exec (.descReceive p) s = .next t ∧ memorySame v t ∧ otherPorters v t k ∧ hd.due ≤ r
        ∧ r ≤ t.milestone
        ∧ t.porter k = { v.porter k with
            arriving := (v.porter k).arriving.erase hd, queue := (v.porter k).queue ++ [{ hd with due := r }] }
        ∧ (¬ full → r = hd.due ∧ v = u.toBeat r) ∧ (full → r = q.freedAt)
        ∧ (∀ h j b, hd.core = some h → (v.vcore h).hold = .desc j b → (t.vcore h).hold = .free)
        ∧ ∀ h, hd.core ≠ some h → t.vcore h = v.vcore h)
    ∧ (16 ≤ q.queue.length → u.guarded = false → ∃ t, exec (.descReceive p) s = .next t ∧ memorySame u t
      ∧ otherPorters u t k ∧ t.porter k = q
      ∧ (∀ h, hd.core = some h → t.vcore h = { u.vcore h with hold := .desc k hd.due })
      ∧ ∀ h, hd.core ≠ some h → t.vcore h = u.vcore h)
    ∧ (full → u.guarded = true → ∃ t, exec (.descReceive p) s = .next t ∧ moversOnly u t
      ∧ porterRecorded t k 6 hd.desc ∧ (t.porter k).queue = q.queue)

/-- R193, R194, R196, R198: a descriptor starts on the first beat that R193 allows; one held by WT 3 beats after the bell
that it names first meets its target, or on that first beat where an addition of the beat meets it (R223). A NOP and a COPY
whose endpoints pass their checks are then under way, and any other is refused with the cause of Table 7.12, or where the
pair of a cast's handle entry fails. The next descriptor of a chain comes from its Pantry 6 beats after the start. -/
def Obligations.PorterStart : Prop :=
  ∀ (p : Fin 256) (s : State) (hd : Handed) (rest : List Handed),
    let k := p.val
    let d := hd.desc
    let b := startBeat s k hd
    let goes := fun (i : Instr) b =>
      let u := s.toBeat b
      (PDesc.op d = 0 ∧ PDesc.route d < 3 ∧ PDesc.cast d < 3 ∧ PDesc.cls d < 3 ∧ PDesc.chain d = false
          ∨ pantryCopy s k hd →
        ∃ t, exec i s = .next t ∧ moversOnly u t ∧ otherPorters u t k ∧ startedAt u t k hd rest b)
      ∧ (∀ c, u.castEntryBad k d = false → u.descCause k d hd.supplied.isSome = c → c ≠ 0 →
        ∃ t, exec i s = .next t ∧ moversOnly u t ∧ porterRecorded t k c d ∧ (t.porter k).active = (u.porter k).active
          ∧ (t.porter k).queue = rest)
      ∧ (u.castEntryBad k d = true → ∃ t, exec i s = .next t ∧ moversOnly u t
        ∧ (t.porter k).active = (u.porter k).active ∧ (t.porter k).queue = rest)
    (headReady s k hd rest → PDesc.wt d = false → goes (.descriptorStart p) b)
    ∧ (headReady s k hd rest → PDesc.wt d = true →
      let u := s.toBeat b
      let bell := u.bell (moverTower k) (PDesc.wbell d)
      bell.ok = true →
      (bellMeets bell.count (PDesc.wtarget d) → goes (.descriptorStart p) b)
      ∧ (¬ bellMeets bell.count (PDesc.wtarget d) → ∃ t, exec (.descriptorStart p) s = .next t ∧ moversOnly u t
        ∧ otherPorters u t k ∧ t.porter k = { u.porter k with hold := some ⟨b, none⟩ }))
    ∧ (∀ since met, s.moverThere k = true → calm s → (s.porter k).queue = hd :: rest →
      (s.porter k).hold = some ⟨since, some met⟩ →
      goes (.descriptorWaitMet p) (if met ≤ since then since else met + 3))
    ∧ (∀ tile gran S cs, (s.porter k).chain = (tile, gran, S) :: cs → s.moverThere k = true → s.moving = true →
      let key := 3 * hallOfTile (moverTower k) tile.toNat + tile.toNat % 3
      let g := gran.toNat % (pantrySize key / 32)
      let g' := (g + 1) % (pantrySize key / 32)
      let m := (s.markAll [pantryBank key g] (S + 1)).markAll [pantryBank key g'] (S + 2)
      let u := m.toBeat (S + 1)
      let v := u.toBeat (S + 2)
      calm m → ∃ t, exec (.chainFetch p) s = .next t ∧ memorySame v t ∧ otherPorters v t k
        ∧ t.porter k = { v.porter k with
            chain := cs
            arriving := (v.porter k).arriving ++ [⟨BitVec.ofNat 256 (v.pantryLE key (32 * g') 32)
              ++ BitVec.ofNat 256 (u.pantryLE key (32 * g) 32), S + 6, tile, gran, none, none⟩] })

/-- R198: what a porter refuses at the start, by the cause of Table 7.12. -/
def Sys2Proof.Claims.porterRefusalsHold : Prop :=
  ∀ (k : Nat) (s : State) (d : PDesc),
    (2 ≤ PDesc.op d ∨ PDesc.route d = 3 ∨ PDesc.cast d = 3 ∨ PDesc.cls d = 3 → s.descCause k d false = 1)
    ∧ (PDesc.op d < 2 → PDesc.chain d = true → 144 ≤ PDesc.ntile d → s.descCause k d false = 1)
    ∧ (let fine := PDesc.op d = 1 ∧ PDesc.route d < 3 ∧ PDesc.cls d < 3 ∧ PDesc.chain d = false
          ∧ (PDesc.src d).space < 3 ∧ (PDesc.dst d).space < 3 ∧ (PDesc.src d).core < 3 ∧ (PDesc.dst d).core < 3
       (fine → 0 < PDesc.cast d → PDesc.cast d < 3 → (isHallPorter k = true ∨ (PDesc.dst d).remote = true
          ∨ (PDesc.dst d).space = 2) → s.descCause k d false = 2)
       ∧ (fine → PDesc.cast d = 0 → isHallPorter k = true → ((PDesc.src d).remote = true ∨ (PDesc.dst d).remote = true) →
          s.descCause k d false = 3)
       ∧ (fine → PDesc.cast d = 0 → isHallPorter k = false → (PDesc.src d).remote = true → (PDesc.dst d).remote = true →
          s.descCause k d false = 5)
       ∧ (fine → PDesc.cast d = 0 → isHallPorter k = false → (PDesc.src d).remote = false →
          (PDesc.src d).space = 2 → (PDesc.src d).addr % 512 ≠ 0 → s.descCause k d false = 7))

/-- R192, R198: what a porter takes into its queue, and what it refuses at the start. -/
def Obligations.PorterAdmission : Prop := porterReceiptHold ∧ porterRefusalsHold

/-- R156, R196, R201, R209, R210: an access to a Pantry supplies its bytes to the transfer from the places of the endpoint,
as they stand on that beat, and nothing in memory changes; a row of a Larder source, or the beats of a column group
together, are left to be read on the beats that the slice serves them, and so is a row that is read ahead. -/
def Sys2Proof.Claims.porterReadsHold : Prop :=
  ∀ (m : Mover) (s : State) (x : Transfer),
    let k := moverKey m
    let e := PDesc.src x.desc
    let n := PDesc.bytes x.desc
    let r := e.access n x.reads
    let own := x.reads < e.accesses n
    s.moverThere k = true → calm s → (s.transfers k).find? (s.readsLeft k) = some x →
    (own → e.space = 0 → ∃ t u, onward s u ∧ exec (.porterSourceAccess m) s = .next t ∧ memorySame u t
      ∧ transferTakes u t k x.start fun y y' =>
        y'.reads = y.reads + 1 ∧ y'.readBytes = r.2 ∧ y'.injected = y.injected ∧ bufTakes u e e.mhall r.1 r.2 y.buf y'.buf)
    ∧ (own → e.space = 1 → ∃ t u, onward s u ∧ exec (.porterSourceAccess m) s = .next t ∧ memorySame u t
      ∧ let js := e.together n x.reads
        leavesToDo u t (js.map fun j => .source k x.start (e.access n j).1 (e.access n j).2) .none
        ∧ x.reads ∈ js ∧ (e.groups = false → js = [x.reads])
        ∧ (e.groups = true → ∀ j, j ∈ js ↔ x.reads ≤ j ∧ j < e.accesses n ∧ j / e.groupBeats = x.reads / e.groupBeats)
        ∧ transferTakes u t k x.start fun y y' => y'.reads = y.reads + js.length ∧ y'.injected = y.injected ∧ y'.buf = y.buf)
    ∧ (¬ own → ∃ t u, onward s u ∧ exec (.porterSourceAccess m) s = .next t ∧ memorySame u t
      ∧ leavesToDo u t [.ahead k x.start (ceilDiv n 512 + (x.reads - e.accesses n))] .none
      ∧ transferTakes u t k x.start fun y y' => y'.reads = y.reads + 1 ∧ y'.injected = y.injected ∧ y'.buf = y.buf)

/-- R160, R197, R209, R210, R266: an access of a mover under way acts on its beat: a source access brings the transfer the
bytes of the endpoint's places, as they then stand; one that is read ahead is staged; a row or line is written at once, and
every packet that it holds is held against its due beat (R269). One that a check refuses moves nothing. -/
def Sys2Proof.Claims.moverAccessesActHold : Prop :=
  ∀ (s : State) (r : Run),
    let t := s.perform r
    let next := r.acts[r.done]?
    (∀ k start lo hi x, next = some (.source k start lo hi) → s.transferAt k start = some x →
      let e := PDesc.src x.desc
      (e.space = 1 → s.rowsFault k e e.mhall lo hi false = none) →
      memorySame s t ∧ t.mc = s.mc ∧ t.vc = s.vc ∧ transferTakes s t k start fun y y' =>
        y = x → bufTakes s e e.mhall lo hi y.buf y'.buf ∧ y'.injected = y.injected ∧ y'.reads = y.reads
          ∧ y'.flights = y.flights)
    ∧ (∀ k start lo hi x, next = some (.source k start lo hi) → s.transferAt k start = some x →
      (PDesc.src x.desc).space = 1 → (s.rowsFault k (PDesc.src x.desc) (PDesc.src x.desc).mhall lo hi false).isSome = true →
      memorySame s t ∧ t.mc = s.mc ∧ t.vc = s.vc ∧ t.por.porters = s.por.porters)
    ∧ (∀ k start n x, next = some (.ahead k start n) → k < 256 → s.transferAt k start = some x →
      let e := PDesc.src x.desc
      let en := s.handle (e.mhall / 48) e.handle
      memorySame s t ∧ t.mc = s.mc ∧ t.vc = s.vc
      ∧ (en.ok = false → t.por.porters = s.por.porters)
      ∧ (en.ok = true → otherPorters s t k ∧ ∃ y, t.porter k = { s.porter k with staging := (s.porter k).staging ++ [y] }
        ∧ y.larder = true ∧ y.off = e.row + n ∧ y.name = e.handle ∧ y.hall = e.mhall
        ∧ y.bytes = s.readRow (s.sliceAt e e.mhall) en.row0 (e.row + n) en.grid))
    ∧ (∀ k start e0 e1 h lo hi data srank dues, next = some (.line k start e0 e1 h lo hi data srank dues) →
      let e : Endpoint := ⟨e0, e1⟩
      e.space = 1 →
      (s.rowsFault k e h lo hi true = none → endpointTakes s t e h lo hi data ∧ t.mc = s.mc ∧ t.vc = s.vc
        ∧ ((∀ d ∈ dues, s.milestone ≤ d) → t.job = s.job ∧ t.integ = s.integ)
        ∧ ((∃ d ∈ dues, d < s.milestone) → s.job.slips.toNat + dues.length < 2 ^ 64 →
          s.job.slips.toNat < t.job.slips.toNat))
      ∧ ((s.rowsFault k e h lo hi true).isSome = true → memorySame s t ∧ t.mc = s.mc ∧ t.vc = s.vc))

/-- R145, R150, R151, R160, R178, R186, R197, R206: what an access that waits for its beat does there. -/
def Obligations.AccessesOnTheirBeats : Prop := accessesActHold ∧ moverAccessesActHold

/-- R201, R544: the next packet enters the mesh once its bytes are there, towards every destination on the module; the
landing buffer delivers 128 B at a time to the loader's descriptor. -/
def Sys2Proof.Claims.porterPacketsHold : Prop :=
  ∀ (m : Mover) (s : State) (x : Transfer),
    let k := moverKey m
    (s.moverThere k = true → calm s → (s.transfers k).find? (s.injectable k) = some x →
      s.farSource x = false → x.isServe = false → s.farAway (PDesc.dst x.desc) = false →
      ∃ t u, onward s u ∧ exec (.packetInject m) s = .next t ∧ memorySame u t ∧ t.ftq = u.ftq
        ∧ (∀ j, mcStays (u.mcore j) (t.mcore j)) ∧ (∀ j, vcStays (u.vcore j) (t.vcore j))
        ∧ transferTakes u t k x.start fun y y' => y'.injected = y.injected + 1 ∧ y'.reads = y.reads
          ∧ y'.flights.map (fun f => (f.packet, f.dest)) = y.flights.map (fun f => (f.packet, f.dest))
            ++ (List.range x.dests).map fun j => (x.injected, j))
    ∧ (∀ j, s.landingNext = some (j, x) → calm s → ∃ t u, onward s u ∧ exec .landingDeliver s = .next t ∧ moversOnly u t
      ∧ t.eo = u.eo ∧ transferTakes u t j x.start fun y y' =>
        y'.readBytes = min (PDesc.bytes x.desc) (y.readBytes + 128) ∧ y'.buf = y.buf ∧ y'.injected = y.injected)

/-- R178, R179, R186, R195, R197 to R199: the packets of a stream, from the source to the destination. -/
def Obligations.PorterTraffic : Prop := porterReadsHold ∧ porterPacketsHold

/-- R156, R160, R201, R203: a packet that reaches a Pantry is written there 5 beats later, its bytes at the places of the
destination's units; one that completes rows or column groups of a Larder region leaves each to be written, the packet
alone in a grid region of word-atomic writes; the last packet for a stack hands its controller one stream of writes. -/
def Obligations.PorterWrites : Prop :=
  ∀ (m : Mover) (s : State) (x : Transfer) (f : Flight),
    let k := moverKey m
    let e := PDesc.dst x.desc
    let h := x.destHall f.dest
    let lo := 128 * f.packet
    let hi := min (PDesc.bytes x.desc) (lo + 128)
    s.moverThere k = true → calm s → nextFlight (s.transfers k) = some (x, f) → s.transferAt k x.start = some x →
    lo < PDesc.bytes x.desc →
    (e.space = 0 → ∃ t u y, onward s u ∧ u.transferAt k x.start = some y ∧ exec (.packetWrite m) s = .next t
      ∧ f.arrives + 5 ≤ u.milestone ∧ endpointTakes u t e h lo hi y.buf)
    ∧ (e.space = 1 → ∃ t u y, onward s u ∧ u.transferAt k x.start = some y ∧ exec (.packetWrite m) s = .next t
      ∧ f.arrives ≤ u.milestone ∧ memorySame u t
      ∧ let en := u.handle (h / 48) e.handle
        let y' := { y with flights := y.flights.erase f, lastArrive := max y.lastArrive f.arrives }
        let groups := if en.grid && en.wordAtomic then [[(lo, hi)]] else y'.completed f
        ∃ acts, List.Forall₂ (List.Forall₂ (lineOf k y h)) groups acts
          ∧ underWay t = underWay u ++ acts.map fun g => (g, 0))
    ∧ (e.space = 2 → x.flights.erase f = [] → x.injected = PDesc.packets x.desc →
      ∃ t u y, onward s u ∧ u.transferAt k x.start = some y ∧ exec (.packetWrite m) s = .next t ∧ moversOnly u t
        ∧ ∃ c, (t.stack e.stackCode).arriving = (u.stack e.stackCode).arriving ++ [c] ∧ c.write = true
          ∧ c.addr = e.addr ∧ c.count = ceilDiv (PDesc.bytes x.desc) 512 ∧ c.stride = 512 * e.stride ∧ c.data = y.buf
          ∧ c.len = PDesc.bytes x.desc)

/-- R206, R207, R343: a porter's oldest descriptor completes on the later of its last write and its predecessor's
completion; the last write of one for another member is known by its acknowledgements (log row 126). Its signal comes 6
beats later, plus 10 for each bridge, and changes its bell. A write that another member sent here is acknowledged when it
completes, and an acknowledgement that arrives is one less to come for the descriptor that it names. -/
def Obligations.PorterCompletion : Prop :=
  ∀ (p : Fin 256) (m : Mover) (s : State) (x : Transfer) (rest : List Transfer) (c : Nat),
    let k := p.val
    let at_ := max c (s.porter k).lastDone
    let far := x.isEmpty = false ∧ s.farAway (PDesc.dst x.desc) = true
    let from_ := if x.isEmpty = true ∨ PDesc.cast x.desc ≠ 0 then moverTower k else (PDesc.dst x.desc).tower
    (s.moverThere k = true → calm s → (s.porter k).active = x :: rest → s.doneAt k x = some c →
      isLoaderPorter k = false →
      ∃ t u, onward s u ∧ exec (.descriptorComplete (.porter p)) s = .next t ∧ moversOnly u t ∧ otherPorters u t k
        ∧ (t.porter k).active.map (fun y => (y.start, y.desc)) = rest.map (fun y => (y.start, y.desc))
        ∧ (t.porter k).lastDone = at_ ∧ at_ ≤ t.milestone
        ∧ SMap.get 0#64 t.por.done (moverTower k) = SMap.get 0#64 u.por.done (moverTower k) + 1
        ∧ (t.porter k).signals = (u.porter k).signals ++
          (if PDesc.sig x.desc = true ∧ PDesc.sinc x.desc ≠ 0 ∧ ¬ far then
            [⟨PDesc.stower x.desc, PDesc.sbell x.desc, PDesc.sinc x.desc,
              at_ + 6 + 10 * bridgesOn from_ (PDesc.stower x.desc) 0, 0⟩]
          else []))
    ∧ (∀ n, m = .fabric n → s.moving = true → calm s → (s.transfers (moverKey m)).findSome? (fun y =>
        (if y.isServe then none else s.doneAt (moverKey m) y).map fun c => (y, c)) = some (x, c) →
      s.transferAt (moverKey m) x.start = some x →
      ∃ t u, onward s u ∧ exec (.descriptorComplete m) s = .next t ∧ moversOnly u t ∧ c ≤ t.milestone
        ∧ ∀ y ∈ t.transfers (moverKey m), y.start ≠ x.start)
    ∧ (∀ g, s.moverThere (moverKey m) = true → calm s → nextSignal (s.signalsOf (moverKey m)) = some g →
      g.tower < 4 → g.bell < 8192 → ∃ t u, onward s u ∧ exec (.porterSignal m) s = .next t ∧ memorySame u t
        ∧ ((u.bell g.tower g.bell).ok = true → bellRises u t g.tower g.bell g.inc
          ∧ t.signalsOf (moverKey m) = (u.signalsOf (moverKey m)).erase g)
        ∧ g.due ≤ t.milestone)
    ∧ (∀ f fs, s.ranks.acks = f :: fs → ∃ t, exec .writeAckReceive s = .next t ∧ coresAndMemorySame s t
      ∧ t.ranks.acks = fs ∧ t.pb = s.pb ∧ ∀ j y, s.awaiting ((singleBody f).setWidth 256) = some (j, y) →
        transferTakes s t j y.start fun z z' => z'.acks = z.acks.map (· - 1) ∧ s.milestone ≤ z'.lastWrite)

/-- R123, R242, R243: END stops its core, keeps its registers and closes its hall's posts; so does a reader reset, which
is a contained transient fault besides (no send of another member waits at a post: PostDelivery). -/
def Obligations.PostsClose : Prop :=
  ∀ (h : HallId) (s : State),
    (VcReady h (.vcEnd h) s → ∃ t u, onward s u ∧ exec (.vcEnd h) s = .next t
      ∧ coresAndMemorySame { u with vc := t.vc } t ∧ t.vcore h = { u.vcore h with running := false }
      ∧ (∀ k, k ≠ h.val → t.vcore k = u.vcore k) ∧ hallClosed u t h)
    ∧ (s.hallEnabled h.val = true → s.active = true → ∃ t u, onward s u ∧ exec (.readerReset h) s = .next t
      ∧ coresAndMemorySame u t ∧ hallClosed u t h ∧ (calm s → s.integ.window = none → s.recentRewinds < 2 →
        (∀ i, i < 96 → ∀ a ∈ (s.post (96 * h.val + i)).waiting, ∀ p, a.sender ≠ .fabric p) → t.integ.halted = true
        ∧ (SMap.get 0#64 t.integ.lastFault (hallTower h)).extractLsb' 59 5 = 10#5))

/-- R236 to R238: a stage injects its oldest staged entry, a PSEND that is being read among them once it is, and a refused
one again, once nothing of it waits: to a post of the module over the mesh, to another member by a port. One that was
refused holds its stage until it is accepted or closed. -/
def Sys2Proof.Claims.stageInjectionHold : Prop :=
  ∀ (g : Fin 193) (s : State) (e : StageEntry), s.active = true → calm s →
    let flown := fun (u t : State) (x' : EntryState) => onlyBeats u t ∧ t.pb.bells = u.pb.bells
      ∧ stageWords (t.stage g.val) = (u.stage g.val).entries.map (fun x =>
        (x.num, x.desc, if x.num = e.num then x' else x.state))
      ∧ (s.away e.desc = false → ∃ f, t.pb.flights.map (fun x => (x.sender, x.num, x.desc))
        = u.pb.flights.map (fun x => (x.sender, x.num, x.desc)) ++ [f] ∧ f.2 = (e.num, e.desc))
    let mayGo := s.away e.desc = false ∨ ∃ p, s.routeRank s.ranks.myRank (PostDesc.rank e.desc) 0#16 = .port p
    let s1 := s.awaitSend g.val
    ((s1.stage g.val).next = some e → e.held = none → (s.stage g.val).blocked = false → mayGo → s1.entryGated e = false →
      ∃ t u, onward s1 u ∧ exec (.stageInject g) s = .next t ∧ flown u t .flying ∧ e.stagedAt + 1 ≤ t.milestone
        ∧ (s1.stage g.val).lastInject + 1 ≤ t.milestone)
    ∧ (∀ since again, (s.stage g.val).entries.findSome? (fun e => match e.state with
          | .refused _ again => some (e, again) | _ => none) = some (e, again) → e.state = .refused since again → mayGo →
      ∃ t u, onward s u ∧ exec (.refusalReinject g) s = .next t ∧ flown u t (.retried since) ∧ again ≤ t.milestone)

/-- R237 to R242: an arrival takes a free slot of its post; at a full one it waits, or is refused if it comes from
another member; at a CLOSED one it is discarded and counted. One that waits is accepted once a slot is free. -/
def Sys2Proof.Claims.postArrivalsHold : Prop :=
  ∀ (k : Fin 18432) (s : State) (f : PostFlight), s.active = true → s.hallEnabled (k.val / 96) = true →
    let s1 : State := { s with pb := { s.pb with flights := s.pb.flights.erase f } }
    let u := s1.toBeat f.arrives
    let p := u.post k.val
    let tw := postTower k.val
    let g := f.sender.stageOf
    let reply := 16 ≤ k.val % 32 ∧ 0 < p.reserved
    let local_ := ∀ q, f.sender ≠ .fabric q
    let inStage := fun v : State => ∃ e ∈ (v.stage g).entries, e.num = f.num
    let accepted := fun v t : State =>
      SMap.get 0#64 t.pb.sendsAccepted tw = SMap.get 0#64 v.pb.sendsAccepted tw + 1
    (calm s1 → nextArrival k.val s.pb.flights = some f → p.closed = true → ∃ t v, onward u v
      ∧ exec (.postArrival k) s = .next t ∧ machineSame v t
      ∧ SMap.get 0#64 t.pb.sendsClosed tw = SMap.get 0#64 v.pb.sendsClosed tw + 1
      ∧ (t.post k.val).slots = p.slots ∧ (local_ → inStage v → settled v t g f.num true))
    ∧ (calm s1 → nextArrival k.val s.pb.flights = some f → p.closed = false → p.pairsOk = true →
      (reply ∨ (p.hasFree = true ∧ p.waiting = []) → ∃ t v, onward u v ∧ exec (.postArrival k) s = .next t ∧ machineSame v t
        ∧ postTakes v t k.val f.desc
        ∧ (t.post k.val).reserved = (v.post k.val).reserved - (if 16 ≤ k.val % 32 then 1 else 0)
        ∧ accepted v t ∧ f.arrives + 3 ≤ t.milestone ∧ p.freeAt ≤ t.milestone
        ∧ (local_ → inStage v → settled v t g f.num false))
      ∧ (¬ reply → ¬ (p.hasFree = true ∧ p.waiting = []) → ∃ t, exec (.postArrival k) s = .next t ∧ machineSame u t
        ∧ (local_ → t.post k.val = { p with waiting := p.waiting ++ [⟨f.sender, f.num, f.desc, f.arrives⟩] }
          ∧ ∀ e ∈ (t.stage g).entries, e.num = f.num → e.state = .waiting f.arrives)
        ∧ (∀ q, f.sender = .fabric q → t.post k.val = p
          ∧ SMap.get 0#64 t.pb.remoteRefusals tw = SMap.get 0#64 u.pb.remoteRefusals tw + 1)))
    ∧ (∀ a rest, (s.post k.val).waiting = a :: rest → (s.post k.val).pairsOk = true → (s.post k.val).hasFree = true →
      calm s →
      let v := s.toBeat (max (a.arrived + 3) (s.post k.val).freeAt)
      ∃ t, exec (.postInputAccept k) s = .next t ∧
        if (v.post k.val).hasFree then
          machineSame v t ∧ postTakes v t k.val a.desc ∧ (t.post k.val).waiting = rest ∧ accepted v t
        else t = v)

/-- R236 to R242: from the send stage to the post. -/
def Obligations.PostDelivery : Prop := stageInjectionHold ∧ postArrivalsHold

/-- R240: the outcome of a send is written in bits [19:18] of D1 of the sender's copy, and nothing else in memory
changes; with ACK_SIG, ABELL of the sender's tower rises by 1. -/
def Obligations.PostOutcomes : Prop :=
  ∀ (g : Fin 193) (s : State) (r : PostReturn), s.active = true → calm s → nextReturn g.val s.pb.returns = some r →
    (PostDesc.ackSig r.desc = true → (s.bell (stageTower g.val) (PostDesc.abell r.desc)).ok = true) →
    ∃ t u, onward s u ∧ exec (.postOutcome g) s = .next t ∧ t.pb.returns = u.pb.returns.erase r ∧ r.due ≤ t.milestone
      ∧ t.larder = u.larder ∧ t.cellar = u.cellar
      ∧ (∀ key a, a < pantrySize key → u.pantryByte key a = t.pantryByte key a
        ∨ (g.val < 192 ∧ key = vPantryKey g.val ∧ a = (32 * r.granule + 10) % 2 ^ 19))
      ∧ (g.val < 192 → (t.pantryByte (vPantryKey g.val) (32 * r.granule + 10)).extractLsb' 2 2 = (if r.closed then 2#2 else 1#2)
        ∧ ∀ n, n < 8 → n ≠ 2 → n ≠ 3 → (t.pantryByte (vPantryKey g.val) (32 * r.granule + 10)).getLsbD n
          = (u.pantryByte (vPantryKey g.val) (32 * r.granule + 10)).getLsbD n)
      ∧ (PostDesc.ackSig r.desc = true → bellRises u t (stageTower g.val) (PostDesc.abell r.desc) 1)
      ∧ (PostDesc.ackSig r.desc = false → t.pb.bells = u.pb.bells)

/-- R230, R231, R244 to R246, R249: the watchdog names the hold that is first to reach WATCHDOG_BEATS; the two debug
writes add AMOUNT to a bell and remove a post's head, count a hand action and end a loaded job's determinism. -/
def Obligations.PostService : Prop :=
  ∀ (s : State) (h : Hold) (w : DictWrite) (row : ObjRow),
    let bell := ((wpair w).v.extractLsb' 51 13).toNat
    let amount := ((wpair w).v.extractLsb' 0 48).toNat
    let k := 96 * w.inst.toNat + wnum w
    (s.active = true → calm s → firstHold s.holds = some h → h ∈ s.holds ∧ (∀ g ∈ s.holds, h.since ≤ g.since)
      ∧ ∃ t u, onward s u ∧ exec .watchdogFire s = .next t ∧ coresAndMemorySame u t
        ∧ h.since + s.pb.watchdogBeats.toNat ≤ t.milestone
        ∧ t.pb.watchdogRecord.extractLsb' 60 4 = BitVec.ofNat 4 h.kind
        ∧ t.pb.watchdogRecord.extractLsb' 58 2 = BitVec.ofNat 2 h.tower
        ∧ t.pb.watchdogRecord.extractLsb' 50 8 = BitVec.ofNat 8 h.agent)
    ∧ (writeFits s 0x9000 1 w row → replyLeaves s w → s.boot.phase = .ready → w.inst.toNat < 4 → (wpair w).ok = true → (s.bell w.inst.toNat bell).ok = true →
      0 < amount → amount < 2 ^ 47 → ∃ t, exec (.bellHandAdd w) s = .next t ∧ memorySame s t ∧ answeredWith s t w stOk
        ∧ handActed s t ∧ bellRises s t w.inst.toNat bell amount)
    ∧ (writeFits s 0x9000 2 w row → replyLeaves s w → s.boot.phase = .ready → s.hallUp w.inst.toNat = true → wnum w ≤ 95 →
      (s.post k).pairsOk = true → ∃ t, exec (.postDiscardHead w) s = .next t ∧ machineSame s t ∧ answeredWith s t w stOk
        ∧ ((s.post k).slots = [] → t.post k = s.post k)
        ∧ ∀ x xs, (s.post k).slots = x :: xs → handActed s t ∧ (t.post k).slots = xs
          ∧ (t.post k).taken = Pair32.of ((s.post k).taken.v + 1) ∧ (t.post k).sent = (s.post k).sent)

/-- R186, R251, R252, R257: a load whose image fails a check is refused with the cause of Table 9.10, the signature after
the header; a block of staging that the Steward cannot read is counted and recorded under agent 253 as well. A member that
only carries traffic for others arms at once; on any other the halls of the map are the first N of the hall order, and once
the handles, cores and shapes are accepted LOAD_STATE is 4. -/
def Obligations.JobLoad : Prop :=
  ∀ (fewest : BitVec 8) (reads : StagingReads) (w : DictWrite) (row : ObjRow) (s : State),
    let len := wnum w
    let x := s.stack 16
    writeFits s 0xA010 1 w row → s.boot.phase = .ready →
    (∀ b, reads.bad = some b → 512 * b.toNat < len → ∃ t, exec (.load fewest reads w) s = .next t
      ∧ answeredWith s t w stPending ∧ loadRefused s t 8 ∧ t.larder = s.larder
      ∧ cellarRecorded t 16 1 (163208757248 + 512 * b.toNat)
      ∧ (SMap.get 0#64 t.cel.lastError (stackTower 16)).extractLsb' 12 8 = 253#8
      ∧ (t.stack 16).uncorrected = x.uncorrected + 1
      ∧ (t.stack 16).corrected = x.corrected + BitVec.ofNat 64 reads.corrected.toNat)
    ∧ (stagingGood len reads → ¬ imageReadable s len → ∃ t, exec (.load fewest reads w) s = .next t
      ∧ answeredWith s t w stPending ∧ loadRefused s t 2 ∧ t.larder = s.larder)
    ∧ (stagingGood len reads → imageReadable s len → s.headerOk = false → ∃ t, exec (.load fewest reads w) s = .next t
      ∧ answeredWith s t w stPending ∧ loadRefused s t 3 ∧ t.larder = s.larder)
    ∧ (stagingGood len reads → imageReadable s len → s.headerOk = true → ∃ t, exec (.load fewest reads w) s = .next t
      ∧ answeredWith s t w stPending ∧ (t.stack 16).uncorrected = x.uncorrected
      ∧ (s.imageSigned = false → loadRefused s t 1 ∧ t.larder = s.larder)
      ∧ (s.imageSigned = true → s.chooseVariant fewest = none → loadRefused s t 4 ∧ t.larder = s.larder)
      ∧ (s.imageSigned = true → ∀ v, s.chooseVariant fewest = some v →
        let halls := s.loadHalls.take v.halls
        (s.shp.transitOnly = true → coresAndMemorySame s t ∧ t.job.loadState = 4#8 ∧ headerTaken s t)
        ∧ (s.shp.transitOnly = false → s.partIn v.handleList (32 * v.nhandles) = true →
          (s.bindings v halls v.nhandles 0 []).2 = none → (∀ i c, i < v.halls → c < 3 → s.coreOk v i c = true) →
          s.badShape v = none → s.steadyOk = true →
          t.job.loadState = 4#8 ∧ headerTaken s t ∧ t.job.logicalHalls = BitVec.ofNat 8 v.halls ∧ t.mc = s.mc ∧ t.vc = s.vc
          ∧ (∀ i, i < v.halls → SMap.get 0xFF#8 t.job.hallMap i = BitVec.ofNat 8 (halls.getD i 0))
          ∧ (∀ key, key / 3 ∉ halls → t.pantryOf key = []))))

/-- R258, R259, R274: a program starts at START_BEAT; in a job of several a digest that differs refuses the load with cause
9 and the member, and the desk rank waits until every other member has reported and is locked. UNLOAD stops the job, waits
for a step in progress, or changes nothing where no job is loaded; when the module has cleared the job, nothing of it is
left. -/
def Sys2Proof.Claims.programRunHold : Prop :=
  ∀ (start : BitVec 64) (reports : List MemberReport) (w : DictWrite) (row : ObjRow) (s : State),
    let placed := fun b : Nat => { s with
      job := { s.job with startBeat := b }
      desk := { s.desk with transitMembers := (reports.filter (·.transit)).map (·.rank.toNat) } }
    (s.job.loadState = 4#8 → s.ranks.jobSize = 1#32 → ∃ t u, onward s u ∧ exec (.programStart start reports) s = .next t
      ∧ programStarted u t s.job.startBeat)
    ∧ (s.job.loadState = 4#8 → s.ranks.jobSize ≠ 1#32 → s.desk.role ≠ 1#8 →
      ∃ t u, onward (placed start.toNat) u ∧ exec (.programStart start reports) s = .next t
        ∧ programStarted u t start.toNat)
    ∧ (s.job.loadState = 4#8 → s.ranks.jobSize ≠ 1#32 → s.desk.role = 1#8 →
      (∀ r, reports.find? (fun r => r.digest != s.job.digest) = some r → ∃ t, exec (.programStart start reports) s = .next t
        ∧ loadRefused s t 9 ∧ t.job.refusal.extractLsb' 16 16 = r.rank)
      ∧ ((∀ r ∈ reports, r.digest = s.job.digest ∧ r.locked = true) →
        (∀ k, k < s.ranks.jobSize.toNat → k ≠ s.ranks.myRank.toNat → ∃ r ∈ reports, r.rank.toNat = k) →
        s.shp.timeState = 2#2 →
        let b := max start.toNat (s.milestone + 1800)
        ∃ t u, onward (placed b) u ∧ exec (.programStart start reports) s = .next t ∧ programStarted u t b))
    ∧ (writeFits s 0xA010 4 w row → w.value = [1#8] →
      let busy := s.job.loadState = 5#8 ∧ (s.stepRuns = true ∨ s.launchDecided = true)
      ∃ t, exec (.unload w) s = .next t ∧ machineSame s t
        ∧ (s.job.loadState = 0#8 ∨ s.job.loadState = 6#8 → answeredWith s t w stOk ∧ t.job = s.job)
        ∧ (s.job.loadState ≠ 0#8 → s.job.loadState ≠ 6#8 → answeredWith s t w stPending)
        ∧ (busy → t.job = { s.job with unloadPending := true })
        ∧ (¬ busy → s.job.loadState ≠ 0#8 → s.job.loadState ≠ 6#8 → s.job.loadState ≠ 7#8 → t.job.loadState = 7#8))
    ∧ (s.job.loadState = 7#8 → ∃ t, exec .unloadDone s = .next t ∧ memorySame s t ∧ t.job.loadState = 0#8
      ∧ t.ld.handles = [] ∧ (∀ tw k, (t.bell tw k).count = 0#48) ∧ (∀ k, t.post k = Post.empty)
      ∧ (∀ k, t.stage k = Stage.empty) ∧ (∀ k, t.porter k = Porter.idle) ∧ (∀ h, (t.vcore h).running = false)
      ∧ (∀ c, (t.mcore c).running = false) ∧ t.desk.role = 0#8 ∧ t.snaps = [] ∧ t.loader.barrier = s.loader.barrier
      ∧ ∀ o ∈ t.dict.owed, o.ended ≠ none ∨ (o.index = 0xA010#16 ∧ o.sub = 4#8))

/-- R260, R384, R397, R429: a launch at the desk is that of the step which its boundary has composed; at a follower that of
the record it has latched, which also gives LIVE_GEN and OLD_GEN, after its own boundary on that beat. -/
def Sys2Proof.Claims.launchesHold : Prop :=
  ∀ (s : State), s.active = true → calm s → s.shp.transitOnly = false → s.job.stepBell.toNat < 8192 →
    (∀ d, s.desk.role = 1#8 → s.decisionAt s.desk.tab.launchAt = some d → s.desk.tab.boundary = some d.at_ →
      s.desk.tab.stepOpen = true → ∃ t u, onward s u ∧ exec .launch s = .next t ∧ launched u t d.shape d.at_
        ∧ d.at_ + s.integ.jobOffset ≤ t.milestone)
    ∧ (∀ l, s.desk.role ≠ 1#8 → s.desk.latched.find? (fun l => l.step == s.job.launches + 1) = some l →
      ∃ t u, onward s u ∧ exec .launch s = .next t ∧ launched u t l.shape l.at_ ∧ t.loader.gens.live = l.live
        ∧ t.loader.gens.old = l.old ∧ t.desk.tab.stepGen = l.wgen ∧ t.desk.tab.stepOpen = true
        ∧ t.desk.tab.stepEnd = l.at_ + (SMap.get Shape.absent s.job.shapes l.shape.toNat).beats
        ∧ l.at_ + s.integ.jobOffset ≤ t.milestone)

/-- R258 to R260, R384, R429: program start, unload and launches. -/
def Obligations.ProgramsAndLaunches : Prop := programRunHold ∧ launchesHold

/-- R263: the module is quiescent at a commit beat exactly where no core has work or a signal to come, also one that END
has stopped, no finished-tile queue holds an entry and no drain has one to write, no porter, stack, stage or post input has
work due, no packet of another member is on its way in, and, at a launch, every core is held by its WAIT on the step bell or
has stopped. -/
def Sys2Proof.Claims.quiescenceHold : Prop :=
  ∀ (s : State) (atStart : Bool), s.desk.late = [] →
    (s.commitFailure atStart = none ↔
      (∀ e ∈ s.mc, e.2.times.busyUntil ≤ s.milestone ∧ e.2.signals = [])
      ∧ (∀ e ∈ s.vc, e.2.times.busyUntil ≤ s.milestone ∧ e.2.signals = [])
      ∧ (∀ e ∈ s.ftq, e.2.entries = []) ∧ (∀ e ∈ s.mc, e.2.pieces = [])
      ∧ (∀ e ∈ s.por.porters, e.2.queue = [] ∧ e.2.active = [] ∧ e.2.chain = []
        ∧ ∀ d ∈ e.2.arriving, s.milestone < d.due)
      ∧ (∀ e ∈ s.cel.ctl, e.2.arriving = [] ∧ e.2.streams = []) ∧ (∀ e ∈ s.pb.stages, e.2.entries = [])
      ∧ (∀ e ∈ s.pb.posts, e.2.waiting = []) ∧ (∀ e ∈ s.por.inbound, e.2 = []) ∧ s.pb.flights = []
      ∧ (atStart = true → (∀ e ∈ s.mc, e.2.atRest s.job.stepBell.toNat = true)
        ∧ ∀ e ∈ s.vc, e.2.atRest s.job.stepBell.toNat = true))

/-- R262, R265, R449, R460, R461: a commit beat at which the module is quiescent takes a snapshot, counts the commit and
waits for its confirmation; one at which it is not is a commit slip. The oldest commit is confirmed CONFIRM beats
later, and lets its records go. -/
def Sys2Proof.Claims.commitsHold : Prop :=
  ∀ (s : State),
    (∀ p atStart, s.active = true → calm s → s.shp.transitOnly = false → s.nextCommitBeat = some (p, atStart) →
      (atStart && s.launchComes p) = false →
      let u := s.toProgram p
      (u.commitFailure atStart = none → ∃ t snap, exec .commitPoint s = .next t
        ∧ machineSame u t ∧ t.integ.commits = u.integ.commits + 1 ∧ t.integ.lastCommit = p + s.integ.jobOffset
        ∧ t.snaps = (snap :: u.snaps).take 4 ∧ snap.beat = p ∧ snap.bells = u.pb.bells ∧ snap.posts = u.pb.posts
        ∧ snap.ftq = u.ftq ∧ snap.cellar = u.cel.ctl
        ∧ t.integ.unconfirmed = u.integ.unconfirmed ++ [(p + s.integ.jobOffset, p)]
        ∧ (∀ k, (t.porter k).staging = []) ∧ p + s.integ.jobOffset ≤ t.milestone
        ∧ (s.job.unloadPending = false → t.job.loadState = 5#8))
      ∧ (∀ cond agent, u.commitFailure atStart = some (cond, agent) → ∃ t, exec .commitPoint s = .next t
        ∧ machineSame u t ∧ t.job.slips = u.job.slips + 1 ∧ t.job.lastSlip.extractLsb' 62 2 = 2#2
        ∧ t.job.lastSlip.extractLsb' 17 8 = BitVec.ofNat 8 agent ∧ t.job.lastSlip.extractLsb' 13 4 = BitVec.ofNat 4 cond
        ∧ t.integ.commits = u.integ.commits ∧ t.snaps = u.snaps))
    ∧ (∀ c p rest, s.integ.unconfirmed = (c, p) :: rest → s.job.loadState = 5#8 → ∃ t u, onward s u
      ∧ exec .commitConfirm s = .next t
      ∧ machineSame u t ∧ t.integ.confirmed = max s.integ.confirmed c ∧ t.integ.unconfirmed = rest
      ∧ c + s.confirmBeats ≤ t.milestone
      ∧ t.desk.releases = s.desk.releases.filter (fun r => decide (p < r.beat))
      ∧ t.kl.outQueue.map OutRec.bytes = s.kl.outQueue.map OutRec.bytes
        ++ ((s.desk.releases.filter fun r => decide (r.beat ≤ p) && decide (r.kind ≠ .ignored)).map Release.bytes))

/-- R262, R263, R265, R449, R460, R461: commit beats. -/
def Obligations.QuiescenceAndCommits : Prop := quiescenceHold ∧ commitsHold

/-- R276, R279 to R283: the margin of a region is the smallest of its monitors' eight codes. A region whose margin falls
below 3 stretches each beat that follows, by an eighth, until its margin has been 5 or more for 16 beats in a row; the
module's count is the largest of any region. A crossing that slips is counted and is a contained transient fault; the loss
of the reference is module-fatal, and no point and no stretch changes then. -/
def Obligations.ClockRegions : Prop :=
  ∀ (r q : Fin 144) (codes : BitVec 32) (s : State) (b : Nat),
    let e := SMap.get Region.idle s.clock.regions r.val
    let margin := marginOf codes
    let others := fun u t : State => t = { u with clock := { u.clock with regions := t.clock.regions } }
      ∧ ∀ k, k ≠ r.val → SMap.get Region.idle t.clock.regions k = SMap.get Region.idle u.clock.regions k
    ((∀ i, i < 8 → margin ≤ (codes.extractLsb' (4 * i) 4).toNat)
      ∧ ∃ i, i < 8 ∧ margin = (codes.extractLsb' (4 * i) 4).toNat)
    ∧ (∃ t, exec (.stretchStart r codes) s = .next t ∧ others s t ∧
      let e' := SMap.get Region.idle t.clock.regions r.val
      e'.codes = codes ∧ e'.low = (if margin < 5 then s.milestone else e.low)
        ∧ e'.own = (e.own || (decide (margin < 3) && !s.clock.refLost))
        ∧ (e.own = false → e'.own = true → e'.count = s.clock.regionCount r.val))
    ∧ (5 ≤ margin → e.own = true → s.clock.refLost = false → calm s → ∃ t u, onward s u ∧ exec (.stretchEnd r codes) s = .next t
      ∧ others u t ∧ e.low + 16 ≤ t.milestone ∧
      let e' := SMap.get Region.idle t.clock.regions r.val
      e'.codes = codes ∧ e'.own = false ∧ e'.count = (SMap.get Region.idle u.clock.regions r.val).count)
    ∧ (margin < 5 → ∃ t, exec (.stretchEnd r codes) s = .next t ∧ others s t
      ∧ SMap.get Region.idle t.clock.regions r.val = { e with codes := codes, low := s.milestone })
    ∧ (let t := s.pass b
      let n := b - s.milestone
      (e.own = true → (SMap.get Region.idle t.clock.regions r.val).count = e.count + n)
        ∧ (e.own = false → (SMap.get Region.idle t.clock.regions r.val).count = e.count)
        ∧ s.clock.stretched ≤ t.clock.stretched
        ∧ (t.clock.stretched = s.clock.stretched
          ∨ ∃ x ∈ s.clock.regions, x.2.own = true ∧ t.clock.stretched = min x.2.count s.clock.stretched + n)
        ∧ (n ≠ 0 → e.own = true → r.val ∈ s.clock.regions.map Prod.fst → min e.count s.clock.stretched + n ≤ t.clock.stretched)
        ∧ (s.shp.trimPpm = 0#32 → t.wall = s.wall + n * beatUnits s.clock.opNow.toNat
          + (t.clock.stretched - s.clock.stretched) * (beatUnits s.clock.opNow.toNat / 8)))
    ∧ (∃ t, exec (.clockSlip r q) s = .next t ∧ machineSame s t ∧ t.clock.slips = s.clock.slips + 1
      ∧ (∀ i, i < 152 → t.clock.slip.getLsbD i = (decide (i = r.val) || decide (i = q.val) || s.clock.slip.getLsbD i))
      ∧ (s.active = true → s.integ.window = none → s.recentRewinds < 2 → t.integ.halted = true
        ∧ t.integ.rewinds = s.integ.rewinds + 1
        ∧ (SMap.get 0#64 t.integ.lastFault (regionTower r.val)).extractLsb' 59 5 = 8#5))
    ∧ (∃ t, exec .referenceLost s = .next t ∧ machineSame s t ∧ t.clock.refLost = true ∧ t.integ.fatalState = 1#8
      ∧ t.integ.halted = true ∧ ∀ p, (t.port p).up = false)

/-- R268, R276, R284 to R288, R292, R295 to R299: the governor's window takes the measurements, brings written settings into
force and sets the next request, one point up at a time, never above the ceiling, and lower where a limit says so or a
stack was HOT in the window; but in a resident job the point follows with the window. The desk rank of a resident job
announces the lowest request, and the announced point comes into force on its beat. A die at 105 °C, or a draw above
4,400 W, steps four points down at once, one at 110 °C stops the module, and a lost supply leaves only what is fused, the
record of what has left the module, and wall time. -/
def Sys2Proof.Claims.governorHold : Prop :=
  ∀ (m : GovInputs) (lowest : BitVec 4) (later temp power : BitVec 32) (s : State),
    let r := s.clock.opRequest.toNat
    let top := min s.job.maxOp.toNat s.clock.opCeiling.toNat
    let resident := s.jobLoaded = true ∧ s.job.placement = 1#8
    (s.boot.phase = .ready → ∃ t u, onward s u ∧ exec (.governorWindow m) s = .next t ∧ machineSame u t
      ∧ s.clock.windowStart + wallOfUs 250 ≤ t.wall ∧ t.clock.windowStart = s.clock.windowStart + wallOfUs 250
      ∧ t.clock.powerW = m.power ∧ t.clock.coolantIn = m.coolantIn
      ∧ t.clock.setpointNow = s.clock.setpoint ∧ t.clock.powerLimitNow = s.clock.powerLimit
      ∧ t.clock.powerModeNow = s.modes.powerMode
      ∧ (resident ∨ s.clock.refLost = true → t.clock.opNow = s.clock.opNow)
      ∧ (¬ resident → s.clock.refLost = false → t.clock.opNow = t.clock.opRequest)
      ∧ t.clock.opRequest.toNat ≤ top ∧ t.clock.opRequest.toNat ≤ r + 1
      ∧ ((65536 * 100 ≤ hottest m ∨ s.clock.hotSeen = true) → r ≤ top → t.clock.opRequest.toNat = r - 1))
    ∧ (∀ op b, s.clock.announced = some (op, b) → s.clock.refLost = false → (s.jobLoaded = true → op.toNat ≤ s.job.maxOp.toNat) →
      ∃ t u, onward s u ∧ exec (.opChange lowest later) s = .next t ∧ machineSame u t
      ∧ b ≤ t.milestone ∧ t.clock.opNow = op ∧ t.clock.announced = none
      ∧ t.clock.opChanges = s.clock.opChanges + (if s.clock.opNow = op then 0 else 1))
    ∧ (s.clock.announced = none → ¬ (resident ∧ s.ranks.myRank = s.ranks.deskRank) →
      exec (.opChange lowest later) s = .next s)
    ∧ (s.clock.announced = none → resident → s.ranks.myRank = s.ranks.deskRank →
      let one := s.ranks.jobSize = 1#32
      ∃ t, exec (.opChange lowest later) s = .next t ∧ machineSame s t ∧ t.clock.opNow = s.clock.opNow
        ∧ t.clock.announced = some (BitVec.ofNat 8 (if one then r else min r lowest.toNat),
          s.milestone + (if one then 0 else s.shp.jobDiameter.toNat * s.job.hopBeats.toNat) + s.job.hopSlack.toNat
            + later.toNat))
    ∧ (105 * 65536 ≤ temp.toInt ∨ 4400 * 65536 < power.toNat → s.clock.refLost = false →
      (s.jobLoaded = true → s.clock.opNow.toNat ≤ s.job.maxOp.toNat) → ∃ t, exec (.emergencyStep temp power) s = .next t
      ∧ machineSame s t ∧ t.clock.opNow.toNat = s.clock.opNow.toNat - 4 ∧ t.clock.opRequest = t.clock.opNow
      ∧ t.clock.emergencySteps = s.clock.emergencySteps + 1)
    ∧ (s.clock.refLost = true → exec (.emergencyStep temp power) s = .next s)
    ∧ (110 * 65536 ≤ temp.toInt → ∃ t, exec (.dieTrip temp) s = .next t ∧ machineSame s t ∧ t.integ.fatalState = 1#8
      ∧ (s.integ.fatalState ≠ 1#8 → s.integ.window = none →
        (SMap.get 0#64 t.integ.lastFault 0).extractLsb' 59 5 = 15#5))
    ∧ (∃ t, exec .powerLoss s = .next t ∧ t.boot.phase = .off ∧ t.pantry = [] ∧ t.larder = [] ∧ t.cellar = []
      ∧ t.mc = [] ∧ t.vc = [] ∧ t.job = State.reset.job ∧ t.wall = s.wall ∧ t.dict.replies = s.dict.replies
      ∧ (s.boot.fuses = [] → t.part = s.part))

/-- R26, R35, R286 to R296: the settings of power, heat and the guarded mode, each in its range; a value outside it is
answered RANGE and changes none of them. -/
def Sys2Proof.Claims.powerSettingsHold : Prop :=
  ∀ (w : DictWrite) (row : ObjRow) (s : State),
    let v := wnum w
    let rows : List (Instr × Nat × Nat × Prop × Clock × Modes) :=
      [(.powerMode w, 0x1100, 1, v ≤ 1, s.clock,
        { s.modes with powerMode := BitVec.ofNat 8 v, wordUpset := 0#64 }),
       (.setpointW w, 0x2030, 3, 2000 ≤ v ∧ v ≤ 4000, { s.clock with setpoint := BitVec.ofNat 16 v }, s.modes),
       (.powerLimitW w, 0x2030, 4, 2000 ≤ v ∧ v ≤ 4200, { s.clock with powerLimit := BitVec.ofNat 16 v }, s.modes),
       (.opCeiling w, 0x2020, 3, v ≤ 15, { s.clock with opCeiling := BitVec.ofNat 8 v }, s.modes),
       (.flowDeclared w, 0x2040, 4, v ≤ 786432, { s.clock with flow := BitVec.ofNat 32 v }, s.modes),
       (.forceGuarded w, 0x1100, 8, True, s.clock, { s.modes with forceGuarded := decide (v = 1) })]
    ∀ x ∈ rows, writeFits s x.2.1 x.2.2.1 w row →
      (x.2.2.2.1 → ∃ t, exec x.1 s = .next t ∧ settingOnly s t ∧ answeredWith s t w stOk
        ∧ t.clock = x.2.2.2.2.1 ∧ t.modes = x.2.2.2.2.2)
      ∧ (¬ x.2.2.2.1 → ∃ t, exec x.1 s = .next t ∧ settingOnly s t ∧ answeredWith s t w stRange
        ∧ t.clock = s.clock ∧ t.modes = s.modes)

/-- R26, R35, R284 to R299: the governor and the settings of power and heat. -/
def Obligations.PowerControl : Prop := governorHold ∧ powerSettingsHold

/-- R317, R322 to R325, R361, R375: a port trains, exchanges INIT flits and comes up with its neighbour's depths of credit, or
stays down; an INIT on a port that is up brings it up anew; one that goes down is excluded while a job is loaded, and decides by the signposts' detours and the time tree whether the job is
rewound or stopped; a lost lane is swapped for the group's spare by agreement of both ends, or takes the port down. -/
def Obligations.PortsAndLanes : Prop :=
  ∀ (port : PortId) (l : BitVec 2) (w : DictWrite) (row : ObjRow) (s : State),
    let n := port.val
    let p := s.port n
    let x := s.spare (n / 4)
    let mayTrain := p.role ≠ 0#8 ∧ s.boot.phase ≠ .off ∧ s.boot.phase ≠ .held ∧ s.integ.fatalState ≠ 1#8
      ∧ s.tap.landsTaken = false
    (mayTrain → p.up = false → ∃ t, exec (.portTrain port none) s = .next t ∧ onlyPort s t n
      ∧ t.port n = { p with retraining := true })
    ∧ (mayTrain → ∀ i : InitInfo, (i.sameVersion = false → p.up = false → ∃ t, exec (.portTrain port (some i)) s = .next t
        ∧ onlyPort s t n ∧ t.port n = { p with retraining := true, lastError := linkErrorWord 7 0 0 0 0 })
      ∧ (i.sameVersion = false → p.up = true → ∃ t, exec (.portTrain port (some i)) s = .next t
        ∧ machineSame s t ∧ wentDown s t n ∧ (t.port n).lastError.extractLsb' 60 4 = 7#4)
      ∧ (i.sameVersion = true → ∃ t, exec (.portTrain port (some i)) s = .next t ∧ machineSame s t
        ∧ (t.port n).up = true ∧ (t.port n).expect = 0#10 ∧ (t.port n).nak = none ∧ (t.port n).rxLabels = []
        ∧ (p.outq = [] → (t.port n).nextSeq = 0#10 ∧ (t.port n).replay = [])
        ∧ (∀ b, b < 10 → SMap.get 0#16 (t.port n).depth b = i.depths.getD b 0#16)
        ∧ (t.port n).initSeen = some i ∧ (∃ o, (t.port n).initSent = some o ∧ o.role = p.role ∧ o.channelNs = p.channelNs
          ∧ o.replayDepth = 512#16 ∧ o.depths = [16#16, 16#16, 192#16, 192#16, 192#16, 192#16, 64#16, 64#16, 128#16, 128#16])
        ∧ (p.spared = false → (t.port n).lanesOk = 0xF#4) ∧ (t.spare (n / 4)).peer = i.sparePeer
        ∧ (x.state ≠ 1 → x.state ≠ 2 → (t.spare (n / 4)).state = if i.sparePeer = 0#64 then 3 else 0)))
    ∧ (p.up = true → ∃ t, exec (.portDown port) s = .next t ∧ machineSame s t ∧ wentDown s t n
      ∧ (t.port n).lastError.extractLsb' 60 4 = 4#4 ∧ (t.port n).lanesOk = 0#4
      ∧ (s.jobLoaded = false → ∀ q, q ≠ n → t.port q = s.port q)
      ∧ (s.jobLoaded = true → s.integ.window = none → s.badDetour = none →
        t.shp.lastReshape.extractLsb' 55 5 = BitVec.ofNat 5 n
        ∧ t.shp.lastReshape.extractLsb' 60 4 = BitVec.ofNat 4 (if t.noDetour n then 2 else if s.parentPort ≠ n then 1
          else if s.shp.backup = false ∧ s.shp.timeParent2.toNat < 32 ∧ (t.port s.shp.timeParent2.toNat).carriesJob = true
          then 3 else 4)))
    ∧ (x.state = 0 → ∃ t, exec (.laneLost port none) s = .next t ∧ machineSame s t ∧ t.spare (n / 4) = { x with word := 0x80#32 }
      ∧ ∀ q, t.port q = s.port q)
    ∧ (p.up = true → p.swap = .none → ∃ t, exec (.laneLost port (some l)) s = .next t ∧ machineSame s t
      ∧ (t.port n).lanesOk.getLsbD l.toNat = false
      ∧ (s.protected n = false → wentDown s t n ∧ (t.port n).lastError.extractLsb' 60 4 = 3#4
        ∧ (t.port n).lastError.extractLsb' 58 2 = l)
      ∧ (s.protected n = true → s.swapOther n = none → (t.port n).up = true ∧ (t.port n).swap = .asked l s.milestone
        ∧ (t.spare (n / 4)).sent = [(false, BitVec.ofNat 5 n, l)]))
    ∧ (p.up = true → ∀ l' b, (p.swap = .none ∧ s.protected n = true ∧ s.swapOther n = none) ∨ p.swap = .asked l b →
      ∃ t, exec (.swap port l) s = .next t ∧ machineSame s t ∧ t.port n = { p with swap := .steered l }
        ∧ (t.spare (n / 4)).sent = [(true, BitVec.ofNat 5 n, l)]
        ∧ (l' ≠ l → p.swap = .asked l b → ∃ u, exec (.swap port l') s = .next u ∧ machineSame s u ∧ wentDown s u n))
    ∧ (∀ b l', p.swap = .asked l b → ∃ t, exec (.swapAck port l') s = .next t ∧ machineSame s t
      ∧ (l' = l → onlyPort s t n ∧ t.port n = { p with swap := .steered l }) ∧ (l' ≠ l → wentDown s t n))
    ∧ (p.swap = .steered l → (∃ t, exec (.spareRelock port true) s = .next t ∧ machineSame s t
        ∧ (t.port n).swap = .none ∧ (t.port n).spared = true ∧ (t.port n).slane = l
        ∧ (t.port n).lanesOk = p.lanesOk &&& ~~~(1#4 <<< l.toNat) ∧ (t.port n).lastError.extractLsb' 60 4 = 2#4
        ∧ (t.spare (n / 4)).state = 1 ∧ (t.spare (n / 4)).word.extractLsb' 4 2 = BitVec.ofNat 2 (n % 4)
        ∧ (t.spare (n / 4)).word.extractLsb' 2 2 = l
        ∧ (p.replay ≠ [] → (t.port n).replays = p.replays + 1) ∧ (p.replay = [] → (t.port n).replays = p.replays))
      ∧ ∃ t, exec (.spareRelock port false) s = .next t ∧ machineSame s t ∧ wentDown s t n
        ∧ (t.port n).lastError.extractLsb' 60 4 = 5#4)
    ∧ (writeFits s 0x4020 2 w row → replyLeaves s w → w.inst = BitVec.ofNat 16 n →
      let busy := x.state = 1 ∨ (s.swapOther n).isSome = true ∨ p.swap ≠ .none
      ∃ t, exec (.swapRequest w) s = .next t ∧ machineSame s t
        ∧ (3 < wnum w → answeredWith s t w stRange ∧ (t.port n).swap = p.swap)
        ∧ (wnum w ≤ 3 → busy → answeredWith s t w stBusy ∧ (t.port n).swap = p.swap)
        ∧ (wnum w ≤ 3 → ¬ busy → answeredWith s t w stPending
          ∧ (s.protected n = true → p.up = true → ∃ b, (t.port n).swap = .asked (BitVec.ofNat 2 (wnum w)) b)
          ∧ (s.protected n = false ∨ p.up = false → (t.port n).swap = .none)))

/-- R305 to R316: a flit that cannot be corrected or fails its CRC is discarded and asked for again; a stomped one is
discarded in silence; the expected SEQ is accepted, an earlier one dropped, a later one asked for again. A management
frame waits for the Steward, a HEAD for another member leaves by the port that its rank gives, one hop on. A flit of a
circuit goes to the circuit's output, unless its buffer of 512 flits is full; a corrupted one goes on stomped. -/
def Obligations.FlitReceipt : Prop :=
  ∀ (port : PortId) (f : Flit) (fec : Fec) (frac : BitVec 4) (s : State),
    let n := port.val
    let p := s.port n
    let run := exec (.flitReceive port f fec frac) s
    (p.up = true → s.onCircuit n f = none →
      (fec = .uncorrectable → ∃ t, run = .next t ∧ onlyPort s t n ∧ naks s p (t.port n)
        ∧ (t.port n).fecUncorrected = p.fecUncorrected + 1)
      ∧ (fec ≠ .uncorrectable → f.crc = ~~~f.computed → ∃ t, run = .next t ∧ onlyPort s t n
        ∧ t.port n = { p.countFec fec with stomped := p.stomped + 1 })
      ∧ (fec ≠ .uncorrectable → f.crc ≠ ~~~f.computed → wellFormed f = false → ∃ t, run = .next t ∧ onlyPort s t n
        ∧ naks s p (t.port n) ∧ (t.port n).crcFails = p.crcFails + 1)
      ∧ (fec ≠ .uncorrectable → f.crc ≠ ~~~f.computed → wellFormed f = true →
        let kept := p.replay.filter fun r => !ackPasses f.ack r.flit.seq
        (f.type = typeNak → ∃ t, run = .next t ∧ machineSame s t ∧ replays { p with replay := kept } (t.port n) f.ack)
        ∧ (f.type = typeIdle → ∃ t, run = .next t ∧ portBecomes s t n (p.countFec fec)
          ∧ ∀ r ∈ kept, r ∈ (t.port n).replay)
        ∧ (3 ≤ f.type.toNat → 512 ≤ (f.seq - p.expect).toNat → ∃ t, run = .next t ∧ onlyPort s t n
          ∧ (t.port n).expect = p.expect ∧ (t.port n).nak = p.nak ∧ (t.port n).flitsRx = p.flitsRx
          ∧ (t.port n).replay = kept)
        ∧ (3 ≤ f.type.toNat → f.seq ≠ p.expect → (f.seq - p.expect).toNat < 512 → ∃ t, run = .next t
          ∧ onlyPort s t n ∧ naks s p (t.port n) ∧ (t.port n).replay = kept)
        ∧ (3 ≤ f.type.toNat → f.seq = p.expect → p.reopens f = true → ∃ t, run = .next t ∧ onlyPort s t n
          ∧ naks s p (t.port n) ∧ (t.port n).crcFails = p.crcFails + 1)
        ∧ (3 ≤ f.type.toNat → f.seq = p.expect → p.reopens f = false → f.type ≠ typeHead ∨ (headDrank f.payload ≠ s.ranks.myRank
            ∧ isMulticast (headDrank f.payload) = false) → ∃ t, run = .next t ∧ memorySame s t
          ∧ (t.port n).expect = p.expect + 1 ∧ (t.port n).nak = none ∧ (t.port n).flitsRx = p.flitsRx + 1
          ∧ (f.hops = 63#6 → ¬ (s.integ.halted = true ∧ f.cls ≠ clsMgt) → t.ranks.lastRouteFault.extractLsb' 60 4 = 5#4)
          ∧ (f.hops ≠ 63#6 → f.cls = clsMgt → f.type = typeSingle → singleKind f.payload = 5#8 →
            (mtype f.payload = 1#8 ∨ mtype f.payload = 2#8 ∨ mtype f.payload = 5#8 ∨ mtype f.payload = 6#8) →
            (t.port n).mgt = p.mgt ++ [⟨f.payload, f.vc, s.milestone, frac⟩])
          ∧ (∀ q, f.hops ≠ 63#6 → s.integ.halted = false → f.type = typeHead →
            s.routeRank (headSrank f.payload) (headDrank f.payload) (headTag f.payload) = .port q →
            s.claimed q f.cls = false → handedTo t q typeHead f.cls (f.hops + 1) f.payload))
        ∧ (f.type = typeHead → f.seq = p.expect → p.reopens f = false → f.hops ≠ 63#6 → s.integ.halted = false →
          headDrank f.payload = s.ranks.myRank → isReadHead f.cls f.payload = true → 64 ≤ s.ranks.contexts →
          ∃ t, run = .next t ∧ memorySame s t ∧ t.ranks.reqRefused = s.ranks.reqRefused + 1
            ∧ (t.port n).expect = p.expect + 1)))
    ∧ (∀ w, p.up = true → s.onCircuit n f = some w → let q := circuitOut w
      (f.crc = ~~~f.computed → ∃ t, exec (.circuitForward port f fec) s = .next t ∧ onlyPort s t n
        ∧ t.port n = { p.countFec fec with stomped := p.stomped + 1 })
      ∧ (f.crc ≠ ~~~f.computed → fec = .uncorrectable ∨ f.crc ≠ f.computed → ∃ t,
        exec (.circuitForward port f fec) s = .next t ∧ machineSame s t
        ∧ (t.port n).crcFails = p.crcFails + (if fec = .uncorrectable then 0 else 1)
        ∧ (t.port n).fecUncorrected = p.fecUncorrected + (if fec = .uncorrectable then 1 else 0)
        ∧ (t.port n).expect = p.expect
        ∧ ((∃ o ∈ (t.port q).outq, o.stomp = true ∧ o.payload = f.payload)
          ∨ ∃ g ∈ (t.port q).pins, g.payload = f.payload ∧ g.crc = ~~~g.computed))
      ∧ (fec ≠ .uncorrectable → f.crc = f.computed → f.seq = p.expect → 512 ≤ s.circuitHeld n q → ∃ t,
        exec (.circuitForward port f fec) s = .next t ∧ onlyPort s t n ∧ naks s p (t.port n))
      ∧ (fec ≠ .uncorrectable → f.crc = f.computed → f.seq = p.expect → s.circuitHeld n q < 512 →
        s.integ.halted = false → f.hops ≠ 63#6 → ∃ t,
        exec (.circuitForward port f fec) s = .next t ∧ machineSame s t ∧ (t.port n).expect = p.expect + 1
        ∧ (t.port n).flitsRx = p.flitsRx + 1 ∧ handedTo t q f.type f.cls (f.hops + 1) f.payload))

/-- R310, R315 to R317, R346, R347, R351: a NAK, or 2 µs without an ACK, sends every flit from a SEQ on once more; a NAK
is repeated after 1 µs; a SEQ sent 8 times brings the port up anew or takes it down, with a contained transient fault;
an IDLE flit restarts the count of 4,096; freed credits are reported, those of a circuit as its far end freed them, and
taken; a refused read request is sent again. -/
def Obligations.LinkRetry : Prop :=
  ∀ (port : PortId) (seq : BitVec 10) (s : State),
    let n := port.val
    let p := s.port n
    (p.up = true → ∃ t, exec (.nak port seq) s = .next t ∧ machineSame s t
      ∧ replays { p with replay := p.replay.filter fun r => !ackPasses seq r.flit.seq } (t.port n) seq
      ∧ ∀ q, q ≠ n → t.port q = s.port q)
    ∧ (∀ r rest, p.up = true → p.replay = r :: rest → ∃ t u, onward s u ∧ exec (.replayTimeout port) s = .next t
      ∧ machineSame u t ∧ replays (u.port n) (t.port n) r.flit.seq ∧ r.since + wallOfUs 2 ≤ t.wall
      ∧ ∀ q, q ≠ n → t.port q = u.port q)
    ∧ (∀ q at_, p.up = true → p.nak = some (q, at_) → ∃ t u, onward s u ∧ exec (.nakRepeat port) s = .next t
      ∧ machineSame u t ∧ at_ + wallOfUs 1 ≤ t.wall ∧ nakSent (u.port n) (t.port n)
      ∧ t.port n = { u.port n with
          nak := some (q, t.wall), pins := (t.port n).pins, sinceIdle := (t.port n).sinceIdle })
    ∧ (∀ r, p.up = true → p.replay.find? (fun r => decide (8 ≤ r.times)) = some r →
      (∃ t, exec (.retryDefeated port true) s = .next t ∧ machineSame s t ∧ (s.integ.window = none → (t.port n).up = true)
        ∧ (t.port n).expect = 0#10 ∧ (t.port n).rxLabels = [] ∧ (t.port n).lastError.extractLsb' 60 4 = 1#4
        ∧ (t.port n).lastError.extractLsb' 48 10 = r.flit.seq ∧ rewindBegins s t)
      ∧ ∃ t, exec (.retryDefeated port false) s = .next t ∧ machineSame s t ∧ wentDown s t n
        ∧ (t.port n).lastError.extractLsb' 60 4 = 5#4)
    ∧ (p.up = true → p.swap = .none → p.outq = [] → ∃ t f, exec (.idleInsert port) s = .next t ∧ onlyPort s t n
      ∧ isBare p typeIdle f
      ∧ t.port n = { p with sinceIdle := 0, pins := [f], creditWait := (t.port n).creditWait, schedWait := none })
    ∧ (∀ w, p.up = true → p.unreported = some w → ∃ t u c, onward s u ∧ exec (.credit port) s = .next t ∧ machineSame u t
      ∧ handedTo t n typeSingle clsMgt 0#6 (singleOf 5#8 0#16 0#16 c)
      ∧ c.extractLsb' 0 8 = 3#8 ∧ (∀ b, b < 10 → c.extractLsb' (64 + 16 * b) 16 = u.creditCount n b
        ∧ SMap.get 0#16 (t.port n).reported b = u.creditCount n b)
      ∧ ((∀ b, b < 10 → s.owesCredit n b < 16) → w + wallOfNs 256 ≤ t.wall))
    ∧ (∀ c rest, p.credits = c :: rest → ∃ t, exec (.creditReceive port) s = .next t ∧ machineSame s t
      ∧ (t.port n).credits = rest ∧ ∀ b, b < 10 → SMap.get 0#16 (t.port n).freedSeen b = c.extractLsb' (16 * b) 16)
    ∧ (∀ (k : Fin 256) x, s.moverThere k.val = true → s.active = true → calm s → s.gated clsReq = false →
      nextRefused (s.porter k.val).refused = some x → ∃ t u, onward s u ∧ exec (.reqReinject k) s = .next t
        ∧ machineSame u t ∧ (t.porter k.val).refused = (u.porter k.val).refused.erase x ∧ x.2 ≤ t.milestone)

/-- R333, R355, R356, R374: a signpost is written if its value is in range, and while a job is loaded only behind a
drained gate. A mask holds new injections until no flit of its classes is left, and 0 lets them go. The desk rank gates
every member by rounds down and up the time tree, until two rounds in a row end and the second counts no flit. -/
def Obligations.SignpostsAndGates : Prop :=
  ∀ (entry : Fin 4096) (w : DictWrite) (row : ObjRow) (n : Nat) (f : MgtFrame) (rest : List (Nat × MgtFrame)) (s : State),
    let k := entry.val
    let v := BitVec.ofNat 8 (wnum w)
    let closeBody := fun (e : BitVec 32) (m : BitVec 8) => gateBody 6#8 1#8 e m 0#4 0#64
    (fitsUnloaded s (0x4150 + k / 256) (k % 256) w row → ∃ t, exec (.signpost entry w) s = .next t ∧ machineSame s t
      ∧ (∀ j, j ≠ k → t.signpost j = s.signpost j)
      ∧ (s.jobLoaded = true ∧ s.ranks.gateState ≠ 2#8 → answeredWith s t w stLocked ∧ t.signpost k = s.signpost k)
      ∧ (s.jobLoaded = false ∨ s.ranks.gateState = 2#8 →
        ((wpair w).ok = false → answeredWith s t w stComplement ∧ t.signpost k = s.signpost k)
        ∧ ((wpair w).ok = true → ¬ signpostGood (wpair w).v → answeredWith s t w stRange ∧ t.signpost k = s.signpost k)
        ∧ ((wpair w).ok = true → signpostGood (wpair w).v → answeredWith s t w stOk ∧ t.signpost k = wpair w)))
    ∧ (writeFits s 0x4140 1 w row → ∃ t, exec (.gateClasses w) s = .next t ∧ machineSame s t
      ∧ (v.getLsbD 0 = true → answeredWith s t w stRange ∧ gateIsNow t s.ranks.gateClasses s.ranks.gateState)
      ∧ (v.getLsbD 0 = false → v ≠ 0#8 → answeredWith s t w stPending ∧ gateIsNow t v 1#8)
      ∧ (v = 0#8 → answeredWith s t w stOk ∧ gateIsNow t 0#8 0#8))
    ∧ (s.ranks.gateState = 1#8 →
      (memberDrained s s.ranks.gateClasses → ∃ t, exec .gateDrained s = .next t ∧ machineSame s t
        ∧ gateIsNow t s.ranks.gateClasses 2#8 ∧ endedAll s t 0x4140#16 1#8 true)
      ∧ (¬ memberDrained s s.ranks.gateClasses → exec .gateDrained s = .next s))
    ∧ (writeFits s 0x4230 3 w row → replyLeaves s w → ∃ t, exec (.jobGate w) s = .next t ∧ machineSame s t
      ∧ (s.ranks.myRank ≠ s.ranks.deskRank → answeredWith s t w stDenied ∧ t.shp.jobGate = s.shp.jobGate)
      ∧ (s.ranks.myRank = s.ranks.deskRank → v.getLsbD 0 = true → answeredWith s t w stRange ∧ t.shp.jobGate = s.shp.jobGate)
      ∧ (s.ranks.myRank = s.ranks.deskRank → v.getLsbD 0 = false → v ≠ 0#8 → answeredWith s t w stPending
        ∧ t.shp.jobGate = v ∧ t.shp.jobGateState = 1#8 ∧ t.shp.epoch = s.shp.epoch + 1 ∧ gateIsNow t v 1#8
        ∧ sentDown s t (closeBody (s.shp.epoch + 1) v))
      ∧ (s.ranks.myRank = s.ranks.deskRank → v = 0#8 → answeredWith s t w stOk ∧ t.shp.jobGateState = 0#8
        ∧ gateIsNow t 0#8 0#8 ∧ sentDown s t (gateBody 6#8 3#8 s.shp.epoch 0#8 0#4 0#64)))
    ∧ (oldest s (gateIs 1) n f rest → ∃ t, exec .gateClose s = .next t ∧ machineSame s t ∧ t.shp.inbox = rest
      ∧ t.shp.epoch = gateEpoch f.body ∧ t.shp.reported = []
      ∧ (gateMask f.body ≠ 0#8 → gateIsNow t (gateMask f.body) 1#8)
      ∧ sentDown s t (closeBody (gateEpoch f.body) (gateMask f.body)))
    ∧ (oldest s (gateIs 2) n f rest → s.ranks.gateState ≠ 2#8 → ∃ t, exec .gateReport s = .next t ∧ machineSame s t
      ∧ t.shp.inbox = rest ∧ (gateEpoch f.body = s.shp.epoch → n ∉ s.shp.reported →
        t.shp.reported = s.shp.reported ++ [n] ∧ t.shp.reportCount = s.shp.reportCount + f.body.extractLsb' 64 64)
      ∧ (gateEpoch f.body ≠ s.shp.epoch → t.shp.reported = s.shp.reported ∧ t.shp.reportCount = s.shp.reportCount))
    ∧ ((∀ e ∈ s.shp.inbox, ¬ gateIs 2 e.2.body) → s.ranks.gateState = 2#8 → s.shp.reportSent = false →
      (∀ q ∈ s.shp.children, (s.port q).up = true → q ∈ s.shp.reported) →
      let total := s.shp.gatedReceived + s.shp.reportCount
      ∃ t, exec .gateReport s = .next t ∧ machineSame s t ∧ t.shp.gatedReceived = 0#64
        ∧ (s.ranks.myRank ≠ s.ranks.deskRank → s.parentPort < 32 → t.shp.reportSent = true
          ∧ localTo s t s.parentPort (gateBody 6#8 2#8 s.shp.epoch 0#8 0#4 total))
        ∧ (s.ranks.myRank = s.ranks.deskRank → s.shp.jobGateState = 1#8 → total = 0#64 → s.shp.roundDone = true →
          t.shp.jobGateState = 2#8 ∧ endedAll s t 0x4230#16 3#8 true)
        ∧ (s.ranks.myRank = s.ranks.deskRank → s.shp.jobGateState = 1#8 → total ≠ 0#64 ∨ s.shp.roundDone = false →
          t.shp.jobGateState = 1#8 ∧ t.shp.roundDone = true ∧ t.shp.epoch = s.shp.epoch + 1 ∧ t.shp.reported = []
          ∧ sentDown s t (closeBody (s.shp.epoch + 1) s.shp.jobGate)))
    ∧ (oldest s (gateIs 3) n f rest → ∃ t, exec .gateOpen s = .next t ∧ machineSame s t ∧ t.shp.inbox = rest
      ∧ gateIsNow t 0#8 0#8 ∧ sentDown s t f.body)

/-- R365 to R369, R372: a member asks its parent for the time every 16 µs and is answered; it computes offset and delay
to half a sixteenth, trims its rate towards its parent by at most 200 ppm, discards an exchange that took too long, and is
locked after 8 good ones in a row, unless it stands too deep in the tree. A count that is off is stepped only while no
program runs, after the Cellar's catch-up; a rewind's halt sets it anew, down the tree. -/
def Obligations.TimeTree : Prop :=
  ∀ (frac : BitVec 4) (w : DictWrite) (row : ObjRow) (n : Nat) (f : MgtFrame) (rest : List (Nat × MgtFrame)) (s : State),
    let b := f.body
    let up := s.parentPort
    (up < 32 → (s.port up).up = true → ∃ t u, onward s u ∧ exec (.timeRequest frac) s = .next t ∧ machineSame u t
      ∧ t.shp.requestAt = t.wall ∧ (s.shp.requestAt ≠ 0 → s.shp.requestAt + wallOfUs 16 ≤ t.wall) ∧ (s.shp.requestAt = 0 → u = s)
      ∧ (t.milestone < 2 ^ 64 → localTo s t up (timeBody s.shp.depth 0#2 (s.shp.timeState == 2#2) frac 0#4 0#4
        (BitVec.ofNat 64 t.milestone) 0#64 0#64 0#32)))
    ∧ (oldest s (timeIs 0) n f rest → ∃ t, exec (.timeResponse frac) s = .next t ∧ machineSame s t ∧ t.shp.inbox = rest
      ∧ n ∈ t.shp.children ∧ (∀ q ∈ s.shp.children, q ∈ t.shp.children)
      ∧ (s.milestone < 2 ^ 64 → localTo s t n (timeBody s.shp.depth 1#2 (s.shp.timeState == 2#2) (b.extractLsb' 24 4) f.frac frac
        (b.extractLsb' 64 64) (BitVec.ofNat 64 f.beat) (BitVec.ofNat 64 s.milestone) 0#32)))
    ∧ (oldest s (timeIs 1) n f rest →
      let t4 : Int := 16 * f.beat + f.frac.toNat
      let x := ((timeT2 b : Int) - timeT1 b) - (t4 - timeT3 b)
      let y := (t4 - timeT1 b) - ((timeT3 b : Int) - timeT2 b)
      let kept := (s.shp.delay.toNat : Int)
      let depth := (b.extractLsb' 42 6).toNat + 1
      let diameter := if s.ranks.jobSize = 1#32 then 0 else s.shp.jobDiameter.toNat
      ∃ t, exec .timeResponseReceive s = .next t ∧ machineSame s t ∧ t.shp.inbox = rest
        ∧ (n ≠ up → t.shp = { s.shp with inbox := rest })
        ∧ (n = up → t.shp.depth = BitVec.ofNat 6 depth ∧ t.shp.deepSaid = decide (diameter < depth)
          ∧ (diameter < depth → s.shp.deepSaid = false ∨ s.shp.depth.toNat ≠ depth →
            ∃ d, t.integ.raised = s.integ.raised ++ [(0x09#16, d)])
          ∧ (depth ≤ diameter ∨ (s.shp.deepSaid = true ∧ s.shp.depth.toNat = depth) → t.integ.raised = s.integ.raised)
          ∧ (s.shp.delay ≠ 0#32 → 2 * (kept + 16) + 1 < y → t.shp.offset = s.shp.offset ∧ t.shp.delay = s.shp.delay
            ∧ t.shp.timeState = s.shp.timeState ∧ t.shp.goodExchanges = s.shp.goodExchanges)
          ∧ (s.shp.delay = 0#32 ∨ y ≤ 2 * (kept + 16) → |x| < 2 ^ 31 → 0 ≤ y → y < 2 ^ 31 →
            |2 * t.shp.offset.toInt - x| ≤ 1 ∧ |2 * (t.shp.delay.toNat : Int) - y| ≤ 1
            ∧ t.shp.trimPpm.toInt.sign = t.shp.offset.toInt.sign ∧ |t.shp.trimPpm.toInt| ≤ 200 * 65536
            ∧ t.shp.goodExchanges = (if b.getLsbD 39 = true ∧ |t.shp.offset.toInt| ≤ 8 then s.shp.goodExchanges + 1 else 0)
            ∧ t.shp.timeState = (if s.shp.timeState = 1#2 ∧ 8 ≤ t.shp.goodExchanges ∧ depth ≤ diameter then 2#2
              else s.shp.timeState))))
    ∧ (let o := s.shp.offset.toInt
      let may := s.job.loadState ≠ 5#8 ∧ s.shp.timeState = 1#2 ∧ s.shp.stepped = false ∧ 16 < |o| ∧ s.cellarIdle = true
      (¬ may → exec .timeStep s = .next s)
      ∧ (may → ∃ t d, exec .timeStep s = .next t ∧ machineSame s t ∧ |16 * d - o| ≤ 8
        ∧ t.milestone = ((s.milestone : Int) + 216 + d).toNat ∧ t.shp.timeSteps = s.shp.timeSteps + 1 ∧ t.shp.stepped = true))
    ∧ (writeFits s 0x4220 8 w row → s.boot.phase = .ready → ∃ t, exec (.timeLock w) s = .next t ∧ machineSame s t
      ∧ t.shp.goodExchanges = 0 ∧ t.shp.backup = false ∧ t.shp.deepSaid = false
      ∧ (w.value = [0#8] → answeredWith s t w stOk ∧ t.shp.timeState = 0#2)
      ∧ (w.value = [1#8] → answeredWith s t w stPending
        ∧ (s.shp.timeParent = 0xFE#8 → t.shp.timeState = 2#2 ∧ t.shp.depth = 0#6)
        ∧ (s.shp.timeParent ≠ 0xFE#8 → t.shp.timeState = 1#2)))
    ∧ (¬ inRewind s → exec (.timeResync frac) s = .next s)
    ∧ (inRewind s → s.shp.timeParent = 0xFE#8 → s.shp.resynced = false → ∃ t,
      exec (.timeResync frac) s = .next t ∧ machineSame s t ∧ t.shp.resynced = true ∧ t.milestone = s.milestone
      ∧ (s.milestone < 2 ^ 64 → ∀ q ∈ s.shp.children, (s.port q).up = true → ∃ d, localTo s t q
        (timeBody s.shp.depth 2#2 (s.shp.timeState == 2#2) 0#4 0#4 frac 0#64 0#64 (BitVec.ofNat 64 s.milestone) d)))
    ∧ (inRewind s → s.shp.timeParent ≠ 0xFE#8 → oldest s (timeIs 2) n f rest →
      let x := (timeT3 b : Int) + (b.extractLsb' 256 32).toNat - (16 * f.beat + f.frac.toNat)
      (n ≠ up → exec (.timeResync frac) s = .next { s with shp := { s.shp with inbox := rest } })
      ∧ (n = up → s.cellarIdle = false → exec (.timeResync frac) s = .next s)
      ∧ (n = up → s.cellarIdle = true → ∃ t d, exec (.timeResync frac) s = .next t ∧ machineSame s t
        ∧ t.shp.inbox = rest ∧ t.shp.resynced = true ∧ |16 * d - x| < 16
        ∧ t.milestone = ((s.milestone : Int) + d).toNat ∧ t.shp.timeSteps = s.shp.timeSteps + 1))

/-- R352, R359 to R362, R373, R486, R490: the Steward takes management frames from the ports; it sends and keeps HELLOs,
and finds out whether a group's spare is wired to one neighbour; an announced change is set for its beat; the desk
repeats a request after 10 ms; and an operation that has ended sends its COMPLETE. -/
def Obligations.StewardFrames : Prop :=
  ∀ (port : PortId) (n : Nat) (f : MgtFrame) (rest : List (Nat × MgtFrame)) (more : List MgtFrame) (s : State),
    let b := f.body
    let p := s.port port.val
    let buf := if f.vc then 1 else 0
    (p.mgt = f :: more → ∃ t, exec (.stewardMgtTake port) s = .next t ∧ machineSame s t ∧ (t.port port.val).mgt = more
      ∧ (mtype f.payload ≠ 4#8 → t.shp.inbox = s.shp.inbox ++ [(port.val, f)]
        ∧ SMap.get 0#16 (t.port port.val).freed buf = SMap.get 0#16 p.freed buf + 1)
      ∧ (mtype f.payload = 4#8 → fromModule (msgOpcode b) = false →
        s.full (.eothar (singleSrank f.payload)) (msgBytes b) = false →
        t.dict.waiting = s.dict.waiting ++ [(.eothar (singleSrank f.payload), msgBytes b)]))
    ∧ (p.role ≠ 0#8 → p.up = true → ∃ t u c, onward s u ∧ exec (.hello port) s = .next t ∧ machineSame u t ∧ localTo s t port.val c
      ∧ (t.port port.val).helloSent = some (c, t.wall)
      ∧ (∀ w, p.helloSent = some (c, w) → w + wallOfUs 100000 ≤ t.wall)
      ∧ c.extractLsb' 0 16 = 0x0101#16 ∧ c.extractLsb' 22 5 = BitVec.ofNat 5 port.val ∧ c.extractLsb' 48 16 = s.ranks.myRank
      ∧ c.extractLsb' 64 64 = s.boot.version ∧ c.extractLsb' 192 64 = s.shp.bootNonce
      ∧ c.extractLsb' 256 64 = (s.spare (port.val / 4)).peer)
    ∧ (oldest s (frameIs 1) n f rest → ∃ t, exec .helloReceive s = .next t ∧ machineSame s t ∧ t.shp.inbox = rest
      ∧ (let x := s.port n
        let y := t.port n
        let news := x.valid = true ∧ ∃ i, i < 960 ∧ i ≠ 32 ∧ ¬ (48 ≤ i ∧ i < 64) ∧ b.getLsbD i ≠ x.neighbour.getLsbD i
        y.neighbour = b ∧ y.hellos = x.hellos + 1 ∧ y.valid = true ∧ y.stale = false
        ∧ (y.mgtOnly = true ↔ b.extractLsb' 8 8 ≠ 1#8) ∧ (y.changed = true ↔ x.changed = true ∨ news)
        ∧ (news → ∃ d, t.integ.raised = s.integ.raised ++ [(0x08#16, d)]) ∧ (¬ news → t.integ.raised = s.integ.raised))
      ∧ ∀ i, i < 4 → ((t.port (4 * (n / 4) + i)).spareOk = true ↔
        (∀ j, j < 4 → (t.port (4 * (n / 4) + j)).valid = true
          ∧ helloNonce (t.port (4 * (n / 4) + j)).neighbour = (s.spare (n / 4)).peer
          ∧ helloPort (t.port (4 * (n / 4) + j)).neighbour = helloPort (t.port (4 * (n / 4))).neighbour + j)
        ∧ helloPort (t.port (4 * (n / 4))).neighbour % 4 = 0))
    ∧ (oldest s (frameIs 5) n f rest → let at_ := (b.extractLsb' 64 64).toNat
      ∃ t, exec .announce s = .next t ∧ machineSame s t ∧ t.shp.inbox = rest
        ∧ (b.extractLsb' 8 8 ≠ 1#8 → t = { s with shp := t.shp })
        ∧ (b.extractLsb' 8 8 = 1#8 → sentDown s t b
          ∧ (f.beat ≤ at_ → t.clock.announced = some ((b.extractLsb' 20 4).setWidth 8, at_))
          ∧ (at_ < f.beat → t.clock.announced = s.clock.announced ∧ rewindBegins s t)))
    ∧ (∀ a more, s.dict.asked = a :: more → ∃ t u, onward s u ∧ exec .eotharDictRepeat s = .next t ∧ machineSame u t
      ∧ a.since + wallOfUs 10000 ≤ u.wall ∧ t.dict.asked = more ++ [{ a with since := u.wall }]
      ∧ ∀ q, u.routeRank s.ranks.myRank a.rank 0#16 = .port q → frameIs 4 a.message →
        handedTo t q typeSingle clsMgt 0#6 (singleOf 5#8 a.rank s.ranks.myRank a.message))
    ∧ (∀ o ok beat, s.dict.owed.find? (fun o => o.ended.isSome && s.answered o) = some o → o.ended = some (ok, beat) →
      ∃ t, exec .complete s = .next t ∧ machineSame s t ∧ t.dict.owed = s.dict.owed.erase o
        ∧ (s.pathUp o.path = true → s.answers = true → ∃ r, t.dict.replies = s.dict.replies ++ [r] ∧ r.opcode = 0x84#8
          ∧ r.status = stOk ∧ r.tag = o.tag ∧ r.path = o.path ∧ r.inst = o.inst ∧ r.index = o.index ∧ r.sub = o.sub
          ∧ r.value.length = 8 ∧ r.value.getD 7 0#8 = if ok then 0#8 else 1#8)
        ∧ (s.pathUp o.path = false → t.dict.replies = s.dict.replies))
    ∧ (∀ o, s.dict.owed.find? (fun o => o.ended.isSome && s.answered o) = none →
      s.dict.owed.find? (fun o => o.index == 0x4220#16 && o.sub == 8#8 && o.ended.isNone) = some o →
      ∃ t u, onward s u ∧ exec .complete s = .next t ∧ machineSame u t ∧ s.shp.lockAt + wallOfUs 50000 ≤ t.wall
        ∧ (o ∈ u.dict.owed → t.dict.owed = u.dict.owed.erase o))

/-- R383, R384, R393, R400, R401: with LAUNCH_LEAD 0 the desk launches the best shape for what is ready, at the boundary
itself, and composes its columns; with nothing ready it decides nothing. A decision whose records were not sent in a
replay has them sent. A follower keeps the launch that its record names, unless it reads it too late. A record enters
the inbox while there is room. -/
def Obligations.DeskDecisions : Prop :=
  ∀ (s : State),
    (s.desk.role ≠ 1#8 → exec .launchDecision s = .next s)
    ∧ (deskFree s → let w := s.loader.gens.live
      (gReady s w + pReady s w = 0 ∨ s.job.shapes = [] → exec .launchDecision s = .next s)
      ∧ (gReady s w + pReady s w ≠ 0 → s.job.shapes ≠ [] → ∃ t d q x, exec .launchDecision s = .next t
        ∧ t = { s with desk := t.desk } ∧ (q, x) ∈ s.job.shapes
        ∧ (∀ e ∈ s.job.shapes, ¬ shapeBetter (gReady s w) (pReady s w) e.2 x)
        ∧ t.desk.decided = s.desk.decided ++ [d] ∧ d.shape = BitVec.ofNat 4 q ∧ d.at_ = s.now ∧ d.wgen = w
        ∧ d.done = false ∧ t.desk.tab.lodgers = s.desk.tab.lodgers ∧ t.desk.tab.stepOpen = true
        ∧ t.desk.tab.launchAt = s.now
        ∧ (SMap.wf Lodger.free s.desk.tab.lodgers = true → SMap.wf Shape.absent s.job.shapes = true → q < 16 →
          columnsGood s t w x)))
    ∧ (∀ d, s.active = true → calm s → s.desk.role = 1#8 → s.desk.decided.find? (fun d => !d.sent) = some d →
      ∃ t u, onward s u ∧ exec .launchDecision s = .next t ∧ machineSame u t
        ∧ t.desk.decided = s.desk.decided.map (fun e => if e = d then { e with sent := true } else e)
        ∧ d.decidedAt + s.integ.jobOffset ≤ t.milestone
        ∧ ∀ r, r < s.ranks.jobSize.toNat → r ≠ s.ranks.myRank.toNat → r ∉ s.desk.transitMembers →
          ∃ h ∈ (t.porter 14).arriving, (h.desc.extractLsb' 237 16).toNat = r % 65536)
    ∧ (s.active = true → s.desk.role = 2#8 → s.shp.transitOnly = false →
      let p := s.bell 0 s.desk.launchBell.toNat
      let e := s.handle 0 s.desk.launchHandle.toNat
      let record := s.readRecord
      let at_ := (recWord record 1).toNat
      p.ok = true →
      (p.count = s.desk.tab.seen → exec .followerLaunch s = .next s)
      ∧ (p.count ≠ s.desk.tab.seen → e.ok = true → e.valid = true → ∃ t, exec .followerLaunch s = .next t ∧ machineSame s t
        ∧ t.desk.tab.seen = p.count
        ∧ (at_ ≤ s.milestone + 3 → t.desk.latched = s.desk.latched ∧ t.desk.lastEvent.extractLsb' 60 4 = 1#4
          ∧ rewindBegins s t)
        ∧ (s.milestone + 3 < at_ → ∃ l ∈ t.desk.latched, l.step = recWord record 0 ∧ l.at_ = at_ - s.integ.jobOffset
          ∧ l.shape = (recWord record 2).extractLsb' 60 4 ∧ l.wgen = (recWord record 2).extractLsb' 52 8
          ∧ l.live = (recWord record 2).extractLsb' 44 8 ∧ l.old = (recWord record 2).extractLsb' 36 8
          ∧ ∀ l' ∈ t.desk.latched, l'.step = l.step → l' = l)))
    ∧ (∀ bs rest, s.kl.submits = bs :: rest →
      (s.desk.inbox.length < 256 → ∃ t r, exec .inboxRecord s = .next t ∧ machineSame s t ∧ t.kl.submits = rest
        ∧ t.desk.inbox = s.desk.inbox ++ [r] ∧ r.bytes = bs ∧ r.applied = none)
      ∧ (256 ≤ s.desk.inbox.length → exec .inboxRecord s = .next s))

/-- R386, R397, R399, R405, R406: a boundary folds the step that has ended into every lodger and retires those that are
done; a lodger whose pair fails its check is a fault. A Reckoner starts 3 beats after its bell and reads its column's rows on
consecutive beats; at the column's end it begins the next, and 8 beats later it has sampled a token that the mask allows,
for a greedy lodger the first of the greatest, and marks a lodger that has none. -/
def Obligations.DeskBoundary : Prop :=
  ∀ (tower : Fin 4) (s : State),
    (∀ b, s.active = true → calm s → s.shp.transitOnly = false → s.boundaryBeat = some b → s.desk.tab.boundary ≠ some b →
      s.desk.tab.stepOpen = true →
      (s.badLodger = none → s.switchPending = none → s.decisionAt b = none → s.loader.gens.old = 0#8 →
        (∀ r ∈ s.desk.inbox, r.applied = none → b ≤ r.arrived) → SMap.wf Lodger.free s.desk.tab.lodgers = true →
        ∃ t u, onward s u ∧ exec .stepBoundary s = .next t ∧ machineSame u t ∧ t.milestone = b + s.integ.jobOffset
          ∧ t.desk.tab.boundary = some b ∧ t.desk.tab.stepOpen = false ∧ t.job.commitDue = some b
          ∧ ∀ i, (s.lodger i).state ≠ 0#4 →
            settles t.milestone (s.desk.tab.cols.filter fun c => c.lodger == i).length (s.lodger i) (t.lodger i))
      ∧ (∀ i, s.badLodger = some i → ∃ t u, onward s u ∧ exec .stepBoundary s = .next t ∧ machineSame u t
        ∧ t.desk = u.desk ∧ (u.integ.window = none → u.recentRewinds < 2 →
          (SMap.get 0#64 t.integ.lastFault 0).extractLsb' 59 5 = 1#5) ∧ rewindBegins u t))
    ∧ (let r := s.reckoner tower.val
      let k := s.desk.logitHandle.toNat
      let e := s.handle tower.val k
      let n := s.logitRows
      let first := r.done * n
      ∀ b, r.met = some b → r.ends = none → s.active = true → calm s → r.cols ≠ [] → s.desk.vocab ≠ 0#32 →
        let u := s.toProgram (b + 3)
        ∃ t end_, exec (.reckonerStart tower) s = .next t ∧ memorySame u t ∧ t.desk.tab = s.desk.tab
          ∧ (t.reckoner tower.val).cols = r.cols ∧ (t.reckoner tower.val).ends = some end_ ∧ b + 3 + n + 2560 ≤ end_
          ∧ leavesToDo u t ((List.range n).map fun i => .read [.logit tower.val k (first + i)]) (.logits tower.val)
          ∧ (s.ld.runs = [] → e.ok = true → e.valid = true → first + n - 1 ≤ e.lenm1 →
            let w := t.toBeat (t.milestone + n)
            memorySame s w ∧ ∀ i j, i < n → j < 512 → (w.reckoner tower.val).logits.read (512 * i + j)
              = (s.readRow (144 * tower.val + e.sliceFor (48 * tower.val)) e.row0 (first + i) e.grid).read j))
    ∧ (∀ c rest b, (s.reckoner tower.val).cols = c :: rest → (s.reckoner tower.val).ends = some b → s.active = true →
        calm s →
        let u := s.toProgram b
        let u' := nextColumn u tower.val b rest
        calm u' →
        let l := s.lodger c.lodger
        let logits := (u.reckoner tower.val).logits
        ∃ t, exec (.reckonerColumnDone tower) s = .next t ∧ memorySame (u'.toProgram (b + 8)) t
          ∧ b + 8 + s.integ.jobOffset ≤ t.milestone
          ∧ SMap.get 0#64 t.desk.reckonerColumns tower.val = SMap.get 0#64 s.desk.reckonerColumns tower.val + 1
          ∧ (∀ i, i ≠ c.lodger → t.lodger i = s.lodger i) ∧ (rest = [] → t.reckoner tower.val = Reckoner.idle)
          ∧ (rest ≠ [] → (t.reckoner tower.val).cols = rest)
          ∧ ((∀ tok, ¬ mayPick s l logits tok) → t.lodger c.lodger = { l with noCandidate := true }
            ∧ SMap.get 0#64 t.desk.noCandidate tower.val = SMap.get 0#64 s.desk.noCandidate tower.val + 1)
          ∧ (l.temp.setWidth 31 = 0#31 → (∃ tok, mayPick s l logits tok) → ∃ tok, mayPick s l logits tok
            ∧ t.lodger c.lodger = { l with hasPending := true, pending := BitVec.ofNat 18 tok }
            ∧ (∀ k, mayPick s l logits k → ¬ logitBelow s l logits tok k)
            ∧ ∀ k, k < tok → mayPick s l logits k → logitBelow s l logits k tok))


/-- R410, R417, R427 to R429, R433, R434, R437, R491: requests to load, switch and hold back launches are each refused out
of range or while something forbids them, and otherwise take effect; at the desk rank of a job of several, every other
member is asked before the answer, and a switch waits for their answers. The loader takes one request at a time, and then
a queued adapter that waited for room. -/
def Obligations.WeightControl : Prop :=
  ∀ (w : DictWrite) (row : ObjRow) (s : State), s.boot.phase = .ready →
    let loc := s.loader.manifestLoc
    let req := fun (form : BitVec 2) a => (⟨form, a, loc⟩ : LoadReq)
    let waits := (∃ r ∈ s.loader.queue, r.form ≠ 3#2) ∨ ∃ a, s.loader.active = some a ∧ a.req.form ≠ 3#2
    (writeFits s 0x6010 1 w row → s.fansOut w = false →
      (let busy := s.loader.gens.old ≠ 0#8 ∨ waits ∨ s.loader.ready ≠ none ∨ 16 ≤ s.loader.queue.length
      ∃ t, exec (.weightLoadSet w) s = .next t ∧ machineSame s t
        ∧ (wnum w ≠ 1 → answeredWith s t w stRange ∧ t.loader = s.loader)
        ∧ (wnum w = 1 → busy → answeredWith s t w stBusy ∧ t.loader = s.loader)
        ∧ (wnum w = 1 → ¬ busy → answeredWith s t w stPending
          ∧ t.loader = { s.loader with queue := s.loader.queue ++ [req 1#2 0] }))
      ∧ (let fit := wnum w = 2 ∧ s.job.swapMode ≠ 1#8 ∧ s.loader.gens.live ≠ 0#8
        let busy := s.barrierNow ≠ 2#8 ∨ s.loader.queue ≠ [] ∨ s.loader.active ≠ none
        ∃ t, exec (.weightLoadInPlace w) s = .next t ∧ machineSame s t
          ∧ (¬ fit → answeredWith s t w stRange ∧ t.loader = s.loader)
          ∧ (fit → busy → answeredWith s t w stBusy ∧ t.loader = s.loader)
          ∧ (fit → ¬ busy → answeredWith s t w stPending ∧ t.loader = { s.loader with queue := [req 2#2 0] })))
    ∧ (writeFits s 0x6010 1 w row → s.fansOut w = true → wnum w = 1 → s.loader.gens.old = 0#8 → ¬ waits →
      s.loader.ready = none → s.loader.queue.length < 16 → ∃ t, exec (.weightLoadSet w) s = .next t ∧ machineSame s t
        ∧ t.dict.replies = s.dict.replies ∧ t.loader.queue = s.loader.queue ++ [req 1#2 0]
        ∧ ∀ r : BitVec 16, r.toNat < s.ranks.jobSize.toNat → r ≠ s.ranks.myRank → ∃ a ∈ t.dict.asked, a.rank = r)
    ∧ (writeFits s 0x6010 3 w row → s.fansOut w = false → ∃ t, exec (.switch w) s = .next t ∧ machineSame s t
      ∧ (w.value = [0#8] → answeredWith s t w stRange ∧ t.loader = s.loader)
      ∧ (w.value = [1#8] → s.loader.ready = none → answeredWith s t w stBusy ∧ t.loader = s.loader)
      ∧ (∀ place g, w.value = [1#8] → s.loader.ready = some (place, g) → answeredWith s t w stPending
        ∧ (s.switchPending = none → s.desk.role ≠ 2#8 →
          t.loader = { s.loader with switchAt := some (s.now, g, place), switched := none })))
    ∧ (writeFits s 0x6010 3 w row → s.fansOut w = true → w.value = [1#8] → s.loader.ready ≠ none →
      ∃ t, exec (.switch w) s = .next t ∧ machineSame s t ∧ t.dict.replies = s.dict.replies
        ∧ t.loader.switchAt = s.loader.switchAt
        ∧ ∀ r : BitVec 16, r.toNat < s.ranks.jobSize.toNat → r ≠ s.ranks.myRank → ∃ a ∈ t.dict.asked, a.rank = r)
    ∧ (writeFits s 0x6010 4 w row → s.fansOut w = false →
      (w.value = [1#8] → s.desk.role ≠ 2#8 → ∃ t, exec (.barrierClose w) s = .next t ∧ machineSame s t
        ∧ answeredWith s t w stOk ∧ t.loader.barrier = true
        ∧ (s.loader.barrier = false → t.loader.barrierState =
          if s.desk.tab.stepOpen = true ∨ ∃ d ∈ s.desk.decided, d.done = false then 1#8 else 2#8))
      ∧ (w.value = [0#8] → ∃ t, exec (.barrierOpen w) s = .next t ∧ machineSame s t
        ∧ answeredWith s t w stOk ∧ t.loader = { s.loader with barrier := false, barrierState := 0#8 }))
    ∧ (writeFits s 0x6040 1 w row → w.inst.toNat < 512 →
      let i := w.inst.toNat
      let x := s.adapter i
      let z := !x.active
      let busy := x.st z = 1#2 ∨ x.queued = true ∨ (x.pin z = 0#16 ∧ 16 ≤ s.loader.queue.length)
        ∨ (x.pin z ≠ 0#16 ∧ s.loader.bothPinned ≠ 1#8)
      ∃ t, exec (.adapterLoad w) s = .next t ∧ machineSame s t
        ∧ (w.value = [0#8] → answeredWith s t w stRange ∧ t.loader = s.loader)
        ∧ (w.value = [1#8] → busy → answeredWith s t w stBusy ∧ t.loader = s.loader)
        ∧ (w.value = [1#8] → ¬ busy → answeredWith s t w stPending
          ∧ (x.pin z = 0#16 → (t.adapter i).st z = 1#2 ∧ t.loader.queue = s.loader.queue ++ [req 3#2 i])
          ∧ (x.pin z ≠ 0#16 → t.adapter i = { x with queued := true, loc := loc } ∧ t.loader.queue = s.loader.queue)))
    ∧ (∀ r rest, s.integ.fatalState = 0#8 → s.loader.active = none → s.loader.queue = r :: rest →
      let flash := (r.loc.extractLsb' 60 4).toNat = 1
      let ctrl := (r.loc.extractLsb' 59 1).toNat
      let nsid := r.loc.extractLsb' 0 32
      let live := s.loader.gens.live.toNat
      ∃ t, exec .loaderRequestStart s = .next t ∧ machineSame s t ∧ t.loader.form = r.form
        ∧ (s.waitingAdapter = none → t.loader.queue = rest)
        ∧ (∀ i, s.waitingAdapter = some i → rest.length < 16 → (s.adapter i).queued = true →
          (s.adapter i).pin (!(s.adapter i).active) = 0#16 → t.loader.queue = rest ++ [⟨3#2, i, (s.adapter i).loc⟩]
          ∧ (t.adapter i).queued = false)
        ∧ (r.form = 1#2 → t.loader.gen.toNat = if live = 0 then 1 else live % 254 + 1)
        ∧ (r.form = 2#2 → t.loader.gen.toNat = (live + 1) % 254 + 1)
        ∧ (r.form ≠ 3#2 → t.loader.set = t.loader.gen.getLsbD 0)
        ∧ (flash → s.flashReady ctrl nsid = false → loadFailed t 7 manifestShard)
        ∧ (¬ flash ∨ s.flashReady ctrl nsid = true → t.loader.state = 1#4 ∧ ∃ a, t.loader.active = some a ∧ a.req = r
          ∧ a.gen = t.loader.gen ∧ (flash → ∃ x, a.reads.head? = some x ∧ x.at_ = 0 ∧ x.len = min 4096 (s.readLimit ctrl))))

/-- R415, R416, R418 to R420, R423, R425: bytes from flash land, or their part fails an attempt; so does a part whose
digest differs or that takes too long. A checked shard is handed to porter 13 of its target's tower in a permitted
time, cut to end with a fill window. Frames of a chain are stored and passed on; a peer's request is answered. -/
def Obligations.WeightData : Prop :=
  ∀ (read : Fin 16) (ok : Bool) (data : List (BitVec 8)) (image : Option PeerImage) (a : ActiveLoad) (s : State),
    (s.loader.active = some a →
      (∀ r, a.reads[read.val]? = some r →
        (ok = true → r.len ≤ data.length → a.manifest.checked = true → ∃ t, exec (.flashReadComplete read ok data) s = .next t
          ∧ machineSame s t ∧ landed s t r.at_ (data.take r.len))
        ∧ (ok = false ∨ data.length < r.len → ∃ t, exec (.flashReadComplete read ok data) s = .next t ∧ machineSame s t
          ∧ SMap.get 0#32 t.flash.errors a.ctrl = SMap.get 0#32 s.flash.errors a.ctrl + 1
          ∧ attemptFailed s t a r.shard 6))
      ∧ (∀ i, s.landedShard a = some i → let e := a.shard i
        let same := digest32 (a.buf.readBytes e.at_ (512 * e.units)) = e.digest
        ∃ t, exec .shardLanded s = .next t ∧ machineSame s t
          ∧ (same → ∃ a', t.loader.active = some a' ∧ (a'.landing i).checked = true ∧ a'.buf = a.buf)
          ∧ (¬ same → attemptFailed s t a i 5))
      ∧ (∀ i w, s.timedParts a = [(i, w)] → ∃ t u, onward s u ∧ exec .shardTimeout s = .next t ∧ machineSame u t
        ∧ w + wallOfUs (1000 * s.loader.timeoutMs.toNat) ≤ t.wall ∧ attemptFailed s t a i 6)
      ∧ (∀ i, s.nextShard a = some i → let e := a.shard i
        let handed := (a.landing i).handed
        (s.shardTarget a e handed = none → ∃ t, exec .loaderTargetWrite s = .next t ∧ machineSame s t ∧ loadFailed t 4 i)
        ∧ (∀ g, s.shardTarget a e handed = some g → (∀ x ∈ a.writing, x.2.1 ≠ g.tower) →
          let k := 16 * g.tower + 13
          let writes := fun (u t : State) (n : Nat) => ∃ h m, (t.porter k).arriving = (u.porter k).arriving ++ [h]
            ∧ h.supplied = some m ∧ h.desc.extractLsb' 192 64 = g.e0
            ∧ h.desc.extractLsb' 0 24 = BitVec.ofNat 24 (16 * n - 1)
            ∧ (∀ j, j < 512 * n → m.read j = a.buf.read (e.at_ + 512 * handed + j))
            ∧ ∃ a', t.loader.active = some a' ∧ (a'.landing i).handed = handed + n
          (s.writeTime a = .never → exec .loaderTargetWrite s = .next s)
          ∧ (s.writeTime a = .free → ∃ t, exec .loaderTargetWrite s = .next t ∧ machineSame s t ∧ writes s t (e.units - handed))
          ∧ (∀ from_ last, s.writeTime a = .window from_ last → a.writing = [] → calm s → ∃ t u, onward s u
            ∧ exec .loaderTargetWrite s = .next t ∧ machineSame u t ∧ from_ ≤ t.milestone
            ∧ ((t.porter k).arriving = (u.porter k).arriving
              ∨ ∃ n, 0 < n ∧ n ≤ e.units - handed ∧ writes u t n
                ∧ u.writeEnd g n (max t.milestone (u.porter k).startFree) ≤ last)))))
    ∧ (∀ p f rest, s.ranks.passAlong = (p, f) :: rest → let b := singleBody f
      let i := passShard b
      let at_ := (a.part i).1 + 112 * passChunk b
      (s.loader.active = none → passType b = 1#4 → ∃ t, exec .passAlong s = .next t ∧ machineSame s t
        ∧ t.ranks.passAlong = rest ∧ t.loader = { s.loader with discarded := s.loader.discarded + 1 })
      ∧ (s.loader.active = some a → passType b = 1#4 → a.source = 3 → s.loader.upPort = BitVec.ofNat 8 p →
        a.manifest.checked = true → i < a.nshards → (a.landing i).tried ≠ 2 →
        ((a.shard i).rank = s.ranks.myRank → s.loader.downPort = 0xFF#8 → at_ + (passData b).length ≤ (a.part i).2 →
          a.held + (passData b).length ≤ landingBytes → a.ready = false → ∃ t, exec .passAlong s = .next t
          ∧ machineSame s t ∧ t.ranks.passAlong = rest ∧ landed s t at_ (passData b))
        ∧ ((a.shard i).rank ≠ s.ranks.myRank → s.mayPass s.loader.downPort.toNat = true → ∃ t,
          exec .passAlong s = .next t ∧ machineSame s t ∧ t.ranks.passAlong = rest
          ∧ passedTo t s.loader.downPort.toNat b ∧ t.loader.bytesLanded = s.loader.bytesLanded))
      ∧ (passType b = 2#4 → s.mayPass p = true → ∃ t, exec (.shardRequest image) s = .next t ∧ machineSame s t
        ∧ t.ranks.passAlong = rest
        ∧ (let mine := ∃ m, image = some m ∧ m.digest = b.extractLsb' 64 64 ∧ s.loader.manifestLoc.extractLsb' 60 4 = 1#4
          (∀ m, image = some m → mine → ∀ k, 112 * k < m.bytes.length → ∃ c, passedTo t p c ∧ passType c = 1#4
            ∧ passShard c = i ∧ passChunk c = k % 16777216 ∧ passData c = (m.bytes.drop (112 * k)).take 112)
          ∧ (¬ mine → ∃ c, passedTo t p c ∧ passType c = 3#4 ∧ passShard c = i
            ∧ c.extractLsb' 64 64 = b.extractLsb' 64 64))))

/-- R441 to R443, R445, R450 to R453: a corrected error is counted; any other that a code or a pair finds halts the
member and takes it back to its last commit, or, with no snapshot, stops the job; a HALT does the same and goes on to
every other port, one hop on. The member goes on at RESUME. A job-fatal error stops the job, or lets an UNLOAD that waits
for a step end, and a received stop does too; a
module-fatal error takes every port down, and a second one quiets the outputs. -/
def Obligations.Rewinds : Prop :=
  ∀ (f : Found) (index : BitVec 24) (s : State),
    (foundSensible f = true → f.kind = .corrected → ∃ t, exec (.faultRaise f) s = .next t
      ∧ t = { s with integ := t.integ } ∧ t.integ.halted = s.integ.halted ∧ t.integ.errorCount = s.integ.errorCount
      ∧ let count := fun u : State => if f.place = 7#5 then u.integ.pantryCorrected
          else if f.place = 8#5 then u.integ.larderCorrected else u.integ.otherCorrected
        SMap.get 0#64 (count t) f.tower.val = SMap.get 0#64 (count s) f.tower.val + 1)
    ∧ (foundSensible f = true → f.kind ≠ .corrected → f.place ≠ 15#5 → f.again = false → mayRewind s →
      ∃ t, exec (.faultRaise f) s = .next t ∧ t.integ.halted = true ∧ t.integ.rewinds = s.integ.rewinds + 1
        ∧ (∀ x, s.snaps.find? (fun x => decide (x.beat ≤ s.integ.lastCommit - s.integ.jobOffset)) = some x →
          x.beat ≤ s.milestone → (SMap.get 0#64 t.integ.lastFault f.tower.val).extractLsb' 59 5
            = (if f.kind = .pair then 1#5 else if f.kind = .parity then 4#5 else 2#5)
          ∧ ∃ resume, resumesAfter s s.milestone resume ∧ rewound s t x resume)
        ∧ (s.snaps = [] → t.integ.window ≠ none ∧ (SMap.get 0#64 t.integ.lastFault 0).extractLsb' 59 5 = 5#5))
    ∧ (∀ p w rest, s.ranks.halts = (p, w) :: rest → let g := haltOf (singleBody w.payload)
      let goesOn := fun t : State => s.ranks.jobSize ≠ 1#32 → ∀ q, q < 32 → q ≠ p → (s.port q).carriesJob = true →
        handedTo t q typeSingle clsMgt (w.hops + 1) w.payload
      (g.stop = false → s.hasSeen g = true → ∃ t, exec (.halt false) s = .next t
        ∧ t = { s with ranks := { s.ranks with halts := rest } })
      ∧ (g.stop = false → s.hasSeen g = false → mayRewind s → ∀ x,
        s.snaps.find? (fun x => decide (x.beat ≤ g.target - g.omega)) = some x → x.beat ≤ g.raise →
        ∃ t resume, exec (.halt false) s = .next t ∧ t.integ.halted = true ∧ t.integ.rewinds = s.integ.rewinds + 1
          ∧ t.ranks.halts = rest ∧ resumesAfter s g.raise resume ∧ rewound s t x resume
          ∧ goesOn t)
      ∧ (g.stop = true → s.hasSeen g = false → s.jobActive = true → s.integ.fatalState = 0#8 → ∃ t,
        exec .jobStopReceive s = .next t ∧ machineSame s t ∧ t.integ.halted = true ∧ t.ranks.halts = rest ∧ goesOn t
          ∧ t.integ.window = some (s.integ.window.getD g.error)))
    ∧ (∀ x, s.integ.halted = true → s.rewindFrames ≠ [] → s.integ.window = none → s.integ.fatalState = 0#8 →
      s.job.loadState = 5#8 → s.targetSnap = some x → ∃ t, exec .rewindResume s = .next t ∧ t.integ.halted = false
        ∧ t.integ.frames = [] ∧ t.integ.lastResume ≤ t.milestone
        ∧ t.integ.lastResume = x.beat + roundUp ((s.rewindFrames.map fun g => g.raise + s.lead).foldl max 0 - x.beat) 3456
        ∧ rewound s t x t.integ.lastResume)
    ∧ (s.integ.window ≠ none → ∃ t, exec .jobFatalStop s = .next t ∧ machineSame s t
      ∧ t.job.loadState = (if s.job.unloadPending then 7#8 else 8#8)
      ∧ t.integ.window = none ∧ t.integ.halted = s.integ.halted)
    ∧ (∃ t, exec (.moduleFatal index) s = .next t ∧ machineSame s t ∧ t.integ.fatalState = 1#8 ∧ t.integ.halted = true
      ∧ (∀ q, (t.port q).up = false) ∧ (s.integ.fatalState = 1#8 → t.boot.outputsQuiet = true ∧ t.kl.up = false)
      ∧ (s.integ.fatalState ≠ 1#8 → s.integ.window = none →
        (SMap.get 0#64 t.integ.lastFault 0).extractLsb' 59 5 = 7#5 ∧ t.boot.outputsQuiet = s.boot.outputsQuiet))

/-- R36, R458, R469 to R478, R488: a READ returns an object's value and an INFO its description; a pair that fails its check
has none, and the module's own word of modes is then written anew; a reserved opcode is denied; an object that does not
exist has no value. A setting in range takes the value, one out of range keeps its own. HALLS_OFF
keeps the halls that the self-test turned off. The I3C target takes an address, and answers for its endpoint ID. -/
def Obligations.DictionaryRequests : Prop :=
  ∀ (a : DictAsk) (w : DictWrite) (row : ObjRow) (op eid head : BitVec 8) (address : BitVec 7) (s : State),
    let n := wnum w
    (∀ i, askFits s a row i → row.access ≠ 3 → s.objFails a.index.toNat a.sub.toNat i = none →
      ((a.index, a.sub) = (0xA010#16, 2#8) → ∃ t, exec (.dictRead a) s = .next t
        ∧ replied s t a 0x81#8 stOk (bytesLE s.job.loadState.toNat 1))
      ∧ ((a.index, a.sub) = (0x7010#16, 1#8) → ∃ t, exec (.dictRead a) s = .next t
        ∧ replied s t a 0x81#8 stOk (bytesLE s.integ.errorCount.toNat 4))
      ∧ ((a.index, a.sub) = (0x4100#16, 2#8) → ∃ t, exec (.dictRead a) s = .next t
        ∧ replied s t a 0x81#8 stOk (bytesLE s.ranks.jobSize.toNat 4)))
    ∧ (∀ i k, askFits s a row i → a.index.toNat = 0x3340 + k / 256 → a.sub.toNat = k % 256 → k < 8192 → row.access ≠ 3 → s.jobLoaded = false →
      (s.bell i k).ok = false → ∃ t, exec (.dictRead a) s = .next t ∧ replied s t a 0x81#8 stComplement [])
    ∧ (∀ i, askFits s a row i → (a.index, a.sub) = (0x1100#16, 7#8) →
      s.modes.wordUpset.extractLsb' 0 32 ≠ s.modes.wordUpset.extractLsb' 32 32 →
      ∃ t, exec (.dictRead a) s = .next t ∧ replied s t a 0x81#8 stComplement [] ∧ t.modes.wordUpset = 0#64)
    ∧ (∀ i, askFits s a row i → ∃ t, exec (.dictInfo a) s = .next t ∧ ∃ w : W64,
      replied s t a 0x83#8 stOk (bytesLE w.toNat 8) ∧ w.extractLsb' 40 24 = BitVec.ofNat 24 row.size
        ∧ w.extractLsb' 32 8 = BitVec.ofNat 8 row.type ∧ w.extractLsb' 28 4 = BitVec.ofNat 4 row.access
        ∧ w.extractLsb' 24 4 = BitVec.ofNat 4 row.kind)
    ∧ (s.answers = true → a.path = .kloder →
      (¬ (1 ≤ op.toNat ∧ op.toNat ≤ 3) → ∀ value, ∃ t, exec (.dictReservedOpcode op a value) s = .next t
        ∧ replied s t a 0x80#8 (if s.dictOpen then stDenied else stNotReady) [])
      ∧ (s.dictOpen = true → objRow a.index.toNat a.sub.toNat = none → ∃ t u, exec (.dictRead a) s = .next t
        ∧ replied s t a 0x81#8 stNoObject [] ∧ exec (.dictInfo a) s = .next u ∧ replied s u a 0x83#8 stNoObject []))
    ∧ (let rows : List (BitVec 16 × BitVec 8 × Prop × (State → Prop)) :=
        [(0x4100#16, 1#8, True, fun t => t.ranks.myRank = BitVec.ofNat 16 n),
         (0x4100#16, 2#8, 1 ≤ n ∧ n ≤ 65536 ∧ (s.ranks.gridCols = 0#16 ∨ n ≤ 65534), fun t => t.ranks.jobSize = BitVec.ofNat 32 n),
         (0x4200#16, 3#8, n ≤ 63, fun t => t.shp.jobDiameter = BitVec.ofNat 8 n),
         (0x3301#16, 1#8, 65536 ≤ n, fun t => t.pb.watchdogBeats = BitVec.ofNat 32 n),
         (0x5020#16, 3#8, 1 ≤ n ∧ n ≤ 8192, fun t => t.desk.lodgerLimit = BitVec.ofNat 16 n),
         (0x6030#16, 4#8, 10 ≤ n ∧ n ≤ 60000, fun t => t.loader.timeoutMs = BitVec.ofNat 16 n)]
      ∀ x ∈ rows, writeFits s x.1.toNat x.2.1.toNat w row → ∃ t, exec (.dictWrite x.1 x.2.1 w) s = .next t ∧ machineSame s t
        ∧ (x.2.2.1 → answeredWith s t w stOk ∧ x.2.2.2 t)
        ∧ (¬ x.2.2.1 → answeredWith s t w stRange ∧ t.ranks.jobSize = s.ranks.jobSize
          ∧ t.shp.jobDiameter = s.shp.jobDiameter ∧ t.pb = s.pb ∧ t.desk = s.desk ∧ t.loader = s.loader))
    ∧ (writeFits s 0x7060 1 w row → ∃ t, exec (.hallsOff w) s = .next t ∧ machineSame s t ∧ answeredWith s t w stOk
      ∧ t.integ.hallsOff = BitVec.ofNat 192 n ||| s.boot.bistHalls)
    ∧ (s.answers = true → (∃ t, exec (.i3cDynamicAddress address) s = .next t ∧ t.i3c.address = address.setWidth 8
        ∧ t = { s with i3c := t.i3c })
      ∧ (head.getLsbD 7 = true → op = 0#8 ∨ op = 1#8 → ∃ t,
        exec (.mctpControlCommand 0#8 [head, 1#8, op, eid]) s = .next t ∧ t = { s with i3c := t.i3c }
          ∧ (eid ≠ 0#8 → eid ≠ 0xFF#8 → t.i3c.eid = eid
            ∧ t.i3c.sent = s.i3c.sent ++ [[0#8, head &&& 0x3F#8, 1#8, 0#8, 0#8, eid, 0#8]])
          ∧ (eid = 0#8 ∨ eid = 0xFF#8 → t.i3c.eid = s.i3c.eid))
      ∧ (∀ m : List (BitVec 8), m.length ≤ 1040 → s.full .i3c m = false → ∃ t,
        exec (.mctpControlCommand 0x7F#8 ([0x00#8, 0x00#8, 0x7E#8, 0xD9#8] ++ m)) s = .next t
          ∧ t = { s with dict := { s.dict with waiting := s.dict.waiting ++ [(.i3c, m)] } })
      ∧ (∀ type data, type ≠ 0#8 → type ≠ 0x7F#8 → ∃ t, exec (.mctpControlCommand type data) s = .next t
        ∧ t = { s with i3c := { s.i3c with dropped := s.i3c.dropped + 1 } }))

/-- R495, R497 to R503, R506, R508: a good frame in order is accepted and acknowledged, one ahead is answered with a NAK,
one behind with the expected SEQ, and one that fails a check is discarded and counted. A NAK, or 10 µs without an
acknowledgement, replays the channel; 16 sendings of one SEQ take the link down, as the loss of both groups does. An INIT
brings the link up afresh, or resumes it. Events are numbered and logged; queued records leave in order. -/
def Obligations.KloderLink : Prop :=
  ∀ (ch : KloderChannel) (f : KloderFrame) (fec : Fec) (seq : BitVec 32) (groups : BitVec 2) (group : Bool)
    (body : List (BitVec 8)) (s : State),
    let c := ch.val
    let k := KFrame.ofWire f
    let x := s.chan c
    (s.kl.up = true → fec = .uncorrectable ∨ frameOk f = false → ∃ t, exec (.kloderFrameReceive f fec) s = .next t
      ∧ machineSame s t ∧ t.kl.crcFails = s.kl.crcFails + 1 ∧ t.kl.pins = s.kl.pins ∧ t.kl.chans = s.kl.chans
      ∧ t.dict = s.dict)
    ∧ (s.kl.up = true → fec ≠ .uncorrectable → frameOk f = true → k.ch.toNat = c → c ≠ 3 → 4 < k.ach.toNat → 4 < k.cch.toNat →
      (k.seq = x.expect → ∃ t, exec (.kloderFrameReceive f fec) s = .next t ∧ machineSame s t
        ∧ (t.chan c).expect = x.expect + 1 ∧ (t.chan c).nak = none ∧ (∃ g ∈ t.kl.pins, isCtrl t c false (x.expect + 1) g)
        ∧ (c = 0 → t.dict.waiting = s.dict.waiting ++ [(.kloder, f.payload)])
        ∧ (c = 1 → k.first = true → k.last = true → t.kl.submits = s.kl.submits ++ [f.payload]))
      ∧ (1 ≤ (k.seq - x.expect).toNat → (k.seq - x.expect).toNat ≤ 255 → x.nak = none →
        ∃ t, exec (.kloderFrameReceive f fec) s = .next t ∧ machineSame s t ∧ (t.chan c).expect = x.expect
          ∧ (t.chan c).nak = some (x.expect, s.wall) ∧ (∃ g ∈ t.kl.pins, isCtrl t c true x.expect g) ∧ t.dict = s.dict)
      ∧ (255 < (k.seq - x.expect).toNat → ∃ t, exec (.kloderFrameReceive f fec) s = .next t ∧ machineSame s t
        ∧ (t.chan c).expect = x.expect ∧ (∃ g ∈ t.kl.pins, isCtrl t c false x.expect g) ∧ t.dict = s.dict))
    ∧ (let late := x.replay.filter fun r => !kPasses seq (KFrame.seq r.frame)
      s.kl.up = true → x.outq = [] → s.integ.events = [] → late ≠ [] → ∃ t, exec (.kloderNak ch seq) s = .next t
        ∧ machineSame s t ∧ (t.chan c).replay.map (fun r => (KFrame.seq r.frame, r.times))
          = late.map (fun r => (KFrame.seq r.frame, r.times + 1)) ∧ t.kl.replays = s.kl.replays + 1)
    ∧ (∀ r rest, s.kl.up = true → x.replay = r :: rest → ∃ t u, onward s u ∧ exec (.kloderReplayTimeout ch) s = .next t
      ∧ machineSame u t
      ∧ r.since + wallOfUs 10 ≤ t.wall ∧ t.kl.replays = s.kl.replays + 1
      ∧ (t.chan c).replay.map (fun r => KFrame.seq r.frame) = x.replay.map fun r => KFrame.seq r.frame)
    ∧ (∀ since, s.kl.up = true → x.nak = some (x.expect, since) → ∃ t u g, onward s u ∧ exec (.kloderNakRepeat ch) s = .next t
      ∧ machineSame u t ∧ since + wallOfUs 2 ≤ t.wall ∧ t.kl.pins = s.kl.pins ++ [g] ∧ isCtrl s c true x.expect g)
    ∧ (s.kl.up = true → (∃ q, q < 5 ∧ ∃ r ∈ (s.chan q).replay, 16 ≤ r.times) → ∃ t, exec .kloderRetrain s = .next t
      ∧ machineSame s t ∧ t.kl.up = false ∧ t.kl.retraining = true ∧ t.kl.linkDowns = s.kl.linkDowns + 1
      ∧ t.kl.chans = s.kl.chans)
    ∧ (s.kl.groups.getLsbD (if group then 1 else 0) = true → ∃ t, exec (.kloderGroupLoss group) s = .next t
      ∧ t = { s with kl := t.kl } ∧ t.kl.groups.getLsbD (if group then 1 else 0) = false
      ∧ t.kl.groups.getLsbD (if group then 0 else 1) = s.kl.groups.getLsbD (if group then 0 else 1)
      ∧ t.kl.retraining = true ∧ (t.kl.up = true ↔ s.kl.up = true ∧ s.kl.groups = 3#2))
    ∧ (groups ≠ 0#2 → s.answers = true → ∃ t, exec (.kloderInit groups body) s = .next t ∧ machineSame s t
      ∧ t.kl.groups = groups ∧ t.kl.initSent = true
      ∧ (let nonce := initWord body 1
        let good := body.length = 72 ∧ (initWord body 0).extractLsb' 48 16 = 0x0101#16 ∧ nonce ≠ 0#64
        let enough := creditsEnough body = true
        let resumes := nonce = s.kl.peerNonce ∧ initWord body 2 = s.shp.bootNonce
        (¬ good → t.kl.up = s.kl.up ∧ t.kl.peerNonce = s.kl.peerNonce)
        ∧ (good → t.kl.peerNonce = nonce)
        ∧ (good → enough → t.kl.up = true ∧ (t.kl.resumed = true ↔ resumes)
          ∧ (¬ resumes → ∀ q, q < 5 → (t.chan q).expect = 0#32 ∧ (t.chan q).granted = initHalf body 6 q)
          ∧ (resumes → ∀ q, q < 5 → (t.chan q).expect = (s.chan q).expect))))
    ∧ (∀ code beat data rest, s.integ.raised = (code, beat, data) :: rest → s.boot.phase = .ready →
      s.integ.events.length < 1024 → ∃ t e, exec .event s = .next t ∧ machineSame s t ∧ t.integ.raised = rest
        ∧ t.integ.eventNext = s.integ.eventNext + 1 ∧ t.integ.events = s.integ.events ++ [e]
        ∧ e.seq = s.integ.eventNext ∧ e.code = code ∧ e.beat = beat ∧ e.body = data)
    ∧ (∀ r, s.kl.outQueue.find? (fun r => r.seq.isNone) = some r → let q := if r.token then 2 else 1
      s.kl.up = true → (s.chan q).outq = [] → 0 < (s.chan q).credit → (s.chan q).replay.length < 256 →
      ∃ t, exec .outboundSend s = .next t ∧ machineSame s t
        ∧ t.kl.outQueue.map OutRec.bytes = s.kl.outQueue.map OutRec.bytes
        ∧ (t.chan q).sentFirst = (s.chan q).sentFirst + 1
        ∧ (t.kl.outQueue.filter fun r => r.seq.isNone).length + 1 = (s.kl.outQueue.filter fun r => r.seq.isNone).length)

/-- R414, R415, R504, R505, R519, R520: a BULK segment of each KIND is dealt with and acknowledged: staged, landed for the
loader, gathered for flash, flushed, or placed as firmware; out of range, not ready, or of a reserved KIND it is answered
so. Writes and Flushes complete; a lost flash link ends its commands; the endpoint's own requests reach two windows. -/
def Obligations.BulkAndFlash : Prop :=
  ∀ (g : List (BitVec 8)) (rest : List (List (BitVec 8))) (i : Fin 256) (ok ctrl : Bool) (init : F0Init)
    (req : PcieRequest) (s : State),
    let o := segOffset g
    let bs := segData g
    let kind := segKind g
    let ns := (segCtrl g, segNsid g)
    (s.kl.segments = g :: rest →
      (kind = 1#4 → s.boot.phase = .ready → s.cel.invalid = none → ∃ t, exec .bulkStaging s = .next t ∧ segmentTaken s t rest
        ∧ (stagingBytes < o + bs.length → t.cellar = s.cellar ∧ completes t 1#4 resRange (segTag g) (segS1 g))
        ∧ (o + bs.length ≤ stagingBytes → ∀ k a, (t.stackOf k).read a =
          if k = 16 ∧ stagingBase + o ≤ a ∧ a < stagingBase + o + bs.length then bs.getD (a - stagingBase - o) 0#8
          else (s.stackOf k).read a))
      ∧ (kind = 1#4 → s.boot.phase ≠ .ready → ∃ t, exec .bulkStaging s = .next t ∧ segmentTaken s t rest
        ∧ t.cellar = s.cellar ∧ completes t 1#4 resNotReady (segTag g) (segS1 g))
      ∧ (kind = 2#4 → s.boot.phase = .ready →
        ((∀ a, s.loader.active = some a → a.source ≠ 2) → ∃ t, exec .bulkWeightStream s = .next t ∧ segmentTaken s t rest
          ∧ t.loader = s.loader)
        ∧ (∀ a, s.loader.active = some a → a.source = 2 → landingBytes < a.held + bs.length →
          exec .bulkWeightStream s = .next s)
        ∧ (∀ a, s.loader.active = some a → a.source = 2 → a.held + bs.length ≤ landingBytes → a.manifest.checked = true →
          a.ready = false → ∃ t a', exec .bulkWeightStream s = .next t ∧ segmentTaken s t rest ∧ t.loader.active = some a'
            ∧ t.loader.bytesLanded = s.loader.bytesLanded + BitVec.ofNat 64 bs.length
            ∧ ∀ k ∈ s.keptShards a, (a.landing k).checked = false → ∀ p, o ≤ p → p < o + bs.length →
              (a.part k).1 ≤ p → p < (a.part k).2 → a'.buf.read p = bs.getD (p - o) 0#8))
      ∧ (kind = 3#4 → s.boot.phase = .ready → ∃ t, exec .bulkFlashWrite s = .next t ∧ segmentTaken s t rest
        ∧ (o % 8 ≠ 0 → t.flash = s.flash ∧ completes t 3#4 resRange (segTag g) (segS1 g))
        ∧ (o % 8 = 0 → ∀ j, j < bs.length → gathered t ns.1 ns.2 (o + j) (bs.getD j 0#8)))
      ∧ (kind = 4#4 → s.boot.phase = .ready → ∃ t, exec .bulkFlashFlush s = .next t ∧ segmentTaken s t rest
        ∧ t.flash.runs = s.flash.runs.filter (fun r => !(r.ctrl == ns.1 && r.nsid == ns.2))
        ∧ (s.flashReady ns.1.toNat ns.2 = false → t.flash.issued = s.flash.issued ∧ completes t 4#4 resDevice (segTag g) (segS1 g))
        ∧ (s.flashReady ns.1.toNat ns.2 = true → ∃ ws short, t.flash.issued = s.flash.issued ++ ws
            ++ [.flush ns.1 ns.2 (segTag g) (segS1 g) short] ∧ ∀ w ∈ ws, w.ns = ns ∧ w.isWrite = true))
      ∧ (kind = 0#4 ∨ 5 < kind.toNat ∨ (kind = 5#4 ∧ s.boot.phase ≠ .rom) → ∃ t, exec .bulkReserved s = .next t
        ∧ segmentTaken s t rest ∧ t.cellar = s.cellar ∧ completes t kind resRange (segTag g) (segS1 g))
      ∧ (kind = 5#4 → s.boot.phase = .rom → ∃ t, exec .bulkFirmware s = .next t ∧ segmentTaken s t rest ∧ t.cellar = s.cellar
        ∧ (let bad := o % 1024 ≠ 0 ∨ firmwareBytes ≤ o ∨ bs.length ≠ 1024
          let b := { s.boot with
            image := s.boot.image.writeBytes o bs, blocks := SMap.set false s.boot.blocks (o / 1024) true }
          let cause := ({ s with boot := b } : State).firmwareCause
          (bad → t.boot = s.boot ∧ completes t 5#4 resRange (segTag g) 5#64)
          ∧ (¬ bad → b.imageWhole = false → t.boot = b)
          ∧ (¬ bad → b.imageWhole = true → cause = 0 → t.boot.phase = .firmware ∧ t.boot.version = b.fw 1
            ∧ completes t 5#4 resOk (segTag g) (BitVec.ofNat 64 b.imageBytes))
          ∧ (¬ bad → b.imageWhole = true → cause ≠ 0 → t.boot.phase = .rom ∧ t.boot.image = [] ∧ t.boot.blocks = []
            ∧ completes t 5#4 resDevice (segTag g) (BitVec.ofNat 64 cause)))))
    ∧ (∀ c, s.flash.issued[i.val]? = some c →
      (c.isWrite = true → ∃ t, exec (.flashWriteComplete i ok) s = .next t ∧ t = { s with flash := t.flash }
        ∧ t.flash.issued = s.flash.issued.eraseIdx i.val ∧ (ok = false → c.ns ∈ t.flash.failed
          ∧ SMap.get 0#32 t.flash.errors c.ns.1.toNat = SMap.get 0#32 s.flash.errors c.ns.1.toNat + 1)
        ∧ (ok = true → t.flash.errors = s.flash.errors))
      ∧ (∀ d n tag at_ short, c = .flush d n tag at_ short → (∀ w ∈ s.flash.issued.take i.val, w.isWrite = true → w.ns ≠ (d, n)) →
        ∃ t, exec (.flashWriteComplete i ok) s = .next t ∧ machineSame s t ∧ t.flash.issued = s.flash.issued.eraseIdx i.val
          ∧ (d, n) ∉ t.flash.failed ∧ completes t 4#4 (if short = true then resRange
            else if ok = false ∨ (d, n) ∈ s.flash.failed then resDevice else resOk) tag at_))
    ∧ (let c := ctrl.toNat
      (SMap.get 0#32 s.flash.state c).getLsbD 0 = true →
        (∃ t, exec (.f0LinkDown ctrl none) s = .next t ∧ machineSame s t ∧ SMap.get 0#32 t.flash.state c = 0#32
          ∧ (∀ n, t.blockLog c n = 0) ∧ (∀ d ∈ t.flash.issued, d.ns.1 ≠ ctrl)
          ∧ (s.loader.active = none → t.loader.active = none))
        ∧ (s.boot.phase = .ready → s.integ.fatalState = 0#8 → s.tap.landsTaken = false → s.flash.heldDown.getLsbD c = false →
          s.loader.active = none → init.up = true → ∃ t, exec (.f0LinkDown ctrl (some init)) s = .next t ∧ machineSame s t
          ∧ (init.flit = false → t.flash.heldDown.getLsbD c = true ∧ t.flash.perst.getLsbD c = false
            ∧ SMap.get 0#32 t.flash.state c = 0#32)
          ∧ (init.flit = true → (SMap.get 0#32 t.flash.state c).getLsbD 0 = true
            ∧ ((init.spaces.map Prod.fst).Nodup → ∀ x ∈ init.spaces, t.blockLog c x.1 = x.2.toNat)
            ∧ SMap.get 0 t.flash.mdts c = init.mdts.toNat)))
    ∧ ((SMap.get 0#32 s.flash.state req.ctrl.toNat).getLsbD 0 = true →
      let a := req.addr.toNat
      let n := req.len.toNat
      let inLanding := 0x40000000 ≤ a ∧ a + n ≤ 0x44000000
      let inQueues := 0x80000000 ≤ a ∧ a + n ≤ 0x80100000
      let short := 0 < n ∧ n ≤ (if req.write then 256 else 4096) ∧ (req.write = true → req.data.length = n)
      ∃ t, exec (.pcieInboundRequest req) s = .next t ∧ machineSame s t
        ∧ (¬ ((inLanding ∨ inQueues) ∧ short) → t.flash.answers = s.flash.answers ++ [none]
          ∧ t.loader = s.loader)
        ∧ (inLanding → short → req.write = true → t.flash = s.flash ∧ (∀ p, t.loader.landingWindow.read p =
          if a - 0x40000000 ≤ p ∧ p < a - 0x40000000 + n then req.data.getD (p - (a - 0x40000000)) 0#8
          else s.loader.landingWindow.read p) ∧ t.loader.queueWindow = s.loader.queueWindow)
        ∧ (inQueues → short → req.write = false → t.loader = s.loader ∧ t.flash.answers = s.flash.answers
          ++ [some ((List.range n).map fun j => s.loader.queueWindow.read (a - 0x80000000 + j))]))

/-- R458, R512 to R518, R522, R524, R526 to R529, R535: resets begin a cold boot; the boot goes from the release of reset
over the firmware and the tests to the end of bring-up, where the settings written so far come into force and the counts
begin, or stops; keys are installed; a report is captured, then signed;
the close fuses are blown by their own values only, and stay blown. -/
def Obligations.BootAndKeys : Prop :=
  ∀ (good : PowerGood) (ns us : BitVec 32) (failed : BitVec 192) (f0 f1 : F0Init) (stack : Bool) (w : DictWrite)
    (row : ObjRow) (s : State),
    let up := good.supply = true ∧ good.regulated = true ∧ good.rstN = true ∧ good.locked = true;
    ((s.boot.phase = .held ∨ s.boot.phase = .off → up → ∃ t, exec (.powerOnResetRelease good) s = .next t
        ∧ machineSame s t ∧ t.boot.phase = .rom ∧ t.boot.kmode = good.kmode ∧ t.shp.bootNonce ≠ 0#64 ∧ t.boot.t0 = s.wall)
      ∧ (¬ up → exec (.powerOnResetRelease good) s = .next s))
    ∧ (ns.toNat < 10000 → exec (.rstN ns) s = .next s)
    ∧ (10000 ≤ ns.toNat → s.boot.phase ≠ .off → ∃ t, exec (.rstN ns) s = .next t ∧ coldBooted s t ∧ t.tap = s.tap)
    ∧ (writeFits s 0x2100 4 w row → ∃ t, exec (.moduleReset w) s = .next t
      ∧ (w.value = [1#8] → answeredWith s t w stOk ∧ coldBooted s t)
      ∧ (w.value = [0#8] → answeredWith s t w stRange ∧ machineSame s t ∧ t.boot = s.boot))
    ∧ (s.boot.phase = .firmware → s.boot.failed = false → s.boot.derived = false → ∃ t, exec .identityDerive s = .next t
      ∧ t = { s with boot := t.boot } ∧ t.boot.derived = true
      ∧ (s.part.idSeed = false → t.boot.idState = 0#8)
      ∧ (s.part.idSeed = true → t.boot.idPublic = identityPublic
        ∧ t.boot.idState = if identityPublic = certKey then 1#8 else 2#8))
    ∧ (s.boot.phase = .firmware → s.boot.failed = false → s.boot.derived = true → ∃ t, exec (.dictionaryOpen failed) s = .next t
      ∧ machineSame s t ∧ t.dictOpen = true ∧ t.boot.phase = .opened ∧ t.boot.bist = true
      ∧ t.boot.bistHalls = failed &&& ~~~s.part.disabled ∧ t.integ.hallsOff = s.integ.hallsOff ||| t.boot.bistHalls)
    ∧ (s.boot.phase = .opened → s.boot.failed = false → s.integ.fatalState = 0#8 → s.tap.landsTaken = false →
      ∃ t, exec (.bringupEnd us f0 f1) s = .next t ∧ t.milestone = 0 ∧ t.boot.phase = .ready ∧ t.cellar = []
        ∧ t.ld.handles = [] ∧ (∀ tw k, (t.bell tw k).count = 0#48) ∧ (∀ k, k < 24 → (t.stack k).trained = true)
        ∧ t.integ.errorCount = 0#32 ∧ t.integ.eventNext = 1#32 ∧ s.boot.t0 + wallOfUs us.toNat ≤ t.wall
        ∧ t.boot.bringupMs = BitVec.ofNat 32 (us.toNat / 1000)
        ∧ t.clock.powerModeNow = s.modes.powerMode ∧ t.clock.setpointNow = s.clock.setpoint
        ∧ t.clock.opCeilingNow = s.clock.opCeiling ∧ t.clock.windowStart = t.wall
        ∧ t.clock.opRequest.toNat = min s.clock.opRequest.toNat s.clock.opCeiling.toNat
        ∧ (s.jobLoaded = false → s.clock.refLost = false → t.clock.opNow = t.clock.opRequest)
        ∧ t.clock.slips = 0#32 ∧ t.clock.opChanges = 0#32 ∧ t.clock.emergencySteps = 0#32 ∧ t.clock.stretched = 0
        ∧ ∀ p, (t.port p).flitsTx = 0#64 ∧ (t.port p).flitsRx = 0#64 ∧ (t.port p).crcFails = 0#64)
    ∧ (s.boot.phase = (if stack then .opened else .firmware) → s.boot.failed = false → s.integ.fatalState = 0#8 → ∃ t,
      exec (.bringupFailure stack) s = .next t ∧ machineSame s t ∧ t.boot.failed = true ∧ t.integ.fatalState = 1#8
        ∧ t.boot.cause = (if stack then 7#8 else 6#8) ∧ t.dictOpen = true)
    ∧ (writeFits s 0x2110 1 w row → ∃ t, exec (.programKey w) s = .next t ∧ machineSame s t
      ∧ (w.value.head? ≠ some 0x0A#8 → answeredWith s t w stRange ∧ t.boot = s.boot)
      ∧ (w.value.head? = some 0x0A#8 → answeredWith s t w stOk ∧ t.boot.programDigest = digest32 w.value
        ∧ (∀ j, j < w.value.length → t.boot.programKey.read j = w.value.getD j 0#8) ∧ t.boot.weightKey = s.boot.weightKey))
    ∧ (writeFits s 0x2110 2 w row → ∃ t, exec (.weightKey w) s = .next t ∧ machineSame s t
      ∧ (w.value.head? ≠ some 0x0A#8 → answeredWith s t w stRange ∧ t.boot = s.boot)
      ∧ (w.value.head? = some 0x0A#8 → answeredWith s t w stOk ∧ t.boot.weightDigest = digest32 w.value
        ∧ (∀ j, j < w.value.length → t.boot.weightKey.read j = w.value.getD j 0#8) ∧ t.boot.programKey = s.boot.programKey))
    ∧ (writeFits s 0x2130 1 w row → ∃ t, exec (.attestNonce w) s = .next t ∧ machineSame s t
      ∧ (s.boot.idState ≠ 1#8 → answeredWith s t w stDenied ∧ t.boot = s.boot)
      ∧ (s.boot.idState = 1#8 → s.boot.attest ≠ none → answeredWith s t w stBusy ∧ t.boot = s.boot)
      ∧ (s.boot.idState = 1#8 → s.boot.attest = none → answeredWith s t w stPending ∧ ∃ a, t.boot.attest = some a
        ∧ a.path = w.path ∧ a.tag = w.tag ∧ (a.body.drop 8).take 32 = w.value))
    ∧ (∀ a, s.boot.attest = some a → ∃ t, exec .attestReportDone s = .next t ∧ machineSame s t ∧ t.boot.attest = none
      ∧ t.boot.attestCount = s.boot.attestCount + 1 ∧ (∀ j, j < a.body.length → t.boot.report.read j = a.body.getD j 0#8)
      ∧ endedAll s t 0x2130#16 1#8 true)
    ∧ (writeFits s 0x2140 1 w row → ∀ test : Bool,
      let magic := if test then 0x54434C53 else 0x44434C53
      let other := if test then 0x44434C53 else 0x54434C53
      let c := if test then Instr.fuseBlowTestClose w else .fuseBlowDebugClose w
      let blown := (if test then s.part.testClose else s.part.debugClose) = true
      (wnum w ≠ other → ∃ t, exec c s = .next t ∧ machineSame s t ∧ t.part = s.part
        ∧ (wnum w ≠ magic → answeredWith s t w stRange ∧ t.boot = s.boot)
        ∧ (wnum w = magic → s.jobLoaded = true → answeredWith s t w stBusy ∧ t.boot = s.boot)
        ∧ (wnum w = magic → s.jobLoaded = false → answeredWith s t w stPending
          ∧ t.boot.fuses = s.boot.fuses ++ (if blown then [] else [test]))))
    ∧ (∀ test rest, s.boot.fuses = test :: rest → ∃ t, exec .fuseProgrammed s = .next t ∧ machineSame s t
      ∧ t.boot.fuses = rest ∧ t.part.testClose = (s.part.testClose || test)
      ∧ t.part.debugClose = (s.part.debugClose || !test) ∧ t.part.disabled = s.part.disabled)

/-- R537 to R541: an instruction of the test port selects its register and what drives the lands; one that takes them
stops the module's links and its work, one that does not leaves the module alone, and leaving one that does begins a cold
boot. A private opcode is refused until the test-close fuse is blown, and then selects the bypass register. -/
def Obligations.TestPort : Prop :=
  ∀ (scan : BoundaryScan) (op : BitVec 8) (s : State), s.boot.phase ≠ .off →
    (∀ x ∈ ([(.extest scan, 0#8, .boundary, .levels), (.highz, 3#8, .bypass, .highZ), (.clamp, 4#8, .bypass, .clamp),
        (.extestPulse scan, 5#8, .boundary, .pulses), (.extestTrain scan, 6#8, .boundary, .trains)] :
        List (Instr × BitVec 8 × TapReg × LandDrive)),
      ∃ t, exec x.1 s = .next t ∧ t.tap.ir = x.2.1 ∧ t.tap.reg = x.2.2.1 ∧ t.tap.drive = x.2.2.2
        ∧ (x.2.2.1 = .boundary → t.tap.dr = scan.captured ∧ t.tap.latch = scan.shifted)
        ∧ (x.2.2.1 = .bypass → t.tap.dr = 0#355 ∧ t.tap.latch = s.tap.latch)
        ∧ (s.tap.drive = .module → s.boot.phase ≠ .held → landsTakenNow s t)
        ∧ (s.tap.drive ≠ .module ∨ s.boot.phase = .held → t = { s with tap := t.tap }))
    ∧ (∀ x ∈ ([(.idcode, 1#8, .idcode), (.samplePreload scan, 2#8, .boundary), (.bypass, 0xFF#8, .bypass)] :
        List (Instr × BitVec 8 × TapReg)),
      ∃ t, exec x.1 s = .next t ∧ t.tap.ir = x.2.1 ∧ t.tap.reg = x.2.2 ∧ t.tap.drive = .module
        ∧ (x.2.2 = .idcode → t.tap.dr = 0x17240A4D#355) ∧ (x.2.2 = .boundary → t.tap.latch = scan.shifted)
        ∧ (s.tap.drive = .module → t = { s with tap := t.tap }) ∧ (s.tap.drive ≠ .module → coldBooted s t))
    ∧ (s.tap.drive ≠ .module → ∃ t, exec .tapLeaveExtest s = .next t ∧ coldBooted s t ∧ t.tap.reg = .idcode
      ∧ t.tap.drive = .module)
    ∧ (7 ≤ op.toNat → op ≠ 0xFF#8 →
      (128 ≤ op.toNat → s.part.testClose = false → exec (.tapPrivate op) s = .refused .privateTap)
      ∧ (op.toNat < 128 ∨ s.part.testClose = true → ∃ t, exec (.tapPrivate op) s = .next t ∧ t.tap.ir = op
        ∧ t.tap.reg = .bypass ∧ t.tap.dr = 0#355 ∧ t.tap.drive = .module
        ∧ (s.tap.drive = .module → t = { s with tap := t.tap }) ∧ (s.tap.drive ≠ .module → coldBooted s t)))
/-- One step takes the command at the front of the queue and runs it with the queue's rest; on an empty queue the block
idles for one Milestone beat, in which the accesses under way that stand on it act (the model's choice, log row 11). -/
def Obligations.StepTakesFront : Prop :=
  (∀ (c : Instr) (rest : List Instr) (s : State), s.pending = c :: rest → step s = exec c { s with pending := rest })
    ∧ ∀ s : State, s.pending = [] → step s = .next (s.toBeat (s.milestone + 1))
      ∧ (s.toBeat (s.milestone + 1)).pending = [] ∧ s.milestone + 1 ≤ (s.toBeat (s.milestone + 1)).milestone
      ∧ (s.ld.runs = [] → (s.toBeat (s.milestone + 1)).milestone = s.milestone + 1)

/-- After reset nothing is loaded, no core runs, no memory, queue, bell, post or stage holds anything, no port is up and
no error stands; the settings read the defaults of the object tables. -/
def Obligations.ResetState : Prop :=
  let s := State.reset
  s.pending = [] ∧ s.pantry = [] ∧ s.larder = [] ∧ s.cellar = [] ∧ s.memoriesOk
    ∧ (∀ c, (s.mcore c).running = false ∧ (s.mcore c).status = 0#8)
    ∧ (∀ h, (s.vcore h).running = false ∧ (s.vcore h).status = 0#8 ∧ (∀ d, (s.vcore h).sreg d = 0#64))
    ∧ (∀ c, (s.queue c).entries = []) ∧ (∀ tw k, (s.bell tw k).ok = true ∧ (s.bell tw k).count = 0#48)
    ∧ (∀ k, (s.post k).slots = [] ∧ (s.post k).sent.v = 0#32 ∧ (s.post k).taken.v = 0#32) ∧ (∀ g, (s.stage g).entries = [])
    ∧ (∀ tw k, (s.handle tw k).valid = false) ∧ (∀ k, (s.porter k).queue = [] ∧ (s.porter k).active = [])
    ∧ (∀ p, (s.port p).up = false ∧ (s.port p).role = 1#8) ∧ s.kl.up = false ∧ s.job.loadState = 0#8
    ∧ s.integ.fatalState = 0#8 ∧ s.integ.errorCount = 0#32 ∧ s.integ.rewinds = 0#32 ∧ s.integ.halted = false
    ∧ s.modes.powerMode = 0#8 ∧ s.modes.forceGuarded = false ∧ s.clock.setpoint = 3400#16 ∧ s.clock.powerLimit = 4200#16
    ∧ s.clock.opCeiling = 15#8 ∧ s.clock.flow = 393216#32 ∧ s.pb.watchdogBeats = 3600000#32 ∧ s.pb.handActions = 0#32
    ∧ s.ranks.jobSize = 1#32 ∧ s.ranks.myRank = 0#16 ∧ s.shp.timeParent = 0xFF#8 ∧ s.desk.role = 0#8
    ∧ s.desk.lodgerLimit = 8192#16 ∧ s.loader.timeoutMs = 500#16 ∧ s.loader.upPort = 0xFF#8 ∧ s.loader.downPort = 0xFF#8
    ∧ s.loader.peerPort = 0xFF#8 ∧ s.tap.reg = .idcode ∧ s.tap.dr = 0x17240A4D#355 ∧ s.boot.phase = .held

/-- Every step keeps every Pantry, Larder slice and Cellar stack in its canonical form: addresses rise, and no byte is
listed that an unlisted address reads as. -/
def Obligations.MemoriesStayCanonical : Prop := ∀ s t : State, s.memoriesOk → stepsTo s t → t.memoriesOk

/-- R528, R529: no step mends a close fuse that is blown; and no command puts a command into the queue or takes one out:
a step only takes its front. -/
def Obligations.FusesStayBlown : Prop :=
  (∀ s t : State, stepsTo s t → fusesKept s t ∧ t.pending = s.pending.tail)
    ∧ ∀ (c : Instr) (s t : State), exec c s = .next t → t.part.disabled = s.part.disabled ∧ t.part.grade = s.part.grade

/-- Tables 3.3 to 3.7, 4.2 and 4.3: the word of every command and instruction that can be encoded decodes to it, with
every operand; and every word decodes to one that can be encoded, in a word that differs at most in reserved bits, which
are then 0. -/
def Obligations.CoreWordsDecode : Prop :=
  (∀ (i : Instr) (w : W64), i.wf = true → matrixWord i = some w → ∃ c, decodeMatrix c w = i)
    ∧ (∀ (i : Instr) (w : W64), i.wf = true → vectorWord i = some w → ∃ h, decodeVector h w = i)
    ∧ (∀ (c : MCoreId) (w : W64), (decodeMatrix c w).wf = true
      ∧ ∃ w', matrixWord (decodeMatrix c w) = some w' ∧ w' &&& w = w' ∧ decodeMatrix c w' = decodeMatrix c w)
    ∧ ∀ (h : HallId) (w : W64), (decodeVector h w).wf = true
      ∧ ∃ w', vectorWord (decodeVector h w) = some w' ∧ w' &&& w = w' ∧ decodeVector h w' = decodeVector h w

/-- R49, R51 to R53, R60, R61: a set of products adds to an accumulator element, in any order and in any grouping into
records, the exact sum of the products, each truncated at the anchor and clamped, modulo 2^136; SAT and NAN say whether
one was clamped or was NaN. Records with equal anchors add field by field; the one with the smaller anchor is shifted
right first, with floor. -/
def Obligations.SumsInAnyOrder : Prop :=
  ∀ (c d : Acc) (ps qs : List (Option Dy)),
    let sum := (ps.map (clamped c.a)).sum
    (ps.Perm qs → (c.addAll ps).1 = (c.addAll qs).1)
    ∧ (c.addAll (ps ++ qs)).1 = (c.addAll ps).1.add (Acc.addAll ⟨0#136, c.a, false, false⟩ qs).1
    ∧ (c.addAll ps).1.a = c.a ∧ (c.addAll ps).1.x = c.x + BitVec.ofInt 136 sum
    ∧ (c.x = 0#136 → -2 ^ 135 ≤ sum → sum ≤ 2 ^ 135 - 1 → (c.addAll ps).1.x.toInt = sum)
    ∧ ((c.addAll ps).1.nan = true ↔ c.nan = true ∨ none ∈ ps)
    ∧ ((c.addAll ps).1.sat = true ↔ c.sat = true ∨ ∃ p, some p ∈ ps ∧ clamped c.a (some p) ≠ truncated c.a p)
    ∧ (c.a = d.a → c.add d = ⟨c.x + d.x, c.a, c.sat || d.sat, c.nan || d.nan⟩)
    ∧ (c.a.toInt < d.a.toInt → c.add d
      = ⟨BitVec.ofInt 136 ⌊(c.x.toInt : ℚ) / 2 ^ (d.a.toInt - c.a.toInt)⌋ + d.x, d.a, c.sat || d.sat, c.nan || d.nan⟩
      ∧ c.add d = d.add c)

/-- R13: a core command of a disabled hall stops with a fault, since there is no such core; in an enabled hall one that
its core does not issue next changes nothing (log row 7). -/
def Obligations.DisabledHalls : Prop :=
  ∀ (s : State) (c : MCoreId) (h : HallId) (k : Fin 18432),
    (s.hallEnabled (c.val / 2) = false → ∀ i ∈ [Instr.mcNop c, .mcEnd c, .mcWaitResume c, .mcSignalBellChange c,
      .drainQueueResume c, .ftqEntryVisible c], exec i s = .fault .disabledHall)
    ∧ (s.hallEnabled h.val = false → ∀ i ∈ [Instr.vcNop h, .vcEnd h, .vcWaitResume h, .twaitResume h, .precvResume h,
      .paceRelease h, .vcSignalBellChange h, .readerReset h], exec i s = .fault .disabledHall)
    ∧ (s.hallEnabled (k.val / 96) = false → exec (.postArrival k) s = .fault .disabledHall)
    ∧ (s.hallEnabled (c.val / 2) = true → Through s (fun s => s.mcIssues c (.mcNop c) = false) →
      exec (.mcNop c) s = .next s)
    ∧ (s.hallEnabled h.val = true → Through s (fun s => s.vcIssues h (.vcNop h) = false) →
      exec (.vcNop h) s = .next s)
end

