-- ==== Sys2Proof/Laws/Maps.lean ====
section
/-! SUPPORT. What reading a sparse map or a byte memory gives after each operation on it, and that every
operation keeps the canonical form. -/

namespace Sys2Proof.Machine

/-! ### Reading after an operation -/

section Get
variable {V : Type} (d : V)

@[simp] theorem SMap.get_nil (k : Nat) : SMap.get d ([] : SMap V) k = d := rfl

theorem SMap.get_cons (e : Nat × V) (m : SMap V) (k : Nat) :
    SMap.get d (e :: m) k = if k = e.1 then e.2 else SMap.get d m k := rfl

/-- A filter on the keys that keeps `k` does not change what `k` reads as. -/
theorem SMap.get_filter (m : SMap V) (k : Nat) (p : Nat → Bool) :
    SMap.get d (m.filter fun e => p e.1) k = if p k then SMap.get d m k else d := by
  induction m with
  | nil => simp
  | cons e m ih =>
    rw [List.filter_cons]
    by_cases hk : k = e.1
    · subst hk
      by_cases hp : p e.1 <;> simp_all [SMap.get_cons]
    · by_cases hp : p e.1 <;> simp [SMap.get_cons, hk, hp, ih]

theorem SMap.get_erase (m : SMap V) (k k' : Nat) :
    SMap.get d (SMap.erase m k) k' = if k' = k then d else SMap.get d m k' := by
  unfold SMap.erase
  rw [SMap.get_filter d m k' fun j => decide (j ≠ k)]
  by_cases h : k' = k <;> simp [h]

theorem SMap.get_put (m : SMap V) (k k' : Nat) (v : V) :
    SMap.get d (SMap.put m k v) k' = if k' = k then v else SMap.get d m k' := by
  induction m with
  | nil => rfl
  | cons e m ih =>
    obtain ⟨j, w⟩ := e
    simp only [SMap.put]
    split
    · simp [SMap.get_cons]
    · split
      · next h => subst h; by_cases h' : k' = k <;> simp [SMap.get_cons, h']
      · next h1 h2 =>
        simp only [SMap.get_cons, ih]
        by_cases h' : k' = j
        · have : ¬ k' = k := by omega
          simp [h', show ¬ j = k by omega]
        · simp [h']

/-- A key reads as it was last written. -/
theorem SMap.get_set [DecidableEq V] (m : SMap V) (k k' : Nat) (v : V) :
    SMap.get d (SMap.set d m k v) k' = if k' = k then v else SMap.get d m k' := by
  unfold SMap.set
  split
  · next h => rw [SMap.get_erase, h]
  · exact SMap.get_put d m k k' v

@[simp] theorem SMap.get_set_same [DecidableEq V] (m : SMap V) (k : Nat) (v : V) :
    SMap.get d (SMap.set d m k v) k = v := by simp [SMap.get_set]

theorem SMap.get_set_ne [DecidableEq V] (m : SMap V) {k k' : Nat} (v : V) (h : k' ≠ k) :
    SMap.get d (SMap.set d m k v) k' = SMap.get d m k' := by simp [SMap.get_set, h]

theorem SMap.get_modify [DecidableEq V] (m : SMap V) (k k' : Nat) (f : V → V) :
    SMap.get d (SMap.modify d m k f) k' = if k' = k then f (SMap.get d m k) else SMap.get d m k' := by
  unfold SMap.modify; exact SMap.get_set d m k k' _

theorem SMap.get_append (m m' : SMap V) (k : Nat) (h : ∀ e ∈ m, e.1 ≠ k) :
    SMap.get d (m ++ m') k = SMap.get d m' k := by
  induction m with
  | nil => rfl
  | cons e m ih =>
    rw [List.cons_append, SMap.get_cons, ih fun x hx => h x (List.mem_cons_of_mem _ hx)]
    simp [Ne.symm (h e (List.mem_cons_self ..))]

theorem SMap.get_of_not_mem (m : SMap V) (k : Nat) (h : ∀ e ∈ m, e.1 ≠ k) : SMap.get d m k = d := by
  have := SMap.get_append d m [] k h
  simpa using this

/-- Two maps one after the other. -/
theorem SMap.get_append_of_not_mem (m m' : SMap V) (k : Nat) (h : ∀ e ∈ m', e.1 ≠ k) :
    SMap.get d (m ++ m') k = SMap.get d m k := by
  induction m with
  | nil => exact SMap.get_of_not_mem d m' k h
  | cons e m ih => rw [List.cons_append, SMap.get_cons, SMap.get_cons, ih]

end Get

/-! ### Byte memories -/

theorem Memory.read_write (m : Memory) (a a' : Nat) (b : Byte) :
    (m.write a b).read a' = if a' = a then b else m.read a' := SMap.get_set 0#8 m a a' b

/-- Reading a byte after storing bytes from `a` on. -/
theorem Memory.read_writeBytes (bs : List Byte) : ∀ (m : Memory) (a a' : Nat),
    (m.writeBytes a bs).read a' = if a ≤ a' ∧ a' < a + bs.length then bs.getD (a' - a) 0#8 else m.read a' := by
  induction bs with
  | nil => intro m a a'; simp only [Memory.writeBytes, List.length_nil]; rw [if_neg (by omega)]
  | cons b bs ih =>
    intro m a a'
    simp only [Memory.writeBytes, ih, Memory.read_write, List.length_cons]
    by_cases h : a' = a
    · subst h
      rw [if_neg (by omega), if_pos rfl, if_pos (by omega)]; simp
    · by_cases h1 : a + 1 ≤ a' ∧ a' < a + 1 + bs.length
      · rw [if_pos h1, if_pos (by omega)]
        rw [show a' - a = (a' - (a + 1)) + 1 by omega, List.getD_cons_succ]
      · rw [if_neg h1, if_neg h, if_neg (by omega)]

/-- A window reads as the memory it was cut from. -/
theorem Memory.read_window (m : Memory) (a n k : Nat) :
    (m.window a n).read k = if k < n then m.read (a + k) else 0#8 := by
  unfold Memory.read
  induction m with
  | nil => simp [Memory.window]
  | cons e m ih =>
    obtain ⟨j, b⟩ := e
    simp only [Memory.window]
    split
    · next h =>
      simp only [SMap.get_cons, ih]
      by_cases h' : k = j - a
      · rw [if_pos h', if_pos (by omega), if_pos (by omega)]
      · rw [if_neg h']
        by_cases hk : k < n
        · rw [if_pos hk, if_pos hk, if_neg (by omega)]
        · rw [if_neg hk, if_neg hk]
    · next h =>
      simp only [ih, SMap.get_cons]
      by_cases hk : k < n
      · rw [if_pos hk, if_pos hk, if_neg (by omega)]
      · rw [if_neg hk, if_neg hk]

/-- Storing a whole window: its bytes inside, the old bytes outside. -/
theorem Memory.read_place (m : Memory) (a n : Nat) (w : Memory) (k : Nat) :
    (m.place a n w).read k = if a ≤ k ∧ k < a + n then w.read (k - a) else m.read k := by
  unfold Memory.place Memory.read
  have hshift : ∀ (w : Memory), SMap.get 0#8 (w.map fun e => (a + e.1, e.2)) k
      = if a ≤ k then SMap.get 0#8 w (k - a) else 0#8 := by
    intro w
    induction w with
    | nil => simp
    | cons e w ih =>
      rw [List.map_cons, SMap.get_cons, SMap.get_cons, ih]
      by_cases h : k = a + e.1
      · rw [if_pos h, if_pos (by omega), if_pos (by omega)]
      · rw [if_neg h]
        by_cases h' : a ≤ k
        · rw [if_pos h', if_pos h', if_neg (by omega)]
        · rw [if_neg h', if_neg h']
  by_cases h1 : k < a
  · rw [List.append_assoc, SMap.get_append_of_not_mem, SMap.get_filter 0#8 m k fun j => decide (j < a)]
    · rw [if_neg (show ¬ (a ≤ k ∧ k < a + n) by omega)]; simp [h1]
    · intro e he
      simp only [List.mem_append, List.mem_map, List.mem_filter, decide_eq_true_eq] at he
      obtain ⟨x, _, rfl⟩ | ⟨_, h⟩ := he <;> simp <;> omega
  · rw [List.append_assoc, SMap.get_append]
    · by_cases h2 : k < a + n
      · rw [SMap.get_append_of_not_mem, hshift, SMap.get_filter 0#8 w (k - a) fun j => decide (j < n)]
        · rw [if_pos (show a ≤ k by omega), if_pos (show a ≤ k ∧ k < a + n by omega)]; simp; omega
        · intro e he
          simp only [List.mem_filter, decide_eq_true_eq] at he
          omega
      · rw [SMap.get_append, SMap.get_filter 0#8 m k fun j => decide (a + n ≤ j)]
        · rw [if_neg (show ¬ (a ≤ k ∧ k < a + n) by omega)]; simp; omega
        · intro e he
          simp only [List.mem_map, List.mem_filter, decide_eq_true_eq] at he
          obtain ⟨x, hx, rfl⟩ := he
          simp; omega
    · intro e he
      simp only [List.mem_filter, decide_eq_true_eq] at he
      omega

/-! ### The canonical form -/

section Wf
variable {V : Type} [DecidableEq V] (d : V)

omit [DecidableEq V] in
theorem SMap.above_iff (k : Nat) (m : SMap V) : SMap.above k m = true ↔ ∀ e ∈ m, k < e.1 := by
  simp [SMap.above]

/-- The canonical form, as a fact about every entry and every two entries. -/
theorem SMap.wf_iff (m : SMap V) :
    SMap.wf d m = true ↔ (∀ e ∈ m, e.2 ≠ d) ∧ m.Pairwise fun x y => x.1 < y.1 := by
  induction m with
  | nil => simp [SMap.wf]
  | cons e m ih =>
    obtain ⟨k, v⟩ := e
    simp only [SMap.wf, Bool.and_eq_true, decide_eq_true_eq, SMap.above_iff, ih, List.mem_cons,
      forall_eq_or_imp, List.pairwise_cons]
    tauto

theorem SMap.wf_filter (m : SMap V) (p : Nat × V → Bool) (h : SMap.wf d m = true) :
    SMap.wf d (m.filter p) = true := by
  rw [SMap.wf_iff] at *
  exact ⟨fun e he => h.1 e (List.mem_of_mem_filter he), h.2.filter p⟩

theorem SMap.mem_put (m : SMap V) (k : Nat) (v : V) (e : Nat × V) (h : e ∈ SMap.put m k v) :
    e = (k, v) ∨ e ∈ m := by
  induction m with
  | nil => simpa [SMap.put] using h
  | cons x m ih =>
    simp only [SMap.put] at h
    split at h
    · simpa using h
    · split at h
      · simp only [List.mem_cons] at h ⊢; tauto
      · simp only [List.mem_cons] at h ⊢; tauto

theorem SMap.wf_put (m : SMap V) (k : Nat) (v : V) (hv : v ≠ d) (h : SMap.wf d m = true) :
    SMap.wf d (SMap.put m k v) = true := by
  induction m with
  | nil => simp [SMap.put, SMap.wf, SMap.above, hv]
  | cons x m ih =>
    obtain ⟨j, w⟩ := x
    have hw := h
    simp only [SMap.wf, Bool.and_eq_true, decide_eq_true_eq] at h
    simp only [SMap.put]
    split
    · next hlt =>
      simp only [SMap.wf, Bool.and_eq_true, decide_eq_true_eq]
      refine ⟨⟨hv, ?_⟩, h⟩
      rw [SMap.above_iff] at *
      intro e he
      rcases List.mem_cons.mp he with rfl | he
      · exact hlt
      · exact hlt.trans (h.1.2 e he)
    · split
      · next _ heq => subst heq; simp [SMap.wf, hv, h.1.2, h.2]
      · next h1 h2 =>
        simp only [SMap.wf, Bool.and_eq_true, decide_eq_true_eq]
        refine ⟨⟨h.1.1, ?_⟩, ih h.2⟩
        have := h.1.2
        rw [SMap.above_iff] at *
        intro e he
        rcases SMap.mem_put m k v e he with rfl | he
        · simp; omega
        · exact this e he

/-- Writing a key keeps the canonical form. -/
theorem SMap.wf_set (m : SMap V) (k : Nat) (v : V) (h : SMap.wf d m = true) : SMap.wf d (SMap.set d m k v) = true := by
  unfold SMap.set
  split
  · exact SMap.wf_filter d m _ h
  · next hv => exact SMap.wf_put d m k v hv h

theorem SMap.wf_modify (m : SMap V) (k : Nat) (f : V → V) (h : SMap.wf d m = true) :
    SMap.wf d (SMap.modify d m k f) = true := SMap.wf_set d m k _ h

theorem SMap.wf_mapV (m : SMap V) (f : V → V) (h : SMap.wf d m = true) : SMap.wf d (SMap.mapV d m f) = true := by
  rw [SMap.wf_iff] at *
  refine ⟨fun e he => ?_, ?_⟩
  · simpa using (List.mem_filter.mp he).2
  · unfold SMap.mapV
    refine List.Pairwise.filter _ ?_
    rw [List.pairwise_map]
    exact h.2

/-- Two canonical maps, the second above the first. -/
theorem SMap.wf_append (m m' : SMap V) (h : SMap.wf d m = true) (h' : SMap.wf d m' = true)
    (hlt : ∀ e ∈ m, ∀ e' ∈ m', e.1 < e'.1) : SMap.wf d (m ++ m') = true := by
  rw [SMap.wf_iff] at *
  refine ⟨fun e he => ?_, List.pairwise_append.mpr ⟨h.2, h'.2, hlt⟩⟩
  rcases List.mem_append.mp he with he | he
  · exact h.1 e he
  · exact h'.1 e he

/-- In a canonical map, what is listed is what is read. -/
theorem SMap.get_of_mem (m : SMap V) (h : SMap.wf d m = true) (e : Nat × V) (he : e ∈ m) :
    SMap.get d m e.1 = e.2 := by
  induction m with
  | nil => simp at he
  | cons x m ih =>
    obtain ⟨j, w⟩ := x
    simp only [SMap.wf, Bool.and_eq_true, SMap.above_iff] at h
    rcases List.mem_cons.mp he with rfl | he
    · simp [SMap.get_cons]
    · have : ¬ e.1 = j := by have := h.1.2 e he; omega
      simp [SMap.get_cons, this, ih h.2 he]

omit [DecidableEq V] in
/-- A property that holds of the default and of every entry holds of every key. -/
theorem SMap.get_forall (m : SMap V) (p : V → Prop) (hd : p d) (h : ∀ e ∈ m, p e.2) (k : Nat) :
    p (SMap.get d m k) := by
  induction m with
  | nil => exact hd
  | cons x m ih =>
    rw [SMap.get_cons]
    split
    · exact h x (List.mem_cons_self ..)
    · exact ih fun e he => h e (List.mem_cons_of_mem _ he)

/-- Writing a value with a property to a map whose entries have it. -/
theorem SMap.forall_set (m : SMap V) (p : V → Prop) (k : Nat) (v : V) (hv : p v) (h : ∀ e ∈ m, p e.2) :
    ∀ e ∈ SMap.set d m k v, p e.2 := by
  intro e he
  unfold SMap.set at he
  split at he
  · exact h e (List.mem_of_mem_filter he)
  · rcases SMap.mem_put m k v e he with rfl | he
    · exact hv
    · exact h e he

end Wf

theorem Memory.wf_write (m : Memory) (a : Nat) (b : Byte) (h : m.wf = true) : (m.write a b).wf = true :=
  SMap.wf_set 0#8 m a b h

/-- The canonical form of any list of bytes is canonical. -/
theorem Memory.wf_canon (m : Memory) : m.canon.wf = true := by
  induction m with
  | nil => rfl
  | cons e m ih => exact Memory.wf_write _ _ _ ih

/-- It reads as the list does. -/
theorem Memory.read_canon (m : Memory) (a : Nat) : m.canon.read a = m.read a := by
  induction m with
  | nil => rfl
  | cons e m ih =>
    show (Memory.write (Memory.canon m) e.1 e.2).read a = _
    rw [Memory.read_write, ih]; rfl

theorem Memory.wf_writeBytes (bs : List Byte) : ∀ (m : Memory) (a : Nat), m.wf = true → (m.writeBytes a bs).wf = true := by
  induction bs with
  | nil => intro m a h; exact h
  | cons b bs ih => intro m a h; exact ih _ _ (Memory.wf_write m a b h)

theorem Memory.wf_writeLE (m : Memory) (a n v : Nat) (h : m.wf = true) : (m.writeLE a n v).wf = true :=
  Memory.wf_writeBytes _ m a h

theorem Memory.mem_window (m : Memory) (a n : Nat) (e : Host.Cell) (he : e ∈ m.window a n) :
    e.1 < n ∧ (a + e.1, e.2) ∈ m := by
  induction m with
  | nil => simp [Memory.window] at he
  | cons x m ih =>
    obtain ⟨j, b⟩ := x
    simp only [Memory.window] at he
    split at he
    · next h =>
      rcases List.mem_cons.mp he with rfl | he
      · refine ⟨by simp; omega, ?_⟩
        simp only [List.mem_cons, Prod.mk.injEq]
        exact Or.inl ⟨by omega, trivial⟩
      · exact ⟨(ih he).1, List.mem_cons_of_mem _ (ih he).2⟩
    · exact ⟨(ih he).1, List.mem_cons_of_mem _ (ih he).2⟩

/-- A window of a canonical memory is canonical. -/
theorem Memory.wf_window (m : Memory) (a n : Nat) (h : m.wf = true) : (m.window a n).wf = true := by
  unfold Memory.wf at *
  induction m with
  | nil => rfl
  | cons x m ih =>
    obtain ⟨j, b⟩ := x
    simp only [SMap.wf, Bool.and_eq_true, decide_eq_true_eq] at h
    simp only [Memory.window]
    split
    · next hj =>
      simp only [SMap.wf, Bool.and_eq_true, decide_eq_true_eq]
      refine ⟨⟨h.1.1, ?_⟩, ih h.2⟩
      rw [SMap.above_iff]
      intro e he
      have h1 := Memory.mem_window m a n e he
      have := (SMap.above_iff j m).mp h.1.2 _ h1.2
      simp at this; omega
    · exact ih h.2

/-- Storing a canonical window keeps the canonical form. -/
theorem Memory.wf_place (m : Memory) (a n : Nat) (w : Memory) (h : m.wf = true) (hw : w.wf = true) :
    (m.place a n w).wf = true := by
  have hm : SMap.wf 0#8 ((w.filter fun e => decide (e.1 < n)).map fun e => (a + e.1, e.2)) = true := by
    have := SMap.wf_filter 0#8 w (fun e => decide (e.1 < n)) hw
    rw [SMap.wf_iff] at this ⊢
    refine ⟨fun e he => ?_, ?_⟩
    · obtain ⟨x, hx, rfl⟩ := List.mem_map.mp he
      exact this.1 x hx
    · rw [List.pairwise_map]
      exact this.2.imp fun h => by omega
  unfold Memory.place
  refine SMap.wf_append 0#8 _ _ (SMap.wf_append 0#8 _ _ (SMap.wf_filter 0#8 m _ h) hm ?_) (SMap.wf_filter 0#8 m _ h) ?_
  · intro e he e' he'
    obtain ⟨x, hx, rfl⟩ := List.mem_map.mp he'
    simp only [List.mem_filter, decide_eq_true_eq] at he
    simp only; omega
  · intro e he e' he'
    simp only [List.mem_filter, decide_eq_true_eq] at he'
    rcases List.mem_append.mp he with he | he
    · simp only [List.mem_filter, decide_eq_true_eq] at he; omega
    · obtain ⟨x, hx, rfl⟩ := List.mem_map.mp he
      simp only [List.mem_filter, decide_eq_true_eq] at hx
      simp only; omega

end Sys2Proof.Machine
end

