-- ==== Sys2Proof/Laws/State.lean ====
section
/-! SUPPORT. What each update of the state leaves as it was, field by field, and what reading back gives. -/

namespace Sys2Proof.Machine

/-! ### pass -/

section
variable (s : State) (b : Nat)

@[simp] theorem State.pass_pending : (s.pass b).pending = s.pending := rfl
@[simp] theorem State.pass_draws : (s.pass b).draws = s.draws := rfl
@[simp] theorem State.pass_part : (s.pass b).part = s.part := rfl
@[simp] theorem State.pass_modes : (s.pass b).modes = s.modes := rfl
@[simp] theorem State.pass_mc : (s.pass b).mc = s.mc := rfl
@[simp] theorem State.pass_vc : (s.pass b).vc = s.vc := rfl
@[simp] theorem State.pass_ftq : (s.pass b).ftq = s.ftq := rfl
@[simp] theorem State.pass_pantry : (s.pass b).pantry = s.pantry := rfl
@[simp] theorem State.pass_larder : (s.pass b).larder = s.larder := rfl
@[simp] theorem State.pass_cellar : (s.pass b).cellar = s.cellar := rfl
@[simp] theorem State.pass_ld : (s.pass b).ld = s.ld := rfl
@[simp] theorem State.pass_pb : (s.pass b).pb = s.pb := rfl
@[simp] theorem State.pass_job : (s.pass b).job = s.job := rfl
@[simp] theorem State.pass_integ : (s.pass b).integ = s.integ := rfl
@[simp] theorem State.pass_cel : (s.pass b).cel = s.cel := rfl
@[simp] theorem State.pass_por : (s.pass b).por = s.por := rfl
@[simp] theorem State.pass_eo : (s.pass b).eo = s.eo := rfl
@[simp] theorem State.pass_ranks : (s.pass b).ranks = s.ranks := rfl
@[simp] theorem State.pass_shp : (s.pass b).shp = s.shp := rfl
@[simp] theorem State.pass_desk : (s.pass b).desk = s.desk := rfl
@[simp] theorem State.pass_loader : (s.pass b).loader = s.loader := rfl
@[simp] theorem State.pass_dict : (s.pass b).dict = s.dict := rfl
@[simp] theorem State.pass_kl : (s.pass b).kl = s.kl := rfl
@[simp] theorem State.pass_flash : (s.pass b).flash = s.flash := rfl
@[simp] theorem State.pass_i3c : (s.pass b).i3c = s.i3c := rfl
@[simp] theorem State.pass_boot : (s.pass b).boot = s.boot := rfl
@[simp] theorem State.pass_tap : (s.pass b).tap = s.tap := rfl
@[simp] theorem State.pass_snaps : (s.pass b).snaps = s.snaps := rfl

end

/-! ### setMcore -/

section
variable (s : State) (c : Nat) (m : MCore)

@[simp] theorem State.setMcore_pending : (s.setMcore c m).pending = s.pending := rfl
@[simp] theorem State.setMcore_milestone : (s.setMcore c m).milestone = s.milestone := rfl
@[simp] theorem State.setMcore_wall : (s.setMcore c m).wall = s.wall := rfl
@[simp] theorem State.setMcore_draws : (s.setMcore c m).draws = s.draws := rfl
@[simp] theorem State.setMcore_part : (s.setMcore c m).part = s.part := rfl
@[simp] theorem State.setMcore_modes : (s.setMcore c m).modes = s.modes := rfl
@[simp] theorem State.setMcore_vc : (s.setMcore c m).vc = s.vc := rfl
@[simp] theorem State.setMcore_ftq : (s.setMcore c m).ftq = s.ftq := rfl
@[simp] theorem State.setMcore_pantry : (s.setMcore c m).pantry = s.pantry := rfl
@[simp] theorem State.setMcore_larder : (s.setMcore c m).larder = s.larder := rfl
@[simp] theorem State.setMcore_cellar : (s.setMcore c m).cellar = s.cellar := rfl
@[simp] theorem State.setMcore_ld : (s.setMcore c m).ld = s.ld := rfl
@[simp] theorem State.setMcore_pb : (s.setMcore c m).pb = s.pb := rfl
@[simp] theorem State.setMcore_job : (s.setMcore c m).job = s.job := rfl
@[simp] theorem State.setMcore_integ : (s.setMcore c m).integ = s.integ := rfl
@[simp] theorem State.setMcore_clock : (s.setMcore c m).clock = s.clock := rfl
@[simp] theorem State.setMcore_cel : (s.setMcore c m).cel = s.cel := rfl
@[simp] theorem State.setMcore_por : (s.setMcore c m).por = s.por := rfl
@[simp] theorem State.setMcore_eo : (s.setMcore c m).eo = s.eo := rfl
@[simp] theorem State.setMcore_ranks : (s.setMcore c m).ranks = s.ranks := rfl
@[simp] theorem State.setMcore_shp : (s.setMcore c m).shp = s.shp := rfl
@[simp] theorem State.setMcore_desk : (s.setMcore c m).desk = s.desk := rfl
@[simp] theorem State.setMcore_loader : (s.setMcore c m).loader = s.loader := rfl
@[simp] theorem State.setMcore_dict : (s.setMcore c m).dict = s.dict := rfl
@[simp] theorem State.setMcore_kl : (s.setMcore c m).kl = s.kl := rfl
@[simp] theorem State.setMcore_flash : (s.setMcore c m).flash = s.flash := rfl
@[simp] theorem State.setMcore_i3c : (s.setMcore c m).i3c = s.i3c := rfl
@[simp] theorem State.setMcore_boot : (s.setMcore c m).boot = s.boot := rfl
@[simp] theorem State.setMcore_tap : (s.setMcore c m).tap = s.tap := rfl
@[simp] theorem State.setMcore_snaps : (s.setMcore c m).snaps = s.snaps := rfl

end

/-! ### setVcore -/

section
variable (s : State) (h : Nat) (v : VCore)

@[simp] theorem State.setVcore_pending : (s.setVcore h v).pending = s.pending := rfl
@[simp] theorem State.setVcore_milestone : (s.setVcore h v).milestone = s.milestone := rfl
@[simp] theorem State.setVcore_wall : (s.setVcore h v).wall = s.wall := rfl
@[simp] theorem State.setVcore_draws : (s.setVcore h v).draws = s.draws := rfl
@[simp] theorem State.setVcore_part : (s.setVcore h v).part = s.part := rfl
@[simp] theorem State.setVcore_modes : (s.setVcore h v).modes = s.modes := rfl
@[simp] theorem State.setVcore_mc : (s.setVcore h v).mc = s.mc := rfl
@[simp] theorem State.setVcore_ftq : (s.setVcore h v).ftq = s.ftq := rfl
@[simp] theorem State.setVcore_pantry : (s.setVcore h v).pantry = s.pantry := rfl
@[simp] theorem State.setVcore_larder : (s.setVcore h v).larder = s.larder := rfl
@[simp] theorem State.setVcore_cellar : (s.setVcore h v).cellar = s.cellar := rfl
@[simp] theorem State.setVcore_ld : (s.setVcore h v).ld = s.ld := rfl
@[simp] theorem State.setVcore_pb : (s.setVcore h v).pb = s.pb := rfl
@[simp] theorem State.setVcore_job : (s.setVcore h v).job = s.job := rfl
@[simp] theorem State.setVcore_integ : (s.setVcore h v).integ = s.integ := rfl
@[simp] theorem State.setVcore_clock : (s.setVcore h v).clock = s.clock := rfl
@[simp] theorem State.setVcore_cel : (s.setVcore h v).cel = s.cel := rfl
@[simp] theorem State.setVcore_por : (s.setVcore h v).por = s.por := rfl
@[simp] theorem State.setVcore_eo : (s.setVcore h v).eo = s.eo := rfl
@[simp] theorem State.setVcore_ranks : (s.setVcore h v).ranks = s.ranks := rfl
@[simp] theorem State.setVcore_shp : (s.setVcore h v).shp = s.shp := rfl
@[simp] theorem State.setVcore_desk : (s.setVcore h v).desk = s.desk := rfl
@[simp] theorem State.setVcore_loader : (s.setVcore h v).loader = s.loader := rfl
@[simp] theorem State.setVcore_dict : (s.setVcore h v).dict = s.dict := rfl
@[simp] theorem State.setVcore_kl : (s.setVcore h v).kl = s.kl := rfl
@[simp] theorem State.setVcore_flash : (s.setVcore h v).flash = s.flash := rfl
@[simp] theorem State.setVcore_i3c : (s.setVcore h v).i3c = s.i3c := rfl
@[simp] theorem State.setVcore_boot : (s.setVcore h v).boot = s.boot := rfl
@[simp] theorem State.setVcore_tap : (s.setVcore h v).tap = s.tap := rfl
@[simp] theorem State.setVcore_snaps : (s.setVcore h v).snaps = s.snaps := rfl

end

/-! ### setQueue -/

section
variable (s : State) (c : Nat) (q : Ftq)

@[simp] theorem State.setQueue_pending : (s.setQueue c q).pending = s.pending := rfl
@[simp] theorem State.setQueue_milestone : (s.setQueue c q).milestone = s.milestone := rfl
@[simp] theorem State.setQueue_wall : (s.setQueue c q).wall = s.wall := rfl
@[simp] theorem State.setQueue_draws : (s.setQueue c q).draws = s.draws := rfl
@[simp] theorem State.setQueue_part : (s.setQueue c q).part = s.part := rfl
@[simp] theorem State.setQueue_modes : (s.setQueue c q).modes = s.modes := rfl
@[simp] theorem State.setQueue_mc : (s.setQueue c q).mc = s.mc := rfl
@[simp] theorem State.setQueue_vc : (s.setQueue c q).vc = s.vc := rfl
@[simp] theorem State.setQueue_pantry : (s.setQueue c q).pantry = s.pantry := rfl
@[simp] theorem State.setQueue_larder : (s.setQueue c q).larder = s.larder := rfl
@[simp] theorem State.setQueue_cellar : (s.setQueue c q).cellar = s.cellar := rfl
@[simp] theorem State.setQueue_ld : (s.setQueue c q).ld = s.ld := rfl
@[simp] theorem State.setQueue_pb : (s.setQueue c q).pb = s.pb := rfl
@[simp] theorem State.setQueue_job : (s.setQueue c q).job = s.job := rfl
@[simp] theorem State.setQueue_integ : (s.setQueue c q).integ = s.integ := rfl
@[simp] theorem State.setQueue_clock : (s.setQueue c q).clock = s.clock := rfl
@[simp] theorem State.setQueue_cel : (s.setQueue c q).cel = s.cel := rfl
@[simp] theorem State.setQueue_por : (s.setQueue c q).por = s.por := rfl
@[simp] theorem State.setQueue_eo : (s.setQueue c q).eo = s.eo := rfl
@[simp] theorem State.setQueue_ranks : (s.setQueue c q).ranks = s.ranks := rfl
@[simp] theorem State.setQueue_shp : (s.setQueue c q).shp = s.shp := rfl
@[simp] theorem State.setQueue_desk : (s.setQueue c q).desk = s.desk := rfl
@[simp] theorem State.setQueue_loader : (s.setQueue c q).loader = s.loader := rfl
@[simp] theorem State.setQueue_dict : (s.setQueue c q).dict = s.dict := rfl
@[simp] theorem State.setQueue_kl : (s.setQueue c q).kl = s.kl := rfl
@[simp] theorem State.setQueue_flash : (s.setQueue c q).flash = s.flash := rfl
@[simp] theorem State.setQueue_i3c : (s.setQueue c q).i3c = s.i3c := rfl
@[simp] theorem State.setQueue_boot : (s.setQueue c q).boot = s.boot := rfl
@[simp] theorem State.setQueue_tap : (s.setQueue c q).tap = s.tap := rfl
@[simp] theorem State.setQueue_snaps : (s.setQueue c q).snaps = s.snaps := rfl

end

/-! ### setPantry -/

section
variable (s : State) (k : Nat) (m : Memory)

@[simp] theorem State.setPantry_pending : (s.setPantry k m).pending = s.pending := rfl
@[simp] theorem State.setPantry_milestone : (s.setPantry k m).milestone = s.milestone := rfl
@[simp] theorem State.setPantry_wall : (s.setPantry k m).wall = s.wall := rfl
@[simp] theorem State.setPantry_draws : (s.setPantry k m).draws = s.draws := rfl
@[simp] theorem State.setPantry_part : (s.setPantry k m).part = s.part := rfl
@[simp] theorem State.setPantry_modes : (s.setPantry k m).modes = s.modes := rfl
@[simp] theorem State.setPantry_mc : (s.setPantry k m).mc = s.mc := rfl
@[simp] theorem State.setPantry_vc : (s.setPantry k m).vc = s.vc := rfl
@[simp] theorem State.setPantry_ftq : (s.setPantry k m).ftq = s.ftq := rfl
@[simp] theorem State.setPantry_larder : (s.setPantry k m).larder = s.larder := rfl
@[simp] theorem State.setPantry_cellar : (s.setPantry k m).cellar = s.cellar := rfl
@[simp] theorem State.setPantry_ld : (s.setPantry k m).ld = s.ld := rfl
@[simp] theorem State.setPantry_pb : (s.setPantry k m).pb = s.pb := rfl
@[simp] theorem State.setPantry_job : (s.setPantry k m).job = s.job := rfl
@[simp] theorem State.setPantry_integ : (s.setPantry k m).integ = s.integ := rfl
@[simp] theorem State.setPantry_clock : (s.setPantry k m).clock = s.clock := rfl
@[simp] theorem State.setPantry_cel : (s.setPantry k m).cel = s.cel := rfl
@[simp] theorem State.setPantry_por : (s.setPantry k m).por = s.por := rfl
@[simp] theorem State.setPantry_eo : (s.setPantry k m).eo = s.eo := rfl
@[simp] theorem State.setPantry_ranks : (s.setPantry k m).ranks = s.ranks := rfl
@[simp] theorem State.setPantry_shp : (s.setPantry k m).shp = s.shp := rfl
@[simp] theorem State.setPantry_desk : (s.setPantry k m).desk = s.desk := rfl
@[simp] theorem State.setPantry_loader : (s.setPantry k m).loader = s.loader := rfl
@[simp] theorem State.setPantry_dict : (s.setPantry k m).dict = s.dict := rfl
@[simp] theorem State.setPantry_kl : (s.setPantry k m).kl = s.kl := rfl
@[simp] theorem State.setPantry_flash : (s.setPantry k m).flash = s.flash := rfl
@[simp] theorem State.setPantry_i3c : (s.setPantry k m).i3c = s.i3c := rfl
@[simp] theorem State.setPantry_boot : (s.setPantry k m).boot = s.boot := rfl
@[simp] theorem State.setPantry_tap : (s.setPantry k m).tap = s.tap := rfl
@[simp] theorem State.setPantry_snaps : (s.setPantry k m).snaps = s.snaps := rfl

end

/-! ### setSlice -/

section
variable (s : State) (k : Nat) (m : Memory)

@[simp] theorem State.setSlice_pending : (s.setSlice k m).pending = s.pending := rfl
@[simp] theorem State.setSlice_milestone : (s.setSlice k m).milestone = s.milestone := rfl
@[simp] theorem State.setSlice_wall : (s.setSlice k m).wall = s.wall := rfl
@[simp] theorem State.setSlice_draws : (s.setSlice k m).draws = s.draws := rfl
@[simp] theorem State.setSlice_part : (s.setSlice k m).part = s.part := rfl
@[simp] theorem State.setSlice_modes : (s.setSlice k m).modes = s.modes := rfl
@[simp] theorem State.setSlice_mc : (s.setSlice k m).mc = s.mc := rfl
@[simp] theorem State.setSlice_vc : (s.setSlice k m).vc = s.vc := rfl
@[simp] theorem State.setSlice_ftq : (s.setSlice k m).ftq = s.ftq := rfl
@[simp] theorem State.setSlice_pantry : (s.setSlice k m).pantry = s.pantry := rfl
@[simp] theorem State.setSlice_cellar : (s.setSlice k m).cellar = s.cellar := rfl
@[simp] theorem State.setSlice_ld : (s.setSlice k m).ld = s.ld := rfl
@[simp] theorem State.setSlice_pb : (s.setSlice k m).pb = s.pb := rfl
@[simp] theorem State.setSlice_job : (s.setSlice k m).job = s.job := rfl
@[simp] theorem State.setSlice_integ : (s.setSlice k m).integ = s.integ := rfl
@[simp] theorem State.setSlice_clock : (s.setSlice k m).clock = s.clock := rfl
@[simp] theorem State.setSlice_cel : (s.setSlice k m).cel = s.cel := rfl
@[simp] theorem State.setSlice_por : (s.setSlice k m).por = s.por := rfl
@[simp] theorem State.setSlice_eo : (s.setSlice k m).eo = s.eo := rfl
@[simp] theorem State.setSlice_ranks : (s.setSlice k m).ranks = s.ranks := rfl
@[simp] theorem State.setSlice_shp : (s.setSlice k m).shp = s.shp := rfl
@[simp] theorem State.setSlice_desk : (s.setSlice k m).desk = s.desk := rfl
@[simp] theorem State.setSlice_loader : (s.setSlice k m).loader = s.loader := rfl
@[simp] theorem State.setSlice_dict : (s.setSlice k m).dict = s.dict := rfl
@[simp] theorem State.setSlice_kl : (s.setSlice k m).kl = s.kl := rfl
@[simp] theorem State.setSlice_flash : (s.setSlice k m).flash = s.flash := rfl
@[simp] theorem State.setSlice_i3c : (s.setSlice k m).i3c = s.i3c := rfl
@[simp] theorem State.setSlice_boot : (s.setSlice k m).boot = s.boot := rfl
@[simp] theorem State.setSlice_tap : (s.setSlice k m).tap = s.tap := rfl
@[simp] theorem State.setSlice_snaps : (s.setSlice k m).snaps = s.snaps := rfl

end

/-! ### setStack -/

section
variable (s : State) (k : Nat) (m : Memory)

@[simp] theorem State.setStack_pending : (s.setStack k m).pending = s.pending := rfl
@[simp] theorem State.setStack_milestone : (s.setStack k m).milestone = s.milestone := rfl
@[simp] theorem State.setStack_wall : (s.setStack k m).wall = s.wall := rfl
@[simp] theorem State.setStack_draws : (s.setStack k m).draws = s.draws := rfl
@[simp] theorem State.setStack_part : (s.setStack k m).part = s.part := rfl
@[simp] theorem State.setStack_modes : (s.setStack k m).modes = s.modes := rfl
@[simp] theorem State.setStack_mc : (s.setStack k m).mc = s.mc := rfl
@[simp] theorem State.setStack_vc : (s.setStack k m).vc = s.vc := rfl
@[simp] theorem State.setStack_ftq : (s.setStack k m).ftq = s.ftq := rfl
@[simp] theorem State.setStack_pantry : (s.setStack k m).pantry = s.pantry := rfl
@[simp] theorem State.setStack_larder : (s.setStack k m).larder = s.larder := rfl
@[simp] theorem State.setStack_ld : (s.setStack k m).ld = s.ld := rfl
@[simp] theorem State.setStack_pb : (s.setStack k m).pb = s.pb := rfl
@[simp] theorem State.setStack_job : (s.setStack k m).job = s.job := rfl
@[simp] theorem State.setStack_integ : (s.setStack k m).integ = s.integ := rfl
@[simp] theorem State.setStack_clock : (s.setStack k m).clock = s.clock := rfl
@[simp] theorem State.setStack_cel : (s.setStack k m).cel = s.cel := rfl
@[simp] theorem State.setStack_por : (s.setStack k m).por = s.por := rfl
@[simp] theorem State.setStack_eo : (s.setStack k m).eo = s.eo := rfl
@[simp] theorem State.setStack_ranks : (s.setStack k m).ranks = s.ranks := rfl
@[simp] theorem State.setStack_shp : (s.setStack k m).shp = s.shp := rfl
@[simp] theorem State.setStack_desk : (s.setStack k m).desk = s.desk := rfl
@[simp] theorem State.setStack_loader : (s.setStack k m).loader = s.loader := rfl
@[simp] theorem State.setStack_dict : (s.setStack k m).dict = s.dict := rfl
@[simp] theorem State.setStack_kl : (s.setStack k m).kl = s.kl := rfl
@[simp] theorem State.setStack_flash : (s.setStack k m).flash = s.flash := rfl
@[simp] theorem State.setStack_i3c : (s.setStack k m).i3c = s.i3c := rfl
@[simp] theorem State.setStack_boot : (s.setStack k m).boot = s.boot := rfl
@[simp] theorem State.setStack_tap : (s.setStack k m).tap = s.tap := rfl
@[simp] theorem State.setStack_snaps : (s.setStack k m).snaps = s.snaps := rfl

end

/-! ### setPorter -/

section
variable (s : State) (k : Nat) (p : Porter)

@[simp] theorem State.setPorter_pending : (s.setPorter k p).pending = s.pending := rfl
@[simp] theorem State.setPorter_milestone : (s.setPorter k p).milestone = s.milestone := rfl
@[simp] theorem State.setPorter_wall : (s.setPorter k p).wall = s.wall := rfl
@[simp] theorem State.setPorter_draws : (s.setPorter k p).draws = s.draws := rfl
@[simp] theorem State.setPorter_part : (s.setPorter k p).part = s.part := rfl
@[simp] theorem State.setPorter_modes : (s.setPorter k p).modes = s.modes := rfl
@[simp] theorem State.setPorter_mc : (s.setPorter k p).mc = s.mc := rfl
@[simp] theorem State.setPorter_vc : (s.setPorter k p).vc = s.vc := rfl
@[simp] theorem State.setPorter_ftq : (s.setPorter k p).ftq = s.ftq := rfl
@[simp] theorem State.setPorter_pantry : (s.setPorter k p).pantry = s.pantry := rfl
@[simp] theorem State.setPorter_larder : (s.setPorter k p).larder = s.larder := rfl
@[simp] theorem State.setPorter_cellar : (s.setPorter k p).cellar = s.cellar := rfl
@[simp] theorem State.setPorter_ld : (s.setPorter k p).ld = s.ld := rfl
@[simp] theorem State.setPorter_pb : (s.setPorter k p).pb = s.pb := rfl
@[simp] theorem State.setPorter_job : (s.setPorter k p).job = s.job := rfl
@[simp] theorem State.setPorter_integ : (s.setPorter k p).integ = s.integ := rfl
@[simp] theorem State.setPorter_clock : (s.setPorter k p).clock = s.clock := rfl
@[simp] theorem State.setPorter_cel : (s.setPorter k p).cel = s.cel := rfl
@[simp] theorem State.setPorter_eo : (s.setPorter k p).eo = s.eo := rfl
@[simp] theorem State.setPorter_ranks : (s.setPorter k p).ranks = s.ranks := rfl
@[simp] theorem State.setPorter_shp : (s.setPorter k p).shp = s.shp := rfl
@[simp] theorem State.setPorter_desk : (s.setPorter k p).desk = s.desk := rfl
@[simp] theorem State.setPorter_loader : (s.setPorter k p).loader = s.loader := rfl
@[simp] theorem State.setPorter_dict : (s.setPorter k p).dict = s.dict := rfl
@[simp] theorem State.setPorter_kl : (s.setPorter k p).kl = s.kl := rfl
@[simp] theorem State.setPorter_flash : (s.setPorter k p).flash = s.flash := rfl
@[simp] theorem State.setPorter_i3c : (s.setPorter k p).i3c = s.i3c := rfl
@[simp] theorem State.setPorter_boot : (s.setPorter k p).boot = s.boot := rfl
@[simp] theorem State.setPorter_tap : (s.setPorter k p).tap = s.tap := rfl
@[simp] theorem State.setPorter_snaps : (s.setPorter k p).snaps = s.snaps := rfl

end

/-! ### setPort -/

section
variable (s : State) (k : Nat) (p : Port)

@[simp] theorem State.setPort_pending : (s.setPort k p).pending = s.pending := rfl
@[simp] theorem State.setPort_milestone : (s.setPort k p).milestone = s.milestone := rfl
@[simp] theorem State.setPort_wall : (s.setPort k p).wall = s.wall := rfl
@[simp] theorem State.setPort_draws : (s.setPort k p).draws = s.draws := rfl
@[simp] theorem State.setPort_part : (s.setPort k p).part = s.part := rfl
@[simp] theorem State.setPort_modes : (s.setPort k p).modes = s.modes := rfl
@[simp] theorem State.setPort_mc : (s.setPort k p).mc = s.mc := rfl
@[simp] theorem State.setPort_vc : (s.setPort k p).vc = s.vc := rfl
@[simp] theorem State.setPort_ftq : (s.setPort k p).ftq = s.ftq := rfl
@[simp] theorem State.setPort_pantry : (s.setPort k p).pantry = s.pantry := rfl
@[simp] theorem State.setPort_larder : (s.setPort k p).larder = s.larder := rfl
@[simp] theorem State.setPort_cellar : (s.setPort k p).cellar = s.cellar := rfl
@[simp] theorem State.setPort_ld : (s.setPort k p).ld = s.ld := rfl
@[simp] theorem State.setPort_pb : (s.setPort k p).pb = s.pb := rfl
@[simp] theorem State.setPort_job : (s.setPort k p).job = s.job := rfl
@[simp] theorem State.setPort_integ : (s.setPort k p).integ = s.integ := rfl
@[simp] theorem State.setPort_clock : (s.setPort k p).clock = s.clock := rfl
@[simp] theorem State.setPort_cel : (s.setPort k p).cel = s.cel := rfl
@[simp] theorem State.setPort_por : (s.setPort k p).por = s.por := rfl
@[simp] theorem State.setPort_ranks : (s.setPort k p).ranks = s.ranks := rfl
@[simp] theorem State.setPort_shp : (s.setPort k p).shp = s.shp := rfl
@[simp] theorem State.setPort_desk : (s.setPort k p).desk = s.desk := rfl
@[simp] theorem State.setPort_loader : (s.setPort k p).loader = s.loader := rfl
@[simp] theorem State.setPort_dict : (s.setPort k p).dict = s.dict := rfl
@[simp] theorem State.setPort_kl : (s.setPort k p).kl = s.kl := rfl
@[simp] theorem State.setPort_flash : (s.setPort k p).flash = s.flash := rfl
@[simp] theorem State.setPort_i3c : (s.setPort k p).i3c = s.i3c := rfl
@[simp] theorem State.setPort_boot : (s.setPort k p).boot = s.boot := rfl
@[simp] theorem State.setPort_tap : (s.setPort k p).tap = s.tap := rfl
@[simp] theorem State.setPort_snaps : (s.setPort k p).snaps = s.snaps := rfl

end

/-! ### setPost -/

section
variable (s : State) (k : Nat) (p : Post)

@[simp] theorem State.setPost_pending : (s.setPost k p).pending = s.pending := rfl
@[simp] theorem State.setPost_milestone : (s.setPost k p).milestone = s.milestone := rfl
@[simp] theorem State.setPost_wall : (s.setPost k p).wall = s.wall := rfl
@[simp] theorem State.setPost_draws : (s.setPost k p).draws = s.draws := rfl
@[simp] theorem State.setPost_part : (s.setPost k p).part = s.part := rfl
@[simp] theorem State.setPost_modes : (s.setPost k p).modes = s.modes := rfl
@[simp] theorem State.setPost_mc : (s.setPost k p).mc = s.mc := rfl
@[simp] theorem State.setPost_vc : (s.setPost k p).vc = s.vc := rfl
@[simp] theorem State.setPost_ftq : (s.setPost k p).ftq = s.ftq := rfl
@[simp] theorem State.setPost_pantry : (s.setPost k p).pantry = s.pantry := rfl
@[simp] theorem State.setPost_larder : (s.setPost k p).larder = s.larder := rfl
@[simp] theorem State.setPost_cellar : (s.setPost k p).cellar = s.cellar := rfl
@[simp] theorem State.setPost_ld : (s.setPost k p).ld = s.ld := rfl
@[simp] theorem State.setPost_job : (s.setPost k p).job = s.job := rfl
@[simp] theorem State.setPost_integ : (s.setPost k p).integ = s.integ := rfl
@[simp] theorem State.setPost_clock : (s.setPost k p).clock = s.clock := rfl
@[simp] theorem State.setPost_cel : (s.setPost k p).cel = s.cel := rfl
@[simp] theorem State.setPost_por : (s.setPost k p).por = s.por := rfl
@[simp] theorem State.setPost_eo : (s.setPost k p).eo = s.eo := rfl
@[simp] theorem State.setPost_ranks : (s.setPost k p).ranks = s.ranks := rfl
@[simp] theorem State.setPost_shp : (s.setPost k p).shp = s.shp := rfl
@[simp] theorem State.setPost_desk : (s.setPost k p).desk = s.desk := rfl
@[simp] theorem State.setPost_loader : (s.setPost k p).loader = s.loader := rfl
@[simp] theorem State.setPost_dict : (s.setPost k p).dict = s.dict := rfl
@[simp] theorem State.setPost_kl : (s.setPost k p).kl = s.kl := rfl
@[simp] theorem State.setPost_flash : (s.setPost k p).flash = s.flash := rfl
@[simp] theorem State.setPost_i3c : (s.setPost k p).i3c = s.i3c := rfl
@[simp] theorem State.setPost_boot : (s.setPost k p).boot = s.boot := rfl
@[simp] theorem State.setPost_tap : (s.setPost k p).tap = s.tap := rfl
@[simp] theorem State.setPost_snaps : (s.setPost k p).snaps = s.snaps := rfl

end

/-! ### setStage -/

section
variable (s : State) (k : Nat) (g : Stage)

@[simp] theorem State.setStage_pending : (s.setStage k g).pending = s.pending := rfl
@[simp] theorem State.setStage_milestone : (s.setStage k g).milestone = s.milestone := rfl
@[simp] theorem State.setStage_wall : (s.setStage k g).wall = s.wall := rfl
@[simp] theorem State.setStage_draws : (s.setStage k g).draws = s.draws := rfl
@[simp] theorem State.setStage_part : (s.setStage k g).part = s.part := rfl
@[simp] theorem State.setStage_modes : (s.setStage k g).modes = s.modes := rfl
@[simp] theorem State.setStage_mc : (s.setStage k g).mc = s.mc := rfl
@[simp] theorem State.setStage_vc : (s.setStage k g).vc = s.vc := rfl
@[simp] theorem State.setStage_ftq : (s.setStage k g).ftq = s.ftq := rfl
@[simp] theorem State.setStage_pantry : (s.setStage k g).pantry = s.pantry := rfl
@[simp] theorem State.setStage_larder : (s.setStage k g).larder = s.larder := rfl
@[simp] theorem State.setStage_cellar : (s.setStage k g).cellar = s.cellar := rfl
@[simp] theorem State.setStage_ld : (s.setStage k g).ld = s.ld := rfl
@[simp] theorem State.setStage_job : (s.setStage k g).job = s.job := rfl
@[simp] theorem State.setStage_integ : (s.setStage k g).integ = s.integ := rfl
@[simp] theorem State.setStage_clock : (s.setStage k g).clock = s.clock := rfl
@[simp] theorem State.setStage_cel : (s.setStage k g).cel = s.cel := rfl
@[simp] theorem State.setStage_por : (s.setStage k g).por = s.por := rfl
@[simp] theorem State.setStage_eo : (s.setStage k g).eo = s.eo := rfl
@[simp] theorem State.setStage_ranks : (s.setStage k g).ranks = s.ranks := rfl
@[simp] theorem State.setStage_shp : (s.setStage k g).shp = s.shp := rfl
@[simp] theorem State.setStage_desk : (s.setStage k g).desk = s.desk := rfl
@[simp] theorem State.setStage_loader : (s.setStage k g).loader = s.loader := rfl
@[simp] theorem State.setStage_dict : (s.setStage k g).dict = s.dict := rfl
@[simp] theorem State.setStage_kl : (s.setStage k g).kl = s.kl := rfl
@[simp] theorem State.setStage_flash : (s.setStage k g).flash = s.flash := rfl
@[simp] theorem State.setStage_i3c : (s.setStage k g).i3c = s.i3c := rfl
@[simp] theorem State.setStage_boot : (s.setStage k g).boot = s.boot := rfl
@[simp] theorem State.setStage_tap : (s.setStage k g).tap = s.tap := rfl
@[simp] theorem State.setStage_snaps : (s.setStage k g).snaps = s.snaps := rfl

end

/-! ### setCtl -/

section
variable (s : State) (k : Nat) (x : Stack)

@[simp] theorem State.setCtl_pending : (s.setCtl k x).pending = s.pending := rfl
@[simp] theorem State.setCtl_milestone : (s.setCtl k x).milestone = s.milestone := rfl
@[simp] theorem State.setCtl_wall : (s.setCtl k x).wall = s.wall := rfl
@[simp] theorem State.setCtl_draws : (s.setCtl k x).draws = s.draws := rfl
@[simp] theorem State.setCtl_part : (s.setCtl k x).part = s.part := rfl
@[simp] theorem State.setCtl_modes : (s.setCtl k x).modes = s.modes := rfl
@[simp] theorem State.setCtl_mc : (s.setCtl k x).mc = s.mc := rfl
@[simp] theorem State.setCtl_vc : (s.setCtl k x).vc = s.vc := rfl
@[simp] theorem State.setCtl_ftq : (s.setCtl k x).ftq = s.ftq := rfl
@[simp] theorem State.setCtl_pantry : (s.setCtl k x).pantry = s.pantry := rfl
@[simp] theorem State.setCtl_larder : (s.setCtl k x).larder = s.larder := rfl
@[simp] theorem State.setCtl_cellar : (s.setCtl k x).cellar = s.cellar := rfl
@[simp] theorem State.setCtl_ld : (s.setCtl k x).ld = s.ld := rfl
@[simp] theorem State.setCtl_pb : (s.setCtl k x).pb = s.pb := rfl
@[simp] theorem State.setCtl_job : (s.setCtl k x).job = s.job := rfl
@[simp] theorem State.setCtl_integ : (s.setCtl k x).integ = s.integ := rfl
@[simp] theorem State.setCtl_clock : (s.setCtl k x).clock = s.clock := rfl
@[simp] theorem State.setCtl_por : (s.setCtl k x).por = s.por := rfl
@[simp] theorem State.setCtl_eo : (s.setCtl k x).eo = s.eo := rfl
@[simp] theorem State.setCtl_ranks : (s.setCtl k x).ranks = s.ranks := rfl
@[simp] theorem State.setCtl_shp : (s.setCtl k x).shp = s.shp := rfl
@[simp] theorem State.setCtl_desk : (s.setCtl k x).desk = s.desk := rfl
@[simp] theorem State.setCtl_loader : (s.setCtl k x).loader = s.loader := rfl
@[simp] theorem State.setCtl_dict : (s.setCtl k x).dict = s.dict := rfl
@[simp] theorem State.setCtl_kl : (s.setCtl k x).kl = s.kl := rfl
@[simp] theorem State.setCtl_flash : (s.setCtl k x).flash = s.flash := rfl
@[simp] theorem State.setCtl_i3c : (s.setCtl k x).i3c = s.i3c := rfl
@[simp] theorem State.setCtl_boot : (s.setCtl k x).boot = s.boot := rfl
@[simp] theorem State.setCtl_tap : (s.setCtl k x).tap = s.tap := rfl
@[simp] theorem State.setCtl_snaps : (s.setCtl k x).snaps = s.snaps := rfl

end

/-! ### setChan -/

section
variable (s : State) (k : Nat) (x : KChan)

@[simp] theorem State.setChan_pending : (s.setChan k x).pending = s.pending := rfl
@[simp] theorem State.setChan_milestone : (s.setChan k x).milestone = s.milestone := rfl
@[simp] theorem State.setChan_wall : (s.setChan k x).wall = s.wall := rfl
@[simp] theorem State.setChan_draws : (s.setChan k x).draws = s.draws := rfl
@[simp] theorem State.setChan_part : (s.setChan k x).part = s.part := rfl
@[simp] theorem State.setChan_modes : (s.setChan k x).modes = s.modes := rfl
@[simp] theorem State.setChan_mc : (s.setChan k x).mc = s.mc := rfl
@[simp] theorem State.setChan_vc : (s.setChan k x).vc = s.vc := rfl
@[simp] theorem State.setChan_ftq : (s.setChan k x).ftq = s.ftq := rfl
@[simp] theorem State.setChan_pantry : (s.setChan k x).pantry = s.pantry := rfl
@[simp] theorem State.setChan_larder : (s.setChan k x).larder = s.larder := rfl
@[simp] theorem State.setChan_cellar : (s.setChan k x).cellar = s.cellar := rfl
@[simp] theorem State.setChan_ld : (s.setChan k x).ld = s.ld := rfl
@[simp] theorem State.setChan_pb : (s.setChan k x).pb = s.pb := rfl
@[simp] theorem State.setChan_job : (s.setChan k x).job = s.job := rfl
@[simp] theorem State.setChan_integ : (s.setChan k x).integ = s.integ := rfl
@[simp] theorem State.setChan_clock : (s.setChan k x).clock = s.clock := rfl
@[simp] theorem State.setChan_cel : (s.setChan k x).cel = s.cel := rfl
@[simp] theorem State.setChan_por : (s.setChan k x).por = s.por := rfl
@[simp] theorem State.setChan_eo : (s.setChan k x).eo = s.eo := rfl
@[simp] theorem State.setChan_ranks : (s.setChan k x).ranks = s.ranks := rfl
@[simp] theorem State.setChan_shp : (s.setChan k x).shp = s.shp := rfl
@[simp] theorem State.setChan_desk : (s.setChan k x).desk = s.desk := rfl
@[simp] theorem State.setChan_loader : (s.setChan k x).loader = s.loader := rfl
@[simp] theorem State.setChan_dict : (s.setChan k x).dict = s.dict := rfl
@[simp] theorem State.setChan_flash : (s.setChan k x).flash = s.flash := rfl
@[simp] theorem State.setChan_i3c : (s.setChan k x).i3c = s.i3c := rfl
@[simp] theorem State.setChan_boot : (s.setChan k x).boot = s.boot := rfl
@[simp] theorem State.setChan_tap : (s.setChan k x).tap = s.tap := rfl
@[simp] theorem State.setChan_snaps : (s.setChan k x).snaps = s.snaps := rfl

end

/-! ### setTab -/

section
variable (s : State) (x : DeskTable)

@[simp] theorem State.setTab_pending : (s.setTab x).pending = s.pending := rfl
@[simp] theorem State.setTab_milestone : (s.setTab x).milestone = s.milestone := rfl
@[simp] theorem State.setTab_wall : (s.setTab x).wall = s.wall := rfl
@[simp] theorem State.setTab_draws : (s.setTab x).draws = s.draws := rfl
@[simp] theorem State.setTab_part : (s.setTab x).part = s.part := rfl
@[simp] theorem State.setTab_modes : (s.setTab x).modes = s.modes := rfl
@[simp] theorem State.setTab_mc : (s.setTab x).mc = s.mc := rfl
@[simp] theorem State.setTab_vc : (s.setTab x).vc = s.vc := rfl
@[simp] theorem State.setTab_ftq : (s.setTab x).ftq = s.ftq := rfl
@[simp] theorem State.setTab_pantry : (s.setTab x).pantry = s.pantry := rfl
@[simp] theorem State.setTab_larder : (s.setTab x).larder = s.larder := rfl
@[simp] theorem State.setTab_cellar : (s.setTab x).cellar = s.cellar := rfl
@[simp] theorem State.setTab_ld : (s.setTab x).ld = s.ld := rfl
@[simp] theorem State.setTab_pb : (s.setTab x).pb = s.pb := rfl
@[simp] theorem State.setTab_job : (s.setTab x).job = s.job := rfl
@[simp] theorem State.setTab_integ : (s.setTab x).integ = s.integ := rfl
@[simp] theorem State.setTab_clock : (s.setTab x).clock = s.clock := rfl
@[simp] theorem State.setTab_cel : (s.setTab x).cel = s.cel := rfl
@[simp] theorem State.setTab_por : (s.setTab x).por = s.por := rfl
@[simp] theorem State.setTab_eo : (s.setTab x).eo = s.eo := rfl
@[simp] theorem State.setTab_ranks : (s.setTab x).ranks = s.ranks := rfl
@[simp] theorem State.setTab_shp : (s.setTab x).shp = s.shp := rfl
@[simp] theorem State.setTab_loader : (s.setTab x).loader = s.loader := rfl
@[simp] theorem State.setTab_dict : (s.setTab x).dict = s.dict := rfl
@[simp] theorem State.setTab_kl : (s.setTab x).kl = s.kl := rfl
@[simp] theorem State.setTab_flash : (s.setTab x).flash = s.flash := rfl
@[simp] theorem State.setTab_i3c : (s.setTab x).i3c = s.i3c := rfl
@[simp] theorem State.setTab_boot : (s.setTab x).boot = s.boot := rfl
@[simp] theorem State.setTab_tap : (s.setTab x).tap = s.tap := rfl
@[simp] theorem State.setTab_snaps : (s.setTab x).snaps = s.snaps := rfl

end

/-! ### setAdapter -/

section
variable (s : State) (k : Nat) (x : Adapter)

@[simp] theorem State.setAdapter_pending : (s.setAdapter k x).pending = s.pending := rfl
@[simp] theorem State.setAdapter_milestone : (s.setAdapter k x).milestone = s.milestone := rfl
@[simp] theorem State.setAdapter_wall : (s.setAdapter k x).wall = s.wall := rfl
@[simp] theorem State.setAdapter_draws : (s.setAdapter k x).draws = s.draws := rfl
@[simp] theorem State.setAdapter_part : (s.setAdapter k x).part = s.part := rfl
@[simp] theorem State.setAdapter_modes : (s.setAdapter k x).modes = s.modes := rfl
@[simp] theorem State.setAdapter_mc : (s.setAdapter k x).mc = s.mc := rfl
@[simp] theorem State.setAdapter_vc : (s.setAdapter k x).vc = s.vc := rfl
@[simp] theorem State.setAdapter_ftq : (s.setAdapter k x).ftq = s.ftq := rfl
@[simp] theorem State.setAdapter_pantry : (s.setAdapter k x).pantry = s.pantry := rfl
@[simp] theorem State.setAdapter_larder : (s.setAdapter k x).larder = s.larder := rfl
@[simp] theorem State.setAdapter_cellar : (s.setAdapter k x).cellar = s.cellar := rfl
@[simp] theorem State.setAdapter_ld : (s.setAdapter k x).ld = s.ld := rfl
@[simp] theorem State.setAdapter_pb : (s.setAdapter k x).pb = s.pb := rfl
@[simp] theorem State.setAdapter_job : (s.setAdapter k x).job = s.job := rfl
@[simp] theorem State.setAdapter_integ : (s.setAdapter k x).integ = s.integ := rfl
@[simp] theorem State.setAdapter_clock : (s.setAdapter k x).clock = s.clock := rfl
@[simp] theorem State.setAdapter_cel : (s.setAdapter k x).cel = s.cel := rfl
@[simp] theorem State.setAdapter_por : (s.setAdapter k x).por = s.por := rfl
@[simp] theorem State.setAdapter_eo : (s.setAdapter k x).eo = s.eo := rfl
@[simp] theorem State.setAdapter_ranks : (s.setAdapter k x).ranks = s.ranks := rfl
@[simp] theorem State.setAdapter_shp : (s.setAdapter k x).shp = s.shp := rfl
@[simp] theorem State.setAdapter_desk : (s.setAdapter k x).desk = s.desk := rfl
@[simp] theorem State.setAdapter_dict : (s.setAdapter k x).dict = s.dict := rfl
@[simp] theorem State.setAdapter_kl : (s.setAdapter k x).kl = s.kl := rfl
@[simp] theorem State.setAdapter_flash : (s.setAdapter k x).flash = s.flash := rfl
@[simp] theorem State.setAdapter_i3c : (s.setAdapter k x).i3c = s.i3c := rfl
@[simp] theorem State.setAdapter_boot : (s.setAdapter k x).boot = s.boot := rfl
@[simp] theorem State.setAdapter_tap : (s.setAdapter k x).tap = s.tap := rfl
@[simp] theorem State.setAdapter_snaps : (s.setAdapter k x).snaps = s.snaps := rfl

end

/-! ### setActive -/

section
variable (s : State) (x : ActiveLoad)

@[simp] theorem State.setActive_pending : (s.setActive x).pending = s.pending := rfl
@[simp] theorem State.setActive_milestone : (s.setActive x).milestone = s.milestone := rfl
@[simp] theorem State.setActive_wall : (s.setActive x).wall = s.wall := rfl
@[simp] theorem State.setActive_draws : (s.setActive x).draws = s.draws := rfl
@[simp] theorem State.setActive_part : (s.setActive x).part = s.part := rfl
@[simp] theorem State.setActive_modes : (s.setActive x).modes = s.modes := rfl
@[simp] theorem State.setActive_mc : (s.setActive x).mc = s.mc := rfl
@[simp] theorem State.setActive_vc : (s.setActive x).vc = s.vc := rfl
@[simp] theorem State.setActive_ftq : (s.setActive x).ftq = s.ftq := rfl
@[simp] theorem State.setActive_pantry : (s.setActive x).pantry = s.pantry := rfl
@[simp] theorem State.setActive_larder : (s.setActive x).larder = s.larder := rfl
@[simp] theorem State.setActive_cellar : (s.setActive x).cellar = s.cellar := rfl
@[simp] theorem State.setActive_ld : (s.setActive x).ld = s.ld := rfl
@[simp] theorem State.setActive_pb : (s.setActive x).pb = s.pb := rfl
@[simp] theorem State.setActive_job : (s.setActive x).job = s.job := rfl
@[simp] theorem State.setActive_integ : (s.setActive x).integ = s.integ := rfl
@[simp] theorem State.setActive_clock : (s.setActive x).clock = s.clock := rfl
@[simp] theorem State.setActive_cel : (s.setActive x).cel = s.cel := rfl
@[simp] theorem State.setActive_por : (s.setActive x).por = s.por := rfl
@[simp] theorem State.setActive_eo : (s.setActive x).eo = s.eo := rfl
@[simp] theorem State.setActive_ranks : (s.setActive x).ranks = s.ranks := rfl
@[simp] theorem State.setActive_shp : (s.setActive x).shp = s.shp := rfl
@[simp] theorem State.setActive_desk : (s.setActive x).desk = s.desk := rfl
@[simp] theorem State.setActive_dict : (s.setActive x).dict = s.dict := rfl
@[simp] theorem State.setActive_kl : (s.setActive x).kl = s.kl := rfl
@[simp] theorem State.setActive_flash : (s.setActive x).flash = s.flash := rfl
@[simp] theorem State.setActive_i3c : (s.setActive x).i3c = s.i3c := rfl
@[simp] theorem State.setActive_boot : (s.setActive x).boot = s.boot := rfl
@[simp] theorem State.setActive_tap : (s.setActive x).tap = s.tap := rfl
@[simp] theorem State.setActive_snaps : (s.setActive x).snaps = s.snaps := rfl

end

/-! ### setSpare -/

section
variable (s : State) (k : Nat) (x : Spare)

@[simp] theorem State.setSpare_pending : (s.setSpare k x).pending = s.pending := rfl
@[simp] theorem State.setSpare_milestone : (s.setSpare k x).milestone = s.milestone := rfl
@[simp] theorem State.setSpare_wall : (s.setSpare k x).wall = s.wall := rfl
@[simp] theorem State.setSpare_draws : (s.setSpare k x).draws = s.draws := rfl
@[simp] theorem State.setSpare_part : (s.setSpare k x).part = s.part := rfl
@[simp] theorem State.setSpare_modes : (s.setSpare k x).modes = s.modes := rfl
@[simp] theorem State.setSpare_mc : (s.setSpare k x).mc = s.mc := rfl
@[simp] theorem State.setSpare_vc : (s.setSpare k x).vc = s.vc := rfl
@[simp] theorem State.setSpare_ftq : (s.setSpare k x).ftq = s.ftq := rfl
@[simp] theorem State.setSpare_pantry : (s.setSpare k x).pantry = s.pantry := rfl
@[simp] theorem State.setSpare_larder : (s.setSpare k x).larder = s.larder := rfl
@[simp] theorem State.setSpare_cellar : (s.setSpare k x).cellar = s.cellar := rfl
@[simp] theorem State.setSpare_ld : (s.setSpare k x).ld = s.ld := rfl
@[simp] theorem State.setSpare_pb : (s.setSpare k x).pb = s.pb := rfl
@[simp] theorem State.setSpare_job : (s.setSpare k x).job = s.job := rfl
@[simp] theorem State.setSpare_integ : (s.setSpare k x).integ = s.integ := rfl
@[simp] theorem State.setSpare_clock : (s.setSpare k x).clock = s.clock := rfl
@[simp] theorem State.setSpare_cel : (s.setSpare k x).cel = s.cel := rfl
@[simp] theorem State.setSpare_por : (s.setSpare k x).por = s.por := rfl
@[simp] theorem State.setSpare_ranks : (s.setSpare k x).ranks = s.ranks := rfl
@[simp] theorem State.setSpare_shp : (s.setSpare k x).shp = s.shp := rfl
@[simp] theorem State.setSpare_desk : (s.setSpare k x).desk = s.desk := rfl
@[simp] theorem State.setSpare_loader : (s.setSpare k x).loader = s.loader := rfl
@[simp] theorem State.setSpare_dict : (s.setSpare k x).dict = s.dict := rfl
@[simp] theorem State.setSpare_kl : (s.setSpare k x).kl = s.kl := rfl
@[simp] theorem State.setSpare_flash : (s.setSpare k x).flash = s.flash := rfl
@[simp] theorem State.setSpare_i3c : (s.setSpare k x).i3c = s.i3c := rfl
@[simp] theorem State.setSpare_boot : (s.setSpare k x).boot = s.boot := rfl
@[simp] theorem State.setSpare_tap : (s.setSpare k x).tap = s.tap := rfl
@[simp] theorem State.setSpare_snaps : (s.setSpare k x).snaps = s.snaps := rfl

end

/-! ### setReckoner -/

section
variable (s : State) (k : Nat) (x : Reckoner)

@[simp] theorem State.setReckoner_pending : (s.setReckoner k x).pending = s.pending := rfl
@[simp] theorem State.setReckoner_milestone : (s.setReckoner k x).milestone = s.milestone := rfl
@[simp] theorem State.setReckoner_wall : (s.setReckoner k x).wall = s.wall := rfl
@[simp] theorem State.setReckoner_draws : (s.setReckoner k x).draws = s.draws := rfl
@[simp] theorem State.setReckoner_part : (s.setReckoner k x).part = s.part := rfl
@[simp] theorem State.setReckoner_modes : (s.setReckoner k x).modes = s.modes := rfl
@[simp] theorem State.setReckoner_mc : (s.setReckoner k x).mc = s.mc := rfl
@[simp] theorem State.setReckoner_vc : (s.setReckoner k x).vc = s.vc := rfl
@[simp] theorem State.setReckoner_ftq : (s.setReckoner k x).ftq = s.ftq := rfl
@[simp] theorem State.setReckoner_pantry : (s.setReckoner k x).pantry = s.pantry := rfl
@[simp] theorem State.setReckoner_larder : (s.setReckoner k x).larder = s.larder := rfl
@[simp] theorem State.setReckoner_cellar : (s.setReckoner k x).cellar = s.cellar := rfl
@[simp] theorem State.setReckoner_ld : (s.setReckoner k x).ld = s.ld := rfl
@[simp] theorem State.setReckoner_pb : (s.setReckoner k x).pb = s.pb := rfl
@[simp] theorem State.setReckoner_job : (s.setReckoner k x).job = s.job := rfl
@[simp] theorem State.setReckoner_integ : (s.setReckoner k x).integ = s.integ := rfl
@[simp] theorem State.setReckoner_clock : (s.setReckoner k x).clock = s.clock := rfl
@[simp] theorem State.setReckoner_cel : (s.setReckoner k x).cel = s.cel := rfl
@[simp] theorem State.setReckoner_por : (s.setReckoner k x).por = s.por := rfl
@[simp] theorem State.setReckoner_eo : (s.setReckoner k x).eo = s.eo := rfl
@[simp] theorem State.setReckoner_ranks : (s.setReckoner k x).ranks = s.ranks := rfl
@[simp] theorem State.setReckoner_shp : (s.setReckoner k x).shp = s.shp := rfl
@[simp] theorem State.setReckoner_loader : (s.setReckoner k x).loader = s.loader := rfl
@[simp] theorem State.setReckoner_dict : (s.setReckoner k x).dict = s.dict := rfl
@[simp] theorem State.setReckoner_kl : (s.setReckoner k x).kl = s.kl := rfl
@[simp] theorem State.setReckoner_flash : (s.setReckoner k x).flash = s.flash := rfl
@[simp] theorem State.setReckoner_i3c : (s.setReckoner k x).i3c = s.i3c := rfl
@[simp] theorem State.setReckoner_boot : (s.setReckoner k x).boot = s.boot := rfl
@[simp] theorem State.setReckoner_tap : (s.setReckoner k x).tap = s.tap := rfl
@[simp] theorem State.setReckoner_snaps : (s.setReckoner k x).snaps = s.snaps := rfl

end

/-! ### setInbox -/

section
variable (s : State) (l : List (Nat × MgtFrame))

@[simp] theorem State.setInbox_pending : (s.setInbox l).pending = s.pending := rfl
@[simp] theorem State.setInbox_milestone : (s.setInbox l).milestone = s.milestone := rfl
@[simp] theorem State.setInbox_wall : (s.setInbox l).wall = s.wall := rfl
@[simp] theorem State.setInbox_draws : (s.setInbox l).draws = s.draws := rfl
@[simp] theorem State.setInbox_part : (s.setInbox l).part = s.part := rfl
@[simp] theorem State.setInbox_modes : (s.setInbox l).modes = s.modes := rfl
@[simp] theorem State.setInbox_mc : (s.setInbox l).mc = s.mc := rfl
@[simp] theorem State.setInbox_vc : (s.setInbox l).vc = s.vc := rfl
@[simp] theorem State.setInbox_ftq : (s.setInbox l).ftq = s.ftq := rfl
@[simp] theorem State.setInbox_pantry : (s.setInbox l).pantry = s.pantry := rfl
@[simp] theorem State.setInbox_larder : (s.setInbox l).larder = s.larder := rfl
@[simp] theorem State.setInbox_cellar : (s.setInbox l).cellar = s.cellar := rfl
@[simp] theorem State.setInbox_ld : (s.setInbox l).ld = s.ld := rfl
@[simp] theorem State.setInbox_pb : (s.setInbox l).pb = s.pb := rfl
@[simp] theorem State.setInbox_job : (s.setInbox l).job = s.job := rfl
@[simp] theorem State.setInbox_integ : (s.setInbox l).integ = s.integ := rfl
@[simp] theorem State.setInbox_clock : (s.setInbox l).clock = s.clock := rfl
@[simp] theorem State.setInbox_cel : (s.setInbox l).cel = s.cel := rfl
@[simp] theorem State.setInbox_por : (s.setInbox l).por = s.por := rfl
@[simp] theorem State.setInbox_eo : (s.setInbox l).eo = s.eo := rfl
@[simp] theorem State.setInbox_ranks : (s.setInbox l).ranks = s.ranks := rfl
@[simp] theorem State.setInbox_desk : (s.setInbox l).desk = s.desk := rfl
@[simp] theorem State.setInbox_loader : (s.setInbox l).loader = s.loader := rfl
@[simp] theorem State.setInbox_dict : (s.setInbox l).dict = s.dict := rfl
@[simp] theorem State.setInbox_kl : (s.setInbox l).kl = s.kl := rfl
@[simp] theorem State.setInbox_flash : (s.setInbox l).flash = s.flash := rfl
@[simp] theorem State.setInbox_i3c : (s.setInbox l).i3c = s.i3c := rfl
@[simp] theorem State.setInbox_boot : (s.setInbox l).boot = s.boot := rfl
@[simp] theorem State.setInbox_tap : (s.setInbox l).tap = s.tap := rfl
@[simp] theorem State.setInbox_snaps : (s.setInbox l).snaps = s.snaps := rfl

end

/-! ### haltWith -/

section
variable (s : State) (f : HaltFrame)

@[simp] theorem State.haltWith_pending : (s.haltWith f).pending = s.pending := rfl
@[simp] theorem State.haltWith_milestone : (s.haltWith f).milestone = s.milestone := rfl
@[simp] theorem State.haltWith_wall : (s.haltWith f).wall = s.wall := rfl
@[simp] theorem State.haltWith_draws : (s.haltWith f).draws = s.draws := rfl
@[simp] theorem State.haltWith_part : (s.haltWith f).part = s.part := rfl
@[simp] theorem State.haltWith_modes : (s.haltWith f).modes = s.modes := rfl
@[simp] theorem State.haltWith_mc : (s.haltWith f).mc = s.mc := rfl
@[simp] theorem State.haltWith_vc : (s.haltWith f).vc = s.vc := rfl
@[simp] theorem State.haltWith_ftq : (s.haltWith f).ftq = s.ftq := rfl
@[simp] theorem State.haltWith_pantry : (s.haltWith f).pantry = s.pantry := rfl
@[simp] theorem State.haltWith_larder : (s.haltWith f).larder = s.larder := rfl
@[simp] theorem State.haltWith_cellar : (s.haltWith f).cellar = s.cellar := rfl
@[simp] theorem State.haltWith_pb : (s.haltWith f).pb = s.pb := rfl
@[simp] theorem State.haltWith_job : (s.haltWith f).job = s.job := rfl
@[simp] theorem State.haltWith_clock : (s.haltWith f).clock = s.clock := rfl
@[simp] theorem State.haltWith_cel : (s.haltWith f).cel = s.cel := rfl
@[simp] theorem State.haltWith_por : (s.haltWith f).por = s.por := rfl
@[simp] theorem State.haltWith_eo : (s.haltWith f).eo = s.eo := rfl
@[simp] theorem State.haltWith_ranks : (s.haltWith f).ranks = s.ranks := rfl
@[simp] theorem State.haltWith_shp : (s.haltWith f).shp = s.shp := rfl
@[simp] theorem State.haltWith_desk : (s.haltWith f).desk = s.desk := rfl
@[simp] theorem State.haltWith_loader : (s.haltWith f).loader = s.loader := rfl
@[simp] theorem State.haltWith_dict : (s.haltWith f).dict = s.dict := rfl
@[simp] theorem State.haltWith_kl : (s.haltWith f).kl = s.kl := rfl
@[simp] theorem State.haltWith_flash : (s.haltWith f).flash = s.flash := rfl
@[simp] theorem State.haltWith_i3c : (s.haltWith f).i3c = s.i3c := rfl
@[simp] theorem State.haltWith_boot : (s.haltWith f).boot = s.boot := rfl
@[simp] theorem State.haltWith_tap : (s.haltWith f).tap = s.tap := rfl
@[simp] theorem State.haltWith_snaps : (s.haltWith f).snaps = s.snaps := rfl

end

/-! ### setIntegrityFault -/

section
variable (s : State) (k : Nat) (w : W64)

@[simp] theorem State.setIntegrityFault_pending : (s.setIntegrityFault k w).pending = s.pending := rfl
@[simp] theorem State.setIntegrityFault_milestone : (s.setIntegrityFault k w).milestone = s.milestone := rfl
@[simp] theorem State.setIntegrityFault_wall : (s.setIntegrityFault k w).wall = s.wall := rfl
@[simp] theorem State.setIntegrityFault_draws : (s.setIntegrityFault k w).draws = s.draws := rfl
@[simp] theorem State.setIntegrityFault_part : (s.setIntegrityFault k w).part = s.part := rfl
@[simp] theorem State.setIntegrityFault_modes : (s.setIntegrityFault k w).modes = s.modes := rfl
@[simp] theorem State.setIntegrityFault_mc : (s.setIntegrityFault k w).mc = s.mc := rfl
@[simp] theorem State.setIntegrityFault_vc : (s.setIntegrityFault k w).vc = s.vc := rfl
@[simp] theorem State.setIntegrityFault_ftq : (s.setIntegrityFault k w).ftq = s.ftq := rfl
@[simp] theorem State.setIntegrityFault_pantry : (s.setIntegrityFault k w).pantry = s.pantry := rfl
@[simp] theorem State.setIntegrityFault_larder : (s.setIntegrityFault k w).larder = s.larder := rfl
@[simp] theorem State.setIntegrityFault_cellar : (s.setIntegrityFault k w).cellar = s.cellar := rfl
@[simp] theorem State.setIntegrityFault_ld : (s.setIntegrityFault k w).ld = s.ld := rfl
@[simp] theorem State.setIntegrityFault_pb : (s.setIntegrityFault k w).pb = s.pb := rfl
@[simp] theorem State.setIntegrityFault_job : (s.setIntegrityFault k w).job = s.job := rfl
@[simp] theorem State.setIntegrityFault_clock : (s.setIntegrityFault k w).clock = s.clock := rfl
@[simp] theorem State.setIntegrityFault_cel : (s.setIntegrityFault k w).cel = s.cel := rfl
@[simp] theorem State.setIntegrityFault_por : (s.setIntegrityFault k w).por = s.por := rfl
@[simp] theorem State.setIntegrityFault_eo : (s.setIntegrityFault k w).eo = s.eo := rfl
@[simp] theorem State.setIntegrityFault_ranks : (s.setIntegrityFault k w).ranks = s.ranks := rfl
@[simp] theorem State.setIntegrityFault_shp : (s.setIntegrityFault k w).shp = s.shp := rfl
@[simp] theorem State.setIntegrityFault_desk : (s.setIntegrityFault k w).desk = s.desk := rfl
@[simp] theorem State.setIntegrityFault_loader : (s.setIntegrityFault k w).loader = s.loader := rfl
@[simp] theorem State.setIntegrityFault_dict : (s.setIntegrityFault k w).dict = s.dict := rfl
@[simp] theorem State.setIntegrityFault_kl : (s.setIntegrityFault k w).kl = s.kl := rfl
@[simp] theorem State.setIntegrityFault_flash : (s.setIntegrityFault k w).flash = s.flash := rfl
@[simp] theorem State.setIntegrityFault_i3c : (s.setIntegrityFault k w).i3c = s.i3c := rfl
@[simp] theorem State.setIntegrityFault_boot : (s.setIntegrityFault k w).boot = s.boot := rfl
@[simp] theorem State.setIntegrityFault_tap : (s.setIntegrityFault k w).tap = s.tap := rfl
@[simp] theorem State.setIntegrityFault_snaps : (s.setIntegrityFault k w).snaps = s.snaps := rfl

end

/-! ### setHandleFault -/

section
variable (s : State) (k : Nat) (w : W64)

@[simp] theorem State.setHandleFault_pending : (s.setHandleFault k w).pending = s.pending := rfl
@[simp] theorem State.setHandleFault_milestone : (s.setHandleFault k w).milestone = s.milestone := rfl
@[simp] theorem State.setHandleFault_wall : (s.setHandleFault k w).wall = s.wall := rfl
@[simp] theorem State.setHandleFault_draws : (s.setHandleFault k w).draws = s.draws := rfl
@[simp] theorem State.setHandleFault_part : (s.setHandleFault k w).part = s.part := rfl
@[simp] theorem State.setHandleFault_modes : (s.setHandleFault k w).modes = s.modes := rfl
@[simp] theorem State.setHandleFault_mc : (s.setHandleFault k w).mc = s.mc := rfl
@[simp] theorem State.setHandleFault_vc : (s.setHandleFault k w).vc = s.vc := rfl
@[simp] theorem State.setHandleFault_ftq : (s.setHandleFault k w).ftq = s.ftq := rfl
@[simp] theorem State.setHandleFault_pantry : (s.setHandleFault k w).pantry = s.pantry := rfl
@[simp] theorem State.setHandleFault_larder : (s.setHandleFault k w).larder = s.larder := rfl
@[simp] theorem State.setHandleFault_cellar : (s.setHandleFault k w).cellar = s.cellar := rfl
@[simp] theorem State.setHandleFault_pb : (s.setHandleFault k w).pb = s.pb := rfl
@[simp] theorem State.setHandleFault_job : (s.setHandleFault k w).job = s.job := rfl
@[simp] theorem State.setHandleFault_integ : (s.setHandleFault k w).integ = s.integ := rfl
@[simp] theorem State.setHandleFault_clock : (s.setHandleFault k w).clock = s.clock := rfl
@[simp] theorem State.setHandleFault_cel : (s.setHandleFault k w).cel = s.cel := rfl
@[simp] theorem State.setHandleFault_por : (s.setHandleFault k w).por = s.por := rfl
@[simp] theorem State.setHandleFault_eo : (s.setHandleFault k w).eo = s.eo := rfl
@[simp] theorem State.setHandleFault_ranks : (s.setHandleFault k w).ranks = s.ranks := rfl
@[simp] theorem State.setHandleFault_shp : (s.setHandleFault k w).shp = s.shp := rfl
@[simp] theorem State.setHandleFault_desk : (s.setHandleFault k w).desk = s.desk := rfl
@[simp] theorem State.setHandleFault_loader : (s.setHandleFault k w).loader = s.loader := rfl
@[simp] theorem State.setHandleFault_dict : (s.setHandleFault k w).dict = s.dict := rfl
@[simp] theorem State.setHandleFault_kl : (s.setHandleFault k w).kl = s.kl := rfl
@[simp] theorem State.setHandleFault_flash : (s.setHandleFault k w).flash = s.flash := rfl
@[simp] theorem State.setHandleFault_i3c : (s.setHandleFault k w).i3c = s.i3c := rfl
@[simp] theorem State.setHandleFault_boot : (s.setHandleFault k w).boot = s.boot := rfl
@[simp] theorem State.setHandleFault_tap : (s.setHandleFault k w).tap = s.tap := rfl
@[simp] theorem State.setHandleFault_snaps : (s.setHandleFault k w).snaps = s.snaps := rfl

end

/-! ### modesWritten -/

section
variable (s : State) 

@[simp] theorem State.modesWritten_pending : (s.modesWritten ).pending = s.pending := rfl
@[simp] theorem State.modesWritten_milestone : (s.modesWritten ).milestone = s.milestone := rfl
@[simp] theorem State.modesWritten_wall : (s.modesWritten ).wall = s.wall := rfl
@[simp] theorem State.modesWritten_draws : (s.modesWritten ).draws = s.draws := rfl
@[simp] theorem State.modesWritten_part : (s.modesWritten ).part = s.part := rfl
@[simp] theorem State.modesWritten_mc : (s.modesWritten ).mc = s.mc := rfl
@[simp] theorem State.modesWritten_vc : (s.modesWritten ).vc = s.vc := rfl
@[simp] theorem State.modesWritten_ftq : (s.modesWritten ).ftq = s.ftq := rfl
@[simp] theorem State.modesWritten_pantry : (s.modesWritten ).pantry = s.pantry := rfl
@[simp] theorem State.modesWritten_larder : (s.modesWritten ).larder = s.larder := rfl
@[simp] theorem State.modesWritten_cellar : (s.modesWritten ).cellar = s.cellar := rfl
@[simp] theorem State.modesWritten_ld : (s.modesWritten ).ld = s.ld := rfl
@[simp] theorem State.modesWritten_pb : (s.modesWritten ).pb = s.pb := rfl
@[simp] theorem State.modesWritten_job : (s.modesWritten ).job = s.job := rfl
@[simp] theorem State.modesWritten_integ : (s.modesWritten ).integ = s.integ := rfl
@[simp] theorem State.modesWritten_clock : (s.modesWritten ).clock = s.clock := rfl
@[simp] theorem State.modesWritten_cel : (s.modesWritten ).cel = s.cel := rfl
@[simp] theorem State.modesWritten_por : (s.modesWritten ).por = s.por := rfl
@[simp] theorem State.modesWritten_eo : (s.modesWritten ).eo = s.eo := rfl
@[simp] theorem State.modesWritten_ranks : (s.modesWritten ).ranks = s.ranks := rfl
@[simp] theorem State.modesWritten_shp : (s.modesWritten ).shp = s.shp := rfl
@[simp] theorem State.modesWritten_desk : (s.modesWritten ).desk = s.desk := rfl
@[simp] theorem State.modesWritten_loader : (s.modesWritten ).loader = s.loader := rfl
@[simp] theorem State.modesWritten_dict : (s.modesWritten ).dict = s.dict := rfl
@[simp] theorem State.modesWritten_kl : (s.modesWritten ).kl = s.kl := rfl
@[simp] theorem State.modesWritten_flash : (s.modesWritten ).flash = s.flash := rfl
@[simp] theorem State.modesWritten_i3c : (s.modesWritten ).i3c = s.i3c := rfl
@[simp] theorem State.modesWritten_boot : (s.modesWritten ).boot = s.boot := rfl
@[simp] theorem State.modesWritten_tap : (s.modesWritten ).tap = s.tap := rfl
@[simp] theorem State.modesWritten_snaps : (s.modesWritten ).snaps = s.snaps := rfl

end

/-! ### sawHot -/

section
variable (s : State) 

@[simp] theorem State.sawHot_pending : (s.sawHot ).pending = s.pending := rfl
@[simp] theorem State.sawHot_milestone : (s.sawHot ).milestone = s.milestone := rfl
@[simp] theorem State.sawHot_wall : (s.sawHot ).wall = s.wall := rfl
@[simp] theorem State.sawHot_draws : (s.sawHot ).draws = s.draws := rfl
@[simp] theorem State.sawHot_part : (s.sawHot ).part = s.part := rfl
@[simp] theorem State.sawHot_modes : (s.sawHot ).modes = s.modes := rfl
@[simp] theorem State.sawHot_mc : (s.sawHot ).mc = s.mc := rfl
@[simp] theorem State.sawHot_vc : (s.sawHot ).vc = s.vc := rfl
@[simp] theorem State.sawHot_ftq : (s.sawHot ).ftq = s.ftq := rfl
@[simp] theorem State.sawHot_pantry : (s.sawHot ).pantry = s.pantry := rfl
@[simp] theorem State.sawHot_larder : (s.sawHot ).larder = s.larder := rfl
@[simp] theorem State.sawHot_cellar : (s.sawHot ).cellar = s.cellar := rfl
@[simp] theorem State.sawHot_ld : (s.sawHot ).ld = s.ld := rfl
@[simp] theorem State.sawHot_pb : (s.sawHot ).pb = s.pb := rfl
@[simp] theorem State.sawHot_job : (s.sawHot ).job = s.job := rfl
@[simp] theorem State.sawHot_integ : (s.sawHot ).integ = s.integ := rfl
@[simp] theorem State.sawHot_cel : (s.sawHot ).cel = s.cel := rfl
@[simp] theorem State.sawHot_por : (s.sawHot ).por = s.por := rfl
@[simp] theorem State.sawHot_eo : (s.sawHot ).eo = s.eo := rfl
@[simp] theorem State.sawHot_ranks : (s.sawHot ).ranks = s.ranks := rfl
@[simp] theorem State.sawHot_shp : (s.sawHot ).shp = s.shp := rfl
@[simp] theorem State.sawHot_desk : (s.sawHot ).desk = s.desk := rfl
@[simp] theorem State.sawHot_loader : (s.sawHot ).loader = s.loader := rfl
@[simp] theorem State.sawHot_dict : (s.sawHot ).dict = s.dict := rfl
@[simp] theorem State.sawHot_kl : (s.sawHot ).kl = s.kl := rfl
@[simp] theorem State.sawHot_flash : (s.sawHot ).flash = s.flash := rfl
@[simp] theorem State.sawHot_i3c : (s.sawHot ).i3c = s.i3c := rfl
@[simp] theorem State.sawHot_boot : (s.sawHot ).boot = s.boot := rfl
@[simp] theorem State.sawHot_tap : (s.sawHot ).tap = s.tap := rfl
@[simp] theorem State.sawHot_snaps : (s.sawHot ).snaps = s.snaps := rfl

end

/-! ### reportMargin -/

section
variable (s : State) (r : Nat) (codes : BitVec 32)

@[simp] theorem State.reportMargin_pending : (s.reportMargin r codes).pending = s.pending := rfl
@[simp] theorem State.reportMargin_milestone : (s.reportMargin r codes).milestone = s.milestone := rfl
@[simp] theorem State.reportMargin_wall : (s.reportMargin r codes).wall = s.wall := rfl
@[simp] theorem State.reportMargin_draws : (s.reportMargin r codes).draws = s.draws := rfl
@[simp] theorem State.reportMargin_part : (s.reportMargin r codes).part = s.part := rfl
@[simp] theorem State.reportMargin_modes : (s.reportMargin r codes).modes = s.modes := rfl
@[simp] theorem State.reportMargin_mc : (s.reportMargin r codes).mc = s.mc := rfl
@[simp] theorem State.reportMargin_vc : (s.reportMargin r codes).vc = s.vc := rfl
@[simp] theorem State.reportMargin_ftq : (s.reportMargin r codes).ftq = s.ftq := rfl
@[simp] theorem State.reportMargin_pantry : (s.reportMargin r codes).pantry = s.pantry := rfl
@[simp] theorem State.reportMargin_larder : (s.reportMargin r codes).larder = s.larder := rfl
@[simp] theorem State.reportMargin_cellar : (s.reportMargin r codes).cellar = s.cellar := rfl
@[simp] theorem State.reportMargin_ld : (s.reportMargin r codes).ld = s.ld := rfl
@[simp] theorem State.reportMargin_pb : (s.reportMargin r codes).pb = s.pb := rfl
@[simp] theorem State.reportMargin_job : (s.reportMargin r codes).job = s.job := rfl
@[simp] theorem State.reportMargin_integ : (s.reportMargin r codes).integ = s.integ := rfl
@[simp] theorem State.reportMargin_cel : (s.reportMargin r codes).cel = s.cel := rfl
@[simp] theorem State.reportMargin_por : (s.reportMargin r codes).por = s.por := rfl
@[simp] theorem State.reportMargin_eo : (s.reportMargin r codes).eo = s.eo := rfl
@[simp] theorem State.reportMargin_ranks : (s.reportMargin r codes).ranks = s.ranks := rfl
@[simp] theorem State.reportMargin_shp : (s.reportMargin r codes).shp = s.shp := rfl
@[simp] theorem State.reportMargin_desk : (s.reportMargin r codes).desk = s.desk := rfl
@[simp] theorem State.reportMargin_loader : (s.reportMargin r codes).loader = s.loader := rfl
@[simp] theorem State.reportMargin_dict : (s.reportMargin r codes).dict = s.dict := rfl
@[simp] theorem State.reportMargin_kl : (s.reportMargin r codes).kl = s.kl := rfl
@[simp] theorem State.reportMargin_flash : (s.reportMargin r codes).flash = s.flash := rfl
@[simp] theorem State.reportMargin_i3c : (s.reportMargin r codes).i3c = s.i3c := rfl
@[simp] theorem State.reportMargin_boot : (s.reportMargin r codes).boot = s.boot := rfl
@[simp] theorem State.reportMargin_tap : (s.reportMargin r codes).tap = s.tap := rfl
@[simp] theorem State.reportMargin_snaps : (s.reportMargin r codes).snaps = s.snaps := rfl

end

/-! ### setStretch -/

section
variable (s : State) (r : Nat) (own : Bool)

@[simp] theorem State.setStretch_pending : (s.setStretch r own).pending = s.pending := rfl
@[simp] theorem State.setStretch_milestone : (s.setStretch r own).milestone = s.milestone := rfl
@[simp] theorem State.setStretch_wall : (s.setStretch r own).wall = s.wall := rfl
@[simp] theorem State.setStretch_draws : (s.setStretch r own).draws = s.draws := rfl
@[simp] theorem State.setStretch_part : (s.setStretch r own).part = s.part := rfl
@[simp] theorem State.setStretch_modes : (s.setStretch r own).modes = s.modes := rfl
@[simp] theorem State.setStretch_mc : (s.setStretch r own).mc = s.mc := rfl
@[simp] theorem State.setStretch_vc : (s.setStretch r own).vc = s.vc := rfl
@[simp] theorem State.setStretch_ftq : (s.setStretch r own).ftq = s.ftq := rfl
@[simp] theorem State.setStretch_pantry : (s.setStretch r own).pantry = s.pantry := rfl
@[simp] theorem State.setStretch_larder : (s.setStretch r own).larder = s.larder := rfl
@[simp] theorem State.setStretch_cellar : (s.setStretch r own).cellar = s.cellar := rfl
@[simp] theorem State.setStretch_ld : (s.setStretch r own).ld = s.ld := rfl
@[simp] theorem State.setStretch_pb : (s.setStretch r own).pb = s.pb := rfl
@[simp] theorem State.setStretch_job : (s.setStretch r own).job = s.job := rfl
@[simp] theorem State.setStretch_integ : (s.setStretch r own).integ = s.integ := rfl
@[simp] theorem State.setStretch_cel : (s.setStretch r own).cel = s.cel := rfl
@[simp] theorem State.setStretch_por : (s.setStretch r own).por = s.por := rfl
@[simp] theorem State.setStretch_eo : (s.setStretch r own).eo = s.eo := rfl
@[simp] theorem State.setStretch_ranks : (s.setStretch r own).ranks = s.ranks := rfl
@[simp] theorem State.setStretch_shp : (s.setStretch r own).shp = s.shp := rfl
@[simp] theorem State.setStretch_desk : (s.setStretch r own).desk = s.desk := rfl
@[simp] theorem State.setStretch_loader : (s.setStretch r own).loader = s.loader := rfl
@[simp] theorem State.setStretch_dict : (s.setStretch r own).dict = s.dict := rfl
@[simp] theorem State.setStretch_kl : (s.setStretch r own).kl = s.kl := rfl
@[simp] theorem State.setStretch_flash : (s.setStretch r own).flash = s.flash := rfl
@[simp] theorem State.setStretch_i3c : (s.setStretch r own).i3c = s.i3c := rfl
@[simp] theorem State.setStretch_boot : (s.setStretch r own).boot = s.boot := rfl
@[simp] theorem State.setStretch_tap : (s.setStretch r own).tap = s.tap := rfl
@[simp] theorem State.setStretch_snaps : (s.setStretch r own).snaps = s.snaps := rfl

end

/-! ### cellarRecord -/

section
variable (s : State) (k c a : Nat) (g : BitVec 8)

@[simp] theorem State.cellarRecord_pending : (s.cellarRecord k c a g).pending = s.pending := rfl
@[simp] theorem State.cellarRecord_milestone : (s.cellarRecord k c a g).milestone = s.milestone := rfl
@[simp] theorem State.cellarRecord_wall : (s.cellarRecord k c a g).wall = s.wall := rfl
@[simp] theorem State.cellarRecord_draws : (s.cellarRecord k c a g).draws = s.draws := rfl
@[simp] theorem State.cellarRecord_part : (s.cellarRecord k c a g).part = s.part := rfl
@[simp] theorem State.cellarRecord_modes : (s.cellarRecord k c a g).modes = s.modes := rfl
@[simp] theorem State.cellarRecord_mc : (s.cellarRecord k c a g).mc = s.mc := rfl
@[simp] theorem State.cellarRecord_vc : (s.cellarRecord k c a g).vc = s.vc := rfl
@[simp] theorem State.cellarRecord_ftq : (s.cellarRecord k c a g).ftq = s.ftq := rfl
@[simp] theorem State.cellarRecord_pantry : (s.cellarRecord k c a g).pantry = s.pantry := rfl
@[simp] theorem State.cellarRecord_larder : (s.cellarRecord k c a g).larder = s.larder := rfl
@[simp] theorem State.cellarRecord_cellar : (s.cellarRecord k c a g).cellar = s.cellar := rfl
@[simp] theorem State.cellarRecord_ld : (s.cellarRecord k c a g).ld = s.ld := rfl
@[simp] theorem State.cellarRecord_pb : (s.cellarRecord k c a g).pb = s.pb := rfl
@[simp] theorem State.cellarRecord_job : (s.cellarRecord k c a g).job = s.job := rfl
@[simp] theorem State.cellarRecord_integ : (s.cellarRecord k c a g).integ = s.integ := rfl
@[simp] theorem State.cellarRecord_clock : (s.cellarRecord k c a g).clock = s.clock := rfl
@[simp] theorem State.cellarRecord_por : (s.cellarRecord k c a g).por = s.por := rfl
@[simp] theorem State.cellarRecord_eo : (s.cellarRecord k c a g).eo = s.eo := rfl
@[simp] theorem State.cellarRecord_ranks : (s.cellarRecord k c a g).ranks = s.ranks := rfl
@[simp] theorem State.cellarRecord_shp : (s.cellarRecord k c a g).shp = s.shp := rfl
@[simp] theorem State.cellarRecord_desk : (s.cellarRecord k c a g).desk = s.desk := rfl
@[simp] theorem State.cellarRecord_loader : (s.cellarRecord k c a g).loader = s.loader := rfl
@[simp] theorem State.cellarRecord_dict : (s.cellarRecord k c a g).dict = s.dict := rfl
@[simp] theorem State.cellarRecord_kl : (s.cellarRecord k c a g).kl = s.kl := rfl
@[simp] theorem State.cellarRecord_flash : (s.cellarRecord k c a g).flash = s.flash := rfl
@[simp] theorem State.cellarRecord_i3c : (s.cellarRecord k c a g).i3c = s.i3c := rfl
@[simp] theorem State.cellarRecord_boot : (s.cellarRecord k c a g).boot = s.boot := rfl
@[simp] theorem State.cellarRecord_tap : (s.cellarRecord k c a g).tap = s.tap := rfl
@[simp] theorem State.cellarRecord_snaps : (s.cellarRecord k c a g).snaps = s.snaps := rfl

end

/-! ### updRun -/

section
variable (s : State) (n : Nat) (f : Run → Run)

@[simp] theorem State.updRun_pending : (s.updRun n f).pending = s.pending := rfl
@[simp] theorem State.updRun_milestone : (s.updRun n f).milestone = s.milestone := rfl
@[simp] theorem State.updRun_wall : (s.updRun n f).wall = s.wall := rfl
@[simp] theorem State.updRun_draws : (s.updRun n f).draws = s.draws := rfl
@[simp] theorem State.updRun_part : (s.updRun n f).part = s.part := rfl
@[simp] theorem State.updRun_modes : (s.updRun n f).modes = s.modes := rfl
@[simp] theorem State.updRun_mc : (s.updRun n f).mc = s.mc := rfl
@[simp] theorem State.updRun_vc : (s.updRun n f).vc = s.vc := rfl
@[simp] theorem State.updRun_ftq : (s.updRun n f).ftq = s.ftq := rfl
@[simp] theorem State.updRun_pantry : (s.updRun n f).pantry = s.pantry := rfl
@[simp] theorem State.updRun_larder : (s.updRun n f).larder = s.larder := rfl
@[simp] theorem State.updRun_cellar : (s.updRun n f).cellar = s.cellar := rfl
@[simp] theorem State.updRun_pb : (s.updRun n f).pb = s.pb := rfl
@[simp] theorem State.updRun_job : (s.updRun n f).job = s.job := rfl
@[simp] theorem State.updRun_integ : (s.updRun n f).integ = s.integ := rfl
@[simp] theorem State.updRun_clock : (s.updRun n f).clock = s.clock := rfl
@[simp] theorem State.updRun_cel : (s.updRun n f).cel = s.cel := rfl
@[simp] theorem State.updRun_por : (s.updRun n f).por = s.por := rfl
@[simp] theorem State.updRun_eo : (s.updRun n f).eo = s.eo := rfl
@[simp] theorem State.updRun_ranks : (s.updRun n f).ranks = s.ranks := rfl
@[simp] theorem State.updRun_shp : (s.updRun n f).shp = s.shp := rfl
@[simp] theorem State.updRun_desk : (s.updRun n f).desk = s.desk := rfl
@[simp] theorem State.updRun_loader : (s.updRun n f).loader = s.loader := rfl
@[simp] theorem State.updRun_dict : (s.updRun n f).dict = s.dict := rfl
@[simp] theorem State.updRun_kl : (s.updRun n f).kl = s.kl := rfl
@[simp] theorem State.updRun_flash : (s.updRun n f).flash = s.flash := rfl
@[simp] theorem State.updRun_i3c : (s.updRun n f).i3c = s.i3c := rfl
@[simp] theorem State.updRun_boot : (s.updRun n f).boot = s.boot := rfl
@[simp] theorem State.updRun_tap : (s.updRun n f).tap = s.tap := rfl
@[simp] theorem State.updRun_snaps : (s.updRun n f).snaps = s.snaps := rfl

end

/-! ### dropRun -/

section
variable (s : State) (n : Nat)

@[simp] theorem State.dropRun_pending : (s.dropRun n).pending = s.pending := rfl
@[simp] theorem State.dropRun_milestone : (s.dropRun n).milestone = s.milestone := rfl
@[simp] theorem State.dropRun_wall : (s.dropRun n).wall = s.wall := rfl
@[simp] theorem State.dropRun_draws : (s.dropRun n).draws = s.draws := rfl
@[simp] theorem State.dropRun_part : (s.dropRun n).part = s.part := rfl
@[simp] theorem State.dropRun_modes : (s.dropRun n).modes = s.modes := rfl
@[simp] theorem State.dropRun_mc : (s.dropRun n).mc = s.mc := rfl
@[simp] theorem State.dropRun_vc : (s.dropRun n).vc = s.vc := rfl
@[simp] theorem State.dropRun_ftq : (s.dropRun n).ftq = s.ftq := rfl
@[simp] theorem State.dropRun_pantry : (s.dropRun n).pantry = s.pantry := rfl
@[simp] theorem State.dropRun_larder : (s.dropRun n).larder = s.larder := rfl
@[simp] theorem State.dropRun_cellar : (s.dropRun n).cellar = s.cellar := rfl
@[simp] theorem State.dropRun_pb : (s.dropRun n).pb = s.pb := rfl
@[simp] theorem State.dropRun_job : (s.dropRun n).job = s.job := rfl
@[simp] theorem State.dropRun_integ : (s.dropRun n).integ = s.integ := rfl
@[simp] theorem State.dropRun_clock : (s.dropRun n).clock = s.clock := rfl
@[simp] theorem State.dropRun_cel : (s.dropRun n).cel = s.cel := rfl
@[simp] theorem State.dropRun_por : (s.dropRun n).por = s.por := rfl
@[simp] theorem State.dropRun_eo : (s.dropRun n).eo = s.eo := rfl
@[simp] theorem State.dropRun_ranks : (s.dropRun n).ranks = s.ranks := rfl
@[simp] theorem State.dropRun_shp : (s.dropRun n).shp = s.shp := rfl
@[simp] theorem State.dropRun_desk : (s.dropRun n).desk = s.desk := rfl
@[simp] theorem State.dropRun_loader : (s.dropRun n).loader = s.loader := rfl
@[simp] theorem State.dropRun_dict : (s.dropRun n).dict = s.dict := rfl
@[simp] theorem State.dropRun_kl : (s.dropRun n).kl = s.kl := rfl
@[simp] theorem State.dropRun_flash : (s.dropRun n).flash = s.flash := rfl
@[simp] theorem State.dropRun_i3c : (s.dropRun n).i3c = s.i3c := rfl
@[simp] theorem State.dropRun_boot : (s.dropRun n).boot = s.boot := rfl
@[simp] theorem State.dropRun_tap : (s.dropRun n).tap = s.tap := rfl
@[simp] theorem State.dropRun_snaps : (s.dropRun n).snaps = s.snaps := rfl

end

/-! ### What is read back -/

@[simp] theorem State.pass_milestone (s : State) (b : Nat) : (s.pass b).milestone = max s.milestone b := rfl

theorem State.mcore_setMcore (s : State) (c c' : Nat) (m : MCore) :
    (s.setMcore c m).mcore c' = if c' = c then m else s.mcore c' := SMap.get_set _ _ _ _ _

theorem State.vcore_setVcore (s : State) (h h' : Nat) (v : VCore) :
    (s.setVcore h v).vcore h' = if h' = h then v else s.vcore h' := SMap.get_set _ _ _ _ _

theorem State.queue_setQueue (s : State) (c c' : Nat) (q : Ftq) :
    (s.setQueue c q).queue c' = if c' = c then q else s.queue c' := SMap.get_set _ _ _ _ _

theorem State.pantryOf_setPantry (s : State) (k k' : Nat) (m : Memory) :
    (s.setPantry k m).pantryOf k' = if k' = k then m else s.pantryOf k' := SMap.get_set _ _ _ _ _

theorem State.sliceOf_setSlice (s : State) (k k' : Nat) (m : Memory) :
    (s.setSlice k m).sliceOf k' = if k' = k then m else s.sliceOf k' := SMap.get_set _ _ _ _ _

theorem State.stackOf_setStack (s : State) (k k' : Nat) (m : Memory) :
    (s.setStack k m).stackOf k' = if k' = k then m else s.stackOf k' := SMap.get_set _ _ _ _ _

theorem State.porter_setPorter (s : State) (k k' : Nat) (p : Porter) :
    (s.setPorter k p).porter k' = if k' = k then p else s.porter k' := SMap.get_set _ _ _ _ _

theorem State.port_setPort (s : State) (k k' : Nat) (p : Port) :
    (s.setPort k p).port k' = if k' = k then p else s.port k' := SMap.get_set _ _ _ _ _

theorem State.post_setPost (s : State) (k k' : Nat) (p : Post) :
    (s.setPost k p).post k' = if k' = k then p else s.post k' := SMap.get_set _ _ _ _ _

theorem State.stage_setStage (s : State) (k k' : Nat) (g : Stage) :
    (s.setStage k g).stage k' = if k' = k then g else s.stage k' := SMap.get_set _ _ _ _ _

theorem State.chan_setChan (s : State) (k k' : Nat) (x : KChan) :
    (s.setChan k x).chan k' = if k' = k then x else s.chan k' := SMap.get_set _ _ _ _ _

@[simp] theorem State.mcore_pass (s : State) (b k : Nat) : (s.pass b).mcore k = s.mcore k := rfl
@[simp] theorem State.vcore_pass (s : State) (b k : Nat) : (s.pass b).vcore k = s.vcore k := rfl

@[simp] theorem Clock.stretchAfter_zero (c : Clock) : c.stretchAfter 0 = c.stretched := rfl

@[simp] theorem Clock.pass_zero (c : Clock) : c.pass 0 = c := rfl

@[simp] theorem State.wallOf_zero (s : State) : s.wallOf 0 = 0 := by
  simp [State.wallOf, State.trimmed]

/-- Beats that have passed already pass no more. -/
theorem State.pass_now (s : State) (b : Nat) (h : b ≤ s.milestone) : s.pass b = s := by
  simp [State.pass, Nat.sub_eq_zero_of_le h, Nat.max_eq_left h]

theorem State.pass_max (s : State) (b : Nat) : s.pass (max s.milestone b) = s.pass b := by
  rcases Nat.le_total b s.milestone with h | h
  · rw [Nat.max_eq_left h, State.pass_now _ _ h, State.pass_now _ _ (Nat.le_refl _)]
  · rw [Nat.max_eq_right h]

/-! ### Accesses on their beats -/

/-- Where no access stands before beat `b`, none acts. -/
theorem State.serve_idle (n : Nat) (s : State) (b : Nat) (h : nextAct s.ld.runs b = none) : State.serve n s b = s := by
  cases n with
  | zero => rfl
  | succ n =>
    unfold State.serve
    rw [h]
    split <;> rfl

/-- Where no access stands before beat `b`, letting time pass is only that. -/
theorem State.toBeat_idle (s : State) (b : Nat) (h : nextAct s.ld.runs (max s.milestone b) = none) :
    s.toBeat b = s.pass b := by
  show (State.serve _ s (max s.milestone b)).pass (max s.milestone b) = s.pass b
  rw [State.serve_idle _ _ _ h, State.pass_max]

/-- With no run under way, letting time pass is only that. -/
theorem State.toBeat_clear (s : State) (b : Nat) (h : s.ld.runs = []) : s.toBeat b = s.pass b :=
  s.toBeat_idle b (by rw [h]; rfl)

/-- Where cores and movers do not act, letting time pass is only that. -/
theorem State.toBeat_still (s : State) (b : Nat) (h : s.moving = false) : s.toBeat b = s.pass b := by
  have hs : ∀ n b, State.serve n s b = s := by
    intro n b
    cases n with
    | zero => rfl
    | succ n => unfold State.serve; rw [h]; rfl
  show (State.serve _ s (max s.milestone b)).pass (max s.milestone b) = s.pass b
  rw [hs, State.pass_max]

end Sys2Proof.Machine
end

