-- ==== Sys2Proof/Laws/Frames1.lean ====
section
/-! SUPPORT. What each operation leaves alone, of the queue, the fused part, the cores and the memories. -/

namespace Sys2Proof.Machine

section Folds
variable {β : Type} (f : State → β → State) (l : List β) (s : State)

@[simp] theorem foldl_pending (h : ∀ s x, (f s x).pending = s.pending) : (l.foldl f s).pending = s.pending := by
  induction l generalizing s with
  | nil => rfl
  | cons x l ih => rw [List.foldl_cons, ih, h]

@[simp] theorem foldl_part (h : ∀ s x, (f s x).part = s.part) : (l.foldl f s).part = s.part := by
  induction l generalizing s with
  | nil => rfl
  | cons x l ih => rw [List.foldl_cons, ih, h]

@[simp] theorem foldl_mc (h : ∀ s x, (f s x).mc = s.mc) : (l.foldl f s).mc = s.mc := by
  induction l generalizing s with
  | nil => rfl
  | cons x l ih => rw [List.foldl_cons, ih, h]

@[simp] theorem foldl_vc (h : ∀ s x, (f s x).vc = s.vc) : (l.foldl f s).vc = s.vc := by
  induction l generalizing s with
  | nil => rfl
  | cons x l ih => rw [List.foldl_cons, ih, h]

@[simp] theorem foldl_ftq (h : ∀ s x, (f s x).ftq = s.ftq) : (l.foldl f s).ftq = s.ftq := by
  induction l generalizing s with
  | nil => rfl
  | cons x l ih => rw [List.foldl_cons, ih, h]

@[simp] theorem foldl_pantry (h : ∀ s x, (f s x).pantry = s.pantry) : (l.foldl f s).pantry = s.pantry := by
  induction l generalizing s with
  | nil => rfl
  | cons x l ih => rw [List.foldl_cons, ih, h]

@[simp] theorem foldl_larder (h : ∀ s x, (f s x).larder = s.larder) : (l.foldl f s).larder = s.larder := by
  induction l generalizing s with
  | nil => rfl
  | cons x l ih => rw [List.foldl_cons, ih, h]

@[simp] theorem foldl_cellar (h : ∀ s x, (f s x).cellar = s.cellar) : (l.foldl f s).cellar = s.cellar := by
  induction l generalizing s with
  | nil => rfl
  | cons x l ih => rw [List.foldl_cons, ih, h]

end Folds

/-- A next state has the queue and the fused part of `s`. -/
def resKeeps (s : State) : Res → Prop
  | .next t => t.pending = s.pending ∧ t.part = s.part
  | .fault _ => True
  | .refused _ => True

@[simp] theorem resKeeps_next (s t : State) : resKeeps s (.next t) ↔ t.pending = s.pending ∧ t.part = s.part := Iff.rfl

@[simp] theorem resKeeps_fault (s : State) (f : Fault) : resKeeps s (.fault f) := trivial

@[simp] theorem resKeeps_refused (s : State) (r : Refusal) : resKeeps s (.refused r) := trivial

theorem resKeeps_congr {s s' : State} {r : Res} (h1 : s'.pending = s.pending) (h2 : s'.part = s.part)
    (h : resKeeps s' r) : resKeeps s r := by
  cases r with
  | next t => exact ⟨h.1.trans h1, h.2.trans h2⟩
  | fault f => trivial
  | refused r => trivial

theorem resKeeps_of_eq {s t : State} {r : Res} (h : resKeeps s r) (e : r = .next t) :
    t.pending = s.pending ∧ t.part = s.part := by subst e; exact h

@[simp] theorem State.setMcore_keeps (s : State) (c : Nat) (m : MCore) :
    (State.setMcore s c m).pending = s.pending
      ∧ (State.setMcore s c m).part = s.part
      ∧ (State.setMcore s c m).vc = s.vc
      ∧ (State.setMcore s c m).ftq = s.ftq
      ∧ (State.setMcore s c m).pantry = s.pantry
      ∧ (State.setMcore s c m).larder = s.larder
      ∧ (State.setMcore s c m).cellar = s.cellar := by
  unfold State.setMcore
  try dsimp only
  repeat' (first | (simp; done) | split)


@[simp] theorem State.accVector_keeps (s : State) (c : Nat) (a : AccArgs) (dead : List Nat) (i : Nat) (ws : List Memory) :
    (State.accVector s c a dead i ws).pending = s.pending
      ∧ (State.accVector s c a dead i ws).part = s.part
      ∧ (State.accVector s c a dead i ws).vc = s.vc
      ∧ (State.accVector s c a dead i ws).ftq = s.ftq
      ∧ (State.accVector s c a dead i ws).pantry = s.pantry
      ∧ (State.accVector s c a dead i ws).larder = s.larder
      ∧ (State.accVector s c a dead i ws).cellar = s.cellar := by
  unfold State.accVector
  try dsimp only
  repeat' (first | (simp; done) | split)


@[simp] theorem State.pass_keeps (s : State) (b : Nat) :
    (State.pass s b).pending = s.pending
      ∧ (State.pass s b).part = s.part
      ∧ (State.pass s b).mc = s.mc
      ∧ (State.pass s b).vc = s.vc
      ∧ (State.pass s b).ftq = s.ftq
      ∧ (State.pass s b).pantry = s.pantry
      ∧ (State.pass s b).larder = s.larder
      ∧ (State.pass s b).cellar = s.cellar := by
  unfold State.pass
  try dsimp only
  repeat' (first | (simp; done) | split)


@[simp] theorem State.departing_keeps (s : State) (f : OutFlit) :
    (State.departing s f).1.pending = s.pending
      ∧ (State.departing s f).1.part = s.part
      ∧ (State.departing s f).1.mc = s.mc
      ∧ (State.departing s f).1.vc = s.vc
      ∧ (State.departing s f).1.ftq = s.ftq
      ∧ (State.departing s f).1.pantry = s.pantry
      ∧ (State.departing s f).1.larder = s.larder
      ∧ (State.departing s f).1.cellar = s.cellar := by
  unfold State.departing
  try dsimp only
  repeat' (first | (simp; done) | split)


@[simp] theorem State.setPort_keeps (s : State) (p : Nat) (x : Port) :
    (State.setPort s p x).pending = s.pending
      ∧ (State.setPort s p x).part = s.part
      ∧ (State.setPort s p x).mc = s.mc
      ∧ (State.setPort s p x).vc = s.vc
      ∧ (State.setPort s p x).ftq = s.ftq
      ∧ (State.setPort s p x).pantry = s.pantry
      ∧ (State.setPort s p x).larder = s.larder
      ∧ (State.setPort s p x).cellar = s.cellar := by
  unfold State.setPort
  try dsimp only
  repeat' (first | (simp; done) | split)


@[simp] theorem State.freeCredit_keeps (s : State) (f : Option (Nat × Nat)) :
    (State.freeCredit s f).pending = s.pending
      ∧ (State.freeCredit s f).part = s.part
      ∧ (State.freeCredit s f).mc = s.mc
      ∧ (State.freeCredit s f).vc = s.vc
      ∧ (State.freeCredit s f).ftq = s.ftq
      ∧ (State.freeCredit s f).pantry = s.pantry
      ∧ (State.freeCredit s f).larder = s.larder
      ∧ (State.freeCredit s f).cellar = s.cellar := by
  unfold State.freeCredit
  try dsimp only
  repeat' (first | (simp; done) | split)


@[simp] theorem State.sendFlit_keeps (s : State) (n : Nat) (f : OutFlit) (l : BitVec 10) :
    (State.sendFlit s n f l).pending = s.pending
      ∧ (State.sendFlit s n f l).part = s.part
      ∧ (State.sendFlit s n f l).mc = s.mc
      ∧ (State.sendFlit s n f l).vc = s.vc
      ∧ (State.sendFlit s n f l).ftq = s.ftq
      ∧ (State.sendFlit s n f l).pantry = s.pantry
      ∧ (State.sendFlit s n f l).larder = s.larder
      ∧ (State.sendFlit s n f l).cellar = s.cellar := by
  unfold State.sendFlit
  try dsimp only
  repeat' (first | (simp; done) | split)


@[simp] theorem State.pumpLoop_keeps (s : State) (n : Nat) (x2 : Nat) :
    (State.pumpLoop s n x2).pending = s.pending
      ∧ (State.pumpLoop s n x2).part = s.part
      ∧ (State.pumpLoop s n x2).mc = s.mc
      ∧ (State.pumpLoop s n x2).vc = s.vc
      ∧ (State.pumpLoop s n x2).ftq = s.ftq
      ∧ (State.pumpLoop s n x2).pantry = s.pantry
      ∧ (State.pumpLoop s n x2).larder = s.larder
      ∧ (State.pumpLoop s n x2).cellar = s.cellar := by
  induction x2 generalizing s with
  | zero => simp [State.pumpLoop]
  | succ k ih =>
    unfold State.pumpLoop
    dsimp only
    repeat' (first | (simp; done) | (simp [ih]; done) | split)


@[simp] theorem State.drain_keeps (s : State) (n : Nat) :
    (State.drain s n).pending = s.pending
      ∧ (State.drain s n).part = s.part
      ∧ (State.drain s n).mc = s.mc
      ∧ (State.drain s n).vc = s.vc
      ∧ (State.drain s n).ftq = s.ftq
      ∧ (State.drain s n).pantry = s.pantry
      ∧ (State.drain s n).larder = s.larder
      ∧ (State.drain s n).cellar = s.cellar := by
  unfold State.drain
  try dsimp only
  repeat' (first | (simp; done) | split)


@[simp] theorem State.pump_keeps (s : State) (n : Nat) :
    (State.pump s n).pending = s.pending
      ∧ (State.pump s n).part = s.part
      ∧ (State.pump s n).mc = s.mc
      ∧ (State.pump s n).vc = s.vc
      ∧ (State.pump s n).ftq = s.ftq
      ∧ (State.pump s n).pantry = s.pantry
      ∧ (State.pump s n).larder = s.larder
      ∧ (State.pump s n).cellar = s.cellar := by
  unfold State.pump
  try dsimp only
  repeat' (first | (simp; done) | split)


@[simp] theorem State.enqueue_keeps (s : State) (n : Nat) (fs : List OutFlit) :
    (State.enqueue s n fs).pending = s.pending
      ∧ (State.enqueue s n fs).part = s.part
      ∧ (State.enqueue s n fs).mc = s.mc
      ∧ (State.enqueue s n fs).vc = s.vc
      ∧ (State.enqueue s n fs).ftq = s.ftq
      ∧ (State.enqueue s n fs).pantry = s.pantry
      ∧ (State.enqueue s n fs).larder = s.larder
      ∧ (State.enqueue s n fs).cellar = s.cellar := by
  unfold State.enqueue
  try dsimp only
  repeat' (first | (simp; done) | split)


@[simp] theorem State.flood_keeps (s : State) (f : HaltFrame) :
    (State.flood s f).pending = s.pending
      ∧ (State.flood s f).part = s.part
      ∧ (State.flood s f).mc = s.mc
      ∧ (State.flood s f).vc = s.vc
      ∧ (State.flood s f).ftq = s.ftq
      ∧ (State.flood s f).pantry = s.pantry
      ∧ (State.flood s f).larder = s.larder
      ∧ (State.flood s f).cellar = s.cellar := by
  unfold State.flood
  try dsimp only
  repeat' (first | (simp; done) | split)


@[simp] theorem State.haltWith_keeps (s : State) (f : HaltFrame) :
    (State.haltWith s f).pending = s.pending
      ∧ (State.haltWith s f).part = s.part
      ∧ (State.haltWith s f).mc = s.mc
      ∧ (State.haltWith s f).vc = s.vc
      ∧ (State.haltWith s f).ftq = s.ftq
      ∧ (State.haltWith s f).pantry = s.pantry
      ∧ (State.haltWith s f).larder = s.larder
      ∧ (State.haltWith s f).cellar = s.cellar := by
  unfold State.haltWith
  try dsimp only
  repeat' (first | (simp; done) | split)


@[simp] theorem State.event_keeps (s : State) (code : BitVec 16) (body : List Byte) :
    (State.event s code body).pending = s.pending
      ∧ (State.event s code body).part = s.part
      ∧ (State.event s code body).mc = s.mc
      ∧ (State.event s code body).vc = s.vc
      ∧ (State.event s code body).ftq = s.ftq
      ∧ (State.event s code body).pantry = s.pantry
      ∧ (State.event s code body).larder = s.larder
      ∧ (State.event s code body).cellar = s.cellar := by
  unfold State.event
  try dsimp only
  repeat' (first | (simp; done) | split)


@[simp] theorem State.recordError_keeps (s : State) (cls : ErrClass) (escalated : Bool) (recordedOnly : Bool) (origin : BitVec 16) (inst : BitVec 8) (detail : W64) (prior : BitVec 32) :
    (State.recordError s cls escalated recordedOnly origin inst detail prior).pending = s.pending
      ∧ (State.recordError s cls escalated recordedOnly origin inst detail prior).part = s.part
      ∧ (State.recordError s cls escalated recordedOnly origin inst detail prior).mc = s.mc
      ∧ (State.recordError s cls escalated recordedOnly origin inst detail prior).vc = s.vc
      ∧ (State.recordError s cls escalated recordedOnly origin inst detail prior).ftq = s.ftq
      ∧ (State.recordError s cls escalated recordedOnly origin inst detail prior).pantry = s.pantry
      ∧ (State.recordError s cls escalated recordedOnly origin inst detail prior).larder = s.larder
      ∧ (State.recordError s cls escalated recordedOnly origin inst detail prior).cellar = s.cellar := by
  unfold State.recordError
  try dsimp only
  repeat' (first | (simp; done) | split)


@[simp] theorem State.raiseJobFatal_keeps (s : State) (escalated : Bool) (origin : BitVec 16) (inst : BitVec 8) (detail : W64) :
    (State.raiseJobFatal s escalated origin inst detail).pending = s.pending
      ∧ (State.raiseJobFatal s escalated origin inst detail).part = s.part
      ∧ (State.raiseJobFatal s escalated origin inst detail).mc = s.mc
      ∧ (State.raiseJobFatal s escalated origin inst detail).vc = s.vc
      ∧ (State.raiseJobFatal s escalated origin inst detail).ftq = s.ftq
      ∧ (State.raiseJobFatal s escalated origin inst detail).pantry = s.pantry
      ∧ (State.raiseJobFatal s escalated origin inst detail).larder = s.larder
      ∧ (State.raiseJobFatal s escalated origin inst detail).cellar = s.cellar := by
  unfold State.raiseJobFatal
  try dsimp only
  repeat' (first | (simp; done) | split)


@[simp] theorem State.stopModule_keeps (s : State) :
    (State.stopModule s).pending = s.pending
      ∧ (State.stopModule s).part = s.part
      ∧ (State.stopModule s).mc = s.mc
      ∧ (State.stopModule s).vc = s.vc
      ∧ (State.stopModule s).ftq = s.ftq
      ∧ (State.stopModule s).pantry = s.pantry
      ∧ (State.stopModule s).larder = s.larder
      ∧ (State.stopModule s).cellar = s.cellar := by
  unfold State.stopModule
  try dsimp only
  repeat' (first | (simp; done) | split)


@[simp] theorem State.raiseModuleFatal_keeps (s : State) (escalated : Bool) (origin : BitVec 16) (inst : BitVec 8) (detail : W64) (prior : BitVec 32) :
    (State.raiseModuleFatal s escalated origin inst detail prior).pending = s.pending
      ∧ (State.raiseModuleFatal s escalated origin inst detail prior).part = s.part
      ∧ (State.raiseModuleFatal s escalated origin inst detail prior).mc = s.mc
      ∧ (State.raiseModuleFatal s escalated origin inst detail prior).vc = s.vc
      ∧ (State.raiseModuleFatal s escalated origin inst detail prior).ftq = s.ftq
      ∧ (State.raiseModuleFatal s escalated origin inst detail prior).pantry = s.pantry
      ∧ (State.raiseModuleFatal s escalated origin inst detail prior).larder = s.larder
      ∧ (State.raiseModuleFatal s escalated origin inst detail prior).cellar = s.cellar := by
  unfold State.raiseModuleFatal
  try dsimp only
  repeat' (first | (simp; done) | split)


@[simp] theorem State.catchUp_keeps (s : State) :
    (State.catchUp s).pending = s.pending
      ∧ (State.catchUp s).part = s.part
      ∧ (State.catchUp s).mc = s.mc
      ∧ (State.catchUp s).vc = s.vc
      ∧ (State.catchUp s).ftq = s.ftq
      ∧ (State.catchUp s).pantry = s.pantry
      ∧ (State.catchUp s).larder = s.larder
      ∧ (State.catchUp s).cellar = s.cellar := by
  unfold State.catchUp
  try dsimp only
  repeat' (first | (simp; done) | split)


@[simp] theorem State.setIntegrityFault_keeps (s : State) (tower : Nat) (w : W64) :
    (State.setIntegrityFault s tower w).pending = s.pending
      ∧ (State.setIntegrityFault s tower w).part = s.part
      ∧ (State.setIntegrityFault s tower w).mc = s.mc
      ∧ (State.setIntegrityFault s tower w).vc = s.vc
      ∧ (State.setIntegrityFault s tower w).ftq = s.ftq
      ∧ (State.setIntegrityFault s tower w).pantry = s.pantry
      ∧ (State.setIntegrityFault s tower w).larder = s.larder
      ∧ (State.setIntegrityFault s tower w).cellar = s.cellar := by
  unfold State.setIntegrityFault
  try dsimp only
  repeat' (first | (simp; done) | split)


@[simp] theorem State.raiseTransient_keeps (s : State) (origin : BitVec 16) (inst : BitVec 8) (detail : W64) :
    (State.raiseTransient s origin inst detail).pending = s.pending
      ∧ (State.raiseTransient s origin inst detail).part = s.part
      ∧ (State.raiseTransient s origin inst detail).mc = s.mc
      ∧ (State.raiseTransient s origin inst detail).vc = s.vc
      ∧ (State.raiseTransient s origin inst detail).ftq = s.ftq
      ∧ (State.raiseTransient s origin inst detail).pantry = s.pantry
      ∧ (State.raiseTransient s origin inst detail).larder = s.larder
      ∧ (State.raiseTransient s origin inst detail).cellar = s.cellar := by
  unfold State.raiseTransient
  try dsimp only
  repeat' (first | (simp; done) | split)


@[simp] theorem State.raiseError_keeps (s : State) (cls : ErrClass) (origin : BitVec 16) (inst : BitVec 8) (detail : W64) :
    (State.raiseError s cls origin inst detail).pending = s.pending
      ∧ (State.raiseError s cls origin inst detail).part = s.part
      ∧ (State.raiseError s cls origin inst detail).mc = s.mc
      ∧ (State.raiseError s cls origin inst detail).vc = s.vc
      ∧ (State.raiseError s cls origin inst detail).ftq = s.ftq
      ∧ (State.raiseError s cls origin inst detail).pantry = s.pantry
      ∧ (State.raiseError s cls origin inst detail).larder = s.larder
      ∧ (State.raiseError s cls origin inst detail).cellar = s.cellar := by
  unfold State.raiseError
  try dsimp only
  repeat' (first | (simp; done) | split)


@[simp] theorem State.raisePostFault_keeps (s : State) (cause : Nat) (t : Nat) (agent : Nat) (d : PostDesc) :
    (State.raisePostFault s cause t agent d).pending = s.pending
      ∧ (State.raisePostFault s cause t agent d).part = s.part
      ∧ (State.raisePostFault s cause t agent d).mc = s.mc
      ∧ (State.raisePostFault s cause t agent d).vc = s.vc
      ∧ (State.raisePostFault s cause t agent d).ftq = s.ftq
      ∧ (State.raisePostFault s cause t agent d).pantry = s.pantry
      ∧ (State.raisePostFault s cause t agent d).larder = s.larder
      ∧ (State.raisePostFault s cause t agent d).cellar = s.cellar := by
  unfold State.raisePostFault
  try dsimp only
  repeat' (first | (simp; done) | split)


@[simp] theorem State.setVcore_keeps (s : State) (h : Nat) (v : VCore) :
    (State.setVcore s h v).pending = s.pending
      ∧ (State.setVcore s h v).part = s.part
      ∧ (State.setVcore s h v).mc = s.mc
      ∧ (State.setVcore s h v).ftq = s.ftq
      ∧ (State.setVcore s h v).pantry = s.pantry
      ∧ (State.setVcore s h v).larder = s.larder
      ∧ (State.setVcore s h v).cellar = s.cellar := by
  unfold State.setVcore
  try dsimp only
  repeat' (first | (simp; done) | split)


@[simp] theorem State.raiseIntegrity_keeps (s : State) (cls : ErrClass) (tower : Nat) (cause : Nat) (where_ : Nat) (index : Nat) (agent : Nat) :
    (State.raiseIntegrity s cls tower cause where_ index agent).pending = s.pending
      ∧ (State.raiseIntegrity s cls tower cause where_ index agent).part = s.part
      ∧ (State.raiseIntegrity s cls tower cause where_ index agent).mc = s.mc
      ∧ (State.raiseIntegrity s cls tower cause where_ index agent).vc = s.vc
      ∧ (State.raiseIntegrity s cls tower cause where_ index agent).ftq = s.ftq
      ∧ (State.raiseIntegrity s cls tower cause where_ index agent).pantry = s.pantry
      ∧ (State.raiseIntegrity s cls tower cause where_ index agent).larder = s.larder
      ∧ (State.raiseIntegrity s cls tower cause where_ index agent).cellar = s.cellar := by
  unfold State.raiseIntegrity
  try dsimp only
  repeat' (first | (simp; done) | split)


@[simp] theorem State.setHandleFault_keeps (s : State) (t : Nat) (w : W64) :
    (State.setHandleFault s t w).pending = s.pending
      ∧ (State.setHandleFault s t w).part = s.part
      ∧ (State.setHandleFault s t w).mc = s.mc
      ∧ (State.setHandleFault s t w).vc = s.vc
      ∧ (State.setHandleFault s t w).ftq = s.ftq
      ∧ (State.setHandleFault s t w).pantry = s.pantry
      ∧ (State.setHandleFault s t w).larder = s.larder
      ∧ (State.setHandleFault s t w).cellar = s.cellar := by
  unfold State.setHandleFault
  try dsimp only
  repeat' (first | (simp; done) | split)


@[simp] theorem State.mismatch_keeps (s : State) (tower : Nat) (where_ : Nat) (index : Nat) (agent : Nat) :
    (State.mismatch s tower where_ index agent).pending = s.pending
      ∧ (State.mismatch s tower where_ index agent).part = s.part
      ∧ (State.mismatch s tower where_ index agent).mc = s.mc
      ∧ (State.mismatch s tower where_ index agent).vc = s.vc
      ∧ (State.mismatch s tower where_ index agent).ftq = s.ftq
      ∧ (State.mismatch s tower where_ index agent).pantry = s.pantry
      ∧ (State.mismatch s tower where_ index agent).larder = s.larder
      ∧ (State.mismatch s tower where_ index agent).cellar = s.cellar := by
  unfold State.mismatch
  try dsimp only
  repeat' (first | (simp; done) | split)


@[simp] theorem State.setPost_keeps (s : State) (k : Nat) (p : Post) :
    (State.setPost s k p).pending = s.pending
      ∧ (State.setPost s k p).part = s.part
      ∧ (State.setPost s k p).mc = s.mc
      ∧ (State.setPost s k p).vc = s.vc
      ∧ (State.setPost s k p).ftq = s.ftq
      ∧ (State.setPost s k p).pantry = s.pantry
      ∧ (State.setPost s k p).larder = s.larder
      ∧ (State.setPost s k p).cellar = s.cellar := by
  unfold State.setPost
  try dsimp only
  repeat' (first | (simp; done) | split)


@[simp] theorem State.setStage_keeps (s : State) (k : Nat) (g : Stage) :
    (State.setStage s k g).pending = s.pending
      ∧ (State.setStage s k g).part = s.part
      ∧ (State.setStage s k g).mc = s.mc
      ∧ (State.setStage s k g).vc = s.vc
      ∧ (State.setStage s k g).ftq = s.ftq
      ∧ (State.setStage s k g).pantry = s.pantry
      ∧ (State.setStage s k g).larder = s.larder
      ∧ (State.setStage s k g).cellar = s.cellar := by
  unfold State.setStage
  try dsimp only
  repeat' (first | (simp; done) | split)


@[simp] theorem State.stageSend_keeps (s : State) (h : Nat) (d : PostDesc) (granule : Nat) (b : Nat) :
    (State.stageSend s h d granule b).1.pending = s.pending
      ∧ (State.stageSend s h d granule b).1.part = s.part
      ∧ (State.stageSend s h d granule b).1.mc = s.mc
      ∧ (State.stageSend s h d granule b).1.vc = s.vc
      ∧ (State.stageSend s h d granule b).1.ftq = s.ftq
      ∧ (State.stageSend s h d granule b).1.pantry = s.pantry
      ∧ (State.stageSend s h d granule b).1.larder = s.larder
      ∧ (State.stageSend s h d granule b).1.cellar = s.cellar := by
  unfold State.stageSend
  try dsimp only
  repeat' (first | (simp; done) | split)


@[simp] theorem State.setPantry_keeps (s : State) (key : Nat) (m : Memory) :
    (State.setPantry s key m).pending = s.pending
      ∧ (State.setPantry s key m).part = s.part
      ∧ (State.setPantry s key m).mc = s.mc
      ∧ (State.setPantry s key m).vc = s.vc
      ∧ (State.setPantry s key m).ftq = s.ftq
      ∧ (State.setPantry s key m).larder = s.larder
      ∧ (State.setPantry s key m).cellar = s.cellar := by
  unfold State.setPantry
  try dsimp only
  repeat' (first | (simp; done) | split)


@[simp] theorem State.pantryWrite_keeps (s : State) (key : Nat) (a : Nat) (bs : List Byte) :
    (State.pantryWrite s key a bs).pending = s.pending
      ∧ (State.pantryWrite s key a bs).part = s.part
      ∧ (State.pantryWrite s key a bs).mc = s.mc
      ∧ (State.pantryWrite s key a bs).vc = s.vc
      ∧ (State.pantryWrite s key a bs).ftq = s.ftq
      ∧ (State.pantryWrite s key a bs).larder = s.larder
      ∧ (State.pantryWrite s key a bs).cellar = s.cellar := by
  unfold State.pantryWrite
  try dsimp only
  repeat' (first | (simp; done) | split)


@[simp] theorem State.writeOutcome_keeps (s : State) (h : Nat) (granule : Nat) (code : BitVec 2) :
    (State.writeOutcome s h granule code).pending = s.pending
      ∧ (State.writeOutcome s h granule code).part = s.part
      ∧ (State.writeOutcome s h granule code).mc = s.mc
      ∧ (State.writeOutcome s h granule code).vc = s.vc
      ∧ (State.writeOutcome s h granule code).ftq = s.ftq
      ∧ (State.writeOutcome s h granule code).larder = s.larder
      ∧ (State.writeOutcome s h granule code).cellar = s.cellar := by
  unfold State.writeOutcome
  try dsimp only
  repeat' (first | (simp; done) | split)


@[simp] theorem State.sendRead_keeps (s : State) (h : Nat) (granule : Nat) (sd : BitVec 5) (d : PostDesc) (staged : Nat) :
    (State.sendRead s h granule sd d staged).pending = s.pending
      ∧ (State.sendRead s h granule sd d staged).part = s.part
      ∧ (State.sendRead s h granule sd d staged).mc = s.mc
      ∧ (State.sendRead s h granule sd d staged).ftq = s.ftq
      ∧ (State.sendRead s h granule sd d staged).larder = s.larder
      ∧ (State.sendRead s h granule sd d staged).cellar = s.cellar := by
  unfold State.sendRead
  try dsimp only
  repeat' (first | (simp; done) | split)


@[simp] theorem State.setPorter_keeps (s : State) (k : Nat) (p : Porter) :
    (State.setPorter s k p).pending = s.pending
      ∧ (State.setPorter s k p).part = s.part
      ∧ (State.setPorter s k p).mc = s.mc
      ∧ (State.setPorter s k p).vc = s.vc
      ∧ (State.setPorter s k p).ftq = s.ftq
      ∧ (State.setPorter s k p).pantry = s.pantry
      ∧ (State.setPorter s k p).larder = s.larder
      ∧ (State.setPorter s k p).cellar = s.cellar := by
  unfold State.setPorter
  try dsimp only
  repeat' (first | (simp; done) | split)


@[simp] theorem State.setReckoner_keeps (s : State) (t : Nat) (r : Reckoner) :
    (State.setReckoner s t r).pending = s.pending
      ∧ (State.setReckoner s t r).part = s.part
      ∧ (State.setReckoner s t r).mc = s.mc
      ∧ (State.setReckoner s t r).vc = s.vc
      ∧ (State.setReckoner s t r).ftq = s.ftq
      ∧ (State.setReckoner s t r).pantry = s.pantry
      ∧ (State.setReckoner s t r).larder = s.larder
      ∧ (State.setReckoner s t r).cellar = s.cellar := by
  unfold State.setReckoner
  try dsimp only
  repeat' (first | (simp; done) | split)


@[simp] theorem State.deliver_keeps (s : State) (r : Run) (i : Nat) (ws : List Memory) (got : List Memory) :
    (State.deliver s r i ws got).pending = s.pending
      ∧ (State.deliver s r i ws got).part = s.part
      ∧ (State.deliver s r i ws got).ftq = s.ftq
      ∧ (State.deliver s r i ws got).larder = s.larder
      ∧ (State.deliver s r i ws got).cellar = s.cellar := by
  unfold State.deliver
  try dsimp only
  repeat' (first | (simp; done) | split)


@[simp] theorem State.dropRun_keeps (s : State) (n : Nat) :
    (State.dropRun s n).pending = s.pending
      ∧ (State.dropRun s n).part = s.part
      ∧ (State.dropRun s n).mc = s.mc
      ∧ (State.dropRun s n).vc = s.vc
      ∧ (State.dropRun s n).ftq = s.ftq
      ∧ (State.dropRun s n).pantry = s.pantry
      ∧ (State.dropRun s n).larder = s.larder
      ∧ (State.dropRun s n).cellar = s.cellar := by
  unfold State.dropRun
  try dsimp only
  repeat' (first | (simp; done) | split)


@[simp] theorem State.handleFault_keeps (s : State) (t : Nat) (cause : Nat) (handle : Nat) (agent : Nat) (offset : Nat) :
    (State.handleFault s t cause handle agent offset).pending = s.pending
      ∧ (State.handleFault s t cause handle agent offset).part = s.part
      ∧ (State.handleFault s t cause handle agent offset).mc = s.mc
      ∧ (State.handleFault s t cause handle agent offset).vc = s.vc
      ∧ (State.handleFault s t cause handle agent offset).ftq = s.ftq
      ∧ (State.handleFault s t cause handle agent offset).pantry = s.pantry
      ∧ (State.handleFault s t cause handle agent offset).larder = s.larder
      ∧ (State.handleFault s t cause handle agent offset).cellar = s.cellar := by
  unfold State.handleFault
  try dsimp only
  repeat' (first | (simp; done) | split)


theorem State.logitFault_keeps {s t : State} {tw k o : Nat}
    (hn : State.logitFault s tw k o = some t) :
    t.pending = s.pending ∧ t.part = s.part ∧ t.mc = s.mc ∧ t.vc = s.vc ∧ t.ftq = s.ftq ∧ t.pantry = s.pantry ∧ t.larder = s.larder ∧ t.cellar = s.cellar := by
  unfold State.logitFault at hn
  dsimp only at hn
  repeat' split at hn
  all_goals first | (cases hn; done) | (obtain rfl := Option.some.inj hn; simp; done) | exact State.guardFault_keeps hn


@[simp] theorem State.guardRaise_keeps (s : State) (cause : Nat) (t : Nat) (handle : Nat) (slot : Nat) (agent : Nat) :
    (State.guardRaise s cause t handle slot agent).pending = s.pending
      ∧ (State.guardRaise s cause t handle slot agent).part = s.part
      ∧ (State.guardRaise s cause t handle slot agent).mc = s.mc
      ∧ (State.guardRaise s cause t handle slot agent).vc = s.vc
      ∧ (State.guardRaise s cause t handle slot agent).ftq = s.ftq
      ∧ (State.guardRaise s cause t handle slot agent).pantry = s.pantry
      ∧ (State.guardRaise s cause t handle slot agent).larder = s.larder
      ∧ (State.guardRaise s cause t handle slot agent).cellar = s.cellar := by
  unfold State.guardRaise
  try dsimp only
  repeat' (first | (simp; done) | split)


theorem State.guardFault_keeps {s t : State} {a b c : Nat} {w : Bool} {n : Nat}
    (hn : State.guardFault s a b c w n = some t) :
    t.pending = s.pending ∧ t.part = s.part ∧ t.mc = s.mc ∧ t.vc = s.vc ∧ t.ftq = s.ftq ∧ t.pantry = s.pantry ∧ t.larder = s.larder ∧ t.cellar = s.cellar := by
  unfold State.guardFault at hn
  dsimp only at hn
  repeat' split at hn
  all_goals first | (cases hn; done) | (obtain rfl := Option.some.inj hn; simp; done) | (obtain ⟨f, _, rfl⟩ := Option.map_eq_some_iff.mp hn; simp)


theorem State.rowFault_keeps {s t : State} {h c k o : Nat} {all : List Nat} {write : Bool}
    (hn : State.rowFault s h c k o all write = some t) :
    t.pending = s.pending ∧ t.part = s.part ∧ t.mc = s.mc ∧ t.vc = s.vc ∧ t.ftq = s.ftq ∧ t.pantry = s.pantry ∧ t.larder = s.larder ∧ t.cellar = s.cellar := by
  unfold State.rowFault at hn
  dsimp only at hn
  split at hn
  · obtain rfl := Option.some.inj hn; simp
  · split at hn
    · obtain rfl := Option.some.inj hn; simp
    · exact State.guardFault_keeps hn


theorem State.placeFault_keeps {s t : State} {p : Place} {write : Bool}
    (hn : State.placeFault s p write = some t) :
    t.pending = s.pending ∧ t.part = s.part ∧ t.mc = s.mc ∧ t.vc = s.vc ∧ t.ftq = s.ftq ∧ t.pantry = s.pantry ∧ t.larder = s.larder ∧ t.cellar = s.cellar := by
  unfold State.placeFault at hn
  split at hn
  · cases hn
  · exact State.rowFault_keeps hn
  · exact State.logitFault_keeps hn


@[simp] theorem State.readAhead_keeps (s : State) (k : Nat) (start : Nat) (u : Nat) :
    (State.readAhead s k start u).pending = s.pending
      ∧ (State.readAhead s k start u).part = s.part
      ∧ (State.readAhead s k start u).mc = s.mc
      ∧ (State.readAhead s k start u).vc = s.vc
      ∧ (State.readAhead s k start u).ftq = s.ftq
      ∧ (State.readAhead s k start u).pantry = s.pantry
      ∧ (State.readAhead s k start u).larder = s.larder
      ∧ (State.readAhead s k start u).cellar = s.cellar := by
  unfold State.readAhead
  try dsimp only
  repeat' (first | (simp; done) | split)


theorem State.rowsFault_keeps {s t : State} {k : Nat} {e : Endpoint} {h lo hi : Nat} {write : Bool}
    (hn : State.rowsFault s k e h lo hi write = some t) :
    t.pending = s.pending ∧ t.part = s.part ∧ t.mc = s.mc ∧ t.vc = s.vc ∧ t.ftq = s.ftq ∧ t.pantry = s.pantry ∧ t.larder = s.larder ∧ t.cellar = s.cellar := by
  unfold State.rowsFault at hn
  dsimp only at hn
  split at hn
  · obtain rfl := Option.some.inj hn; simp
  · split at hn
    · obtain rfl := Option.some.inj hn; simp
    · obtain ⟨o, _, h⟩ := List.exists_of_findSome?_eq_some hn; exact State.guardFault_keeps h


@[simp] theorem State.setTransfers_keeps (s : State) (k : Nat) (ts : List Transfer) :
    (State.setTransfers s k ts).pending = s.pending
      ∧ (State.setTransfers s k ts).part = s.part
      ∧ (State.setTransfers s k ts).mc = s.mc
      ∧ (State.setTransfers s k ts).vc = s.vc
      ∧ (State.setTransfers s k ts).ftq = s.ftq
      ∧ (State.setTransfers s k ts).pantry = s.pantry
      ∧ (State.setTransfers s k ts).larder = s.larder
      ∧ (State.setTransfers s k ts).cellar = s.cellar := by
  unfold State.setTransfers
  try dsimp only
  repeat' (first | (simp; done) | split)


@[simp] theorem State.updTransfer_keeps (s : State) (k : Nat) (start : Nat) (f : Transfer → Transfer) :
    (State.updTransfer s k start f).pending = s.pending
      ∧ (State.updTransfer s k start f).part = s.part
      ∧ (State.updTransfer s k start f).mc = s.mc
      ∧ (State.updTransfer s k start f).vc = s.vc
      ∧ (State.updTransfer s k start f).ftq = s.ftq
      ∧ (State.updTransfer s k start f).pantry = s.pantry
      ∧ (State.updTransfer s k start f).larder = s.larder
      ∧ (State.updTransfer s k start f).cellar = s.cellar := by
  unfold State.updTransfer
  try dsimp only
  repeat' (first | (simp; done) | split)


@[simp] theorem State.readSource_keeps (s : State) (k : Nat) (start : Nat) (lo : Nat) (hi : Nat) :
    (State.readSource s k start lo hi).pending = s.pending
      ∧ (State.readSource s k start lo hi).part = s.part
      ∧ (State.readSource s k start lo hi).mc = s.mc
      ∧ (State.readSource s k start lo hi).vc = s.vc
      ∧ (State.readSource s k start lo hi).ftq = s.ftq
      ∧ (State.readSource s k start lo hi).pantry = s.pantry
      ∧ (State.readSource s k start lo hi).larder = s.larder
      ∧ (State.readSource s k start lo hi).cellar = s.cellar := by
  unfold State.readSource
  split
  · simp
  · dsimp only
    split
    · next h =>
      split at h
      · exact State.rowsFault_keeps h
      · cases h
    · simp


@[simp] theorem State.draw_keeps (s : State) :
    (State.draw s).1.pending = s.pending
      ∧ (State.draw s).1.part = s.part
      ∧ (State.draw s).1.mc = s.mc
      ∧ (State.draw s).1.vc = s.vc
      ∧ (State.draw s).1.ftq = s.ftq
      ∧ (State.draw s).1.pantry = s.pantry
      ∧ (State.draw s).1.larder = s.larder
      ∧ (State.draw s).1.cellar = s.cellar := by
  unfold State.draw
  try dsimp only
  repeat' (first | (simp; done) | split)


@[simp] theorem State.hopSlip_keeps (s : State) (k : Nat) (srank : BitVec 16) (due : Nat) (b : Nat) :
    (State.hopSlip s k srank due b).pending = s.pending
      ∧ (State.hopSlip s k srank due b).part = s.part
      ∧ (State.hopSlip s k srank due b).mc = s.mc
      ∧ (State.hopSlip s k srank due b).vc = s.vc
      ∧ (State.hopSlip s k srank due b).ftq = s.ftq
      ∧ (State.hopSlip s k srank due b).pantry = s.pantry
      ∧ (State.hopSlip s k srank due b).larder = s.larder
      ∧ (State.hopSlip s k srank due b).cellar = s.cellar := by
  unfold State.hopSlip
  try dsimp only
  repeat' (first | (simp; done) | split)


@[simp] theorem State.slipCheck_keeps (s : State) (k : Nat) (srank : BitVec 16) (dues : List Nat) (b : Nat) :
    (State.slipCheck s k srank dues b).pending = s.pending
      ∧ (State.slipCheck s k srank dues b).part = s.part
      ∧ (State.slipCheck s k srank dues b).mc = s.mc
      ∧ (State.slipCheck s k srank dues b).vc = s.vc
      ∧ (State.slipCheck s k srank dues b).ftq = s.ftq
      ∧ (State.slipCheck s k srank dues b).pantry = s.pantry
      ∧ (State.slipCheck s k srank dues b).larder = s.larder
      ∧ (State.slipCheck s k srank dues b).cellar = s.cellar := by
  unfold State.slipCheck
  try dsimp only
  repeat' (first | (simp; done) | split)


@[simp] theorem State.updRun_keeps (s : State) (n : Nat) (f : Run → Run) :
    (State.updRun s n f).pending = s.pending
      ∧ (State.updRun s n f).part = s.part
      ∧ (State.updRun s n f).mc = s.mc
      ∧ (State.updRun s n f).vc = s.vc
      ∧ (State.updRun s n f).ftq = s.ftq
      ∧ (State.updRun s n f).pantry = s.pantry
      ∧ (State.updRun s n f).larder = s.larder
      ∧ (State.updRun s n f).cellar = s.cellar := by
  unfold State.updRun
  try dsimp only
  repeat' (first | (simp; done) | split)


@[simp] theorem State.setSlice_keeps (s : State) (k : Nat) (m : Memory) :
    (State.setSlice s k m).pending = s.pending
      ∧ (State.setSlice s k m).part = s.part
      ∧ (State.setSlice s k m).mc = s.mc
      ∧ (State.setSlice s k m).vc = s.vc
      ∧ (State.setSlice s k m).ftq = s.ftq
      ∧ (State.setSlice s k m).pantry = s.pantry
      ∧ (State.setSlice s k m).cellar = s.cellar := by
  unfold State.setSlice
  try dsimp only
  repeat' (first | (simp; done) | split)


@[simp] theorem State.writeRow_keeps (s : State) (k : Nat) (row0 : Nat) (off : Nat) (grid : Bool) (w : Memory) :
    (State.writeRow s k row0 off grid w).pending = s.pending
      ∧ (State.writeRow s k row0 off grid w).part = s.part
      ∧ (State.writeRow s k row0 off grid w).mc = s.mc
      ∧ (State.writeRow s k row0 off grid w).vc = s.vc
      ∧ (State.writeRow s k row0 off grid w).ftq = s.ftq
      ∧ (State.writeRow s k row0 off grid w).pantry = s.pantry
      ∧ (State.writeRow s k row0 off grid w).cellar = s.cellar := by
  unfold State.writeRow
  try dsimp only
  repeat' (first | (simp; done) | split)


@[simp] theorem State.writePlace_keeps (s : State) (p : Place) (mask : BitVec 512) (bs : List Byte) :
    (State.writePlace s p mask bs).pending = s.pending
      ∧ (State.writePlace s p mask bs).part = s.part
      ∧ (State.writePlace s p mask bs).mc = s.mc
      ∧ (State.writePlace s p mask bs).vc = s.vc
      ∧ (State.writePlace s p mask bs).ftq = s.ftq
      ∧ (State.writePlace s p mask bs).cellar = s.cellar := by
  unfold State.writePlace
  try dsimp only
  repeat' (first | (simp; done) | split)


@[simp] theorem State.unstage_keeps (s : State) (k : Nat) (larder : Bool) (places : List Nat) :
    (State.unstage s k larder places).pending = s.pending
      ∧ (State.unstage s k larder places).part = s.part
      ∧ (State.unstage s k larder places).mc = s.mc
      ∧ (State.unstage s k larder places).vc = s.vc
      ∧ (State.unstage s k larder places).ftq = s.ftq
      ∧ (State.unstage s k larder places).pantry = s.pantry
      ∧ (State.unstage s k larder places).larder = s.larder
      ∧ (State.unstage s k larder places).cellar = s.cellar := by
  unfold State.unstage
  try dsimp only
  repeat' (first | (simp; done) | split)


@[simp] theorem State.setStack_keeps (s : State) (k : Nat) (m : Memory) :
    (State.setStack s k m).pending = s.pending
      ∧ (State.setStack s k m).part = s.part
      ∧ (State.setStack s k m).mc = s.mc
      ∧ (State.setStack s k m).vc = s.vc
      ∧ (State.setStack s k m).ftq = s.ftq
      ∧ (State.setStack s k m).pantry = s.pantry
      ∧ (State.setStack s k m).larder = s.larder := by
  unfold State.setStack
  try dsimp only
  repeat' (first | (simp; done) | split)


@[simp] theorem State.storeBlock_keeps (s : State) (k : Nat) (a : Nat) (o : Nat) (n : Nat) (w : Memory) :
    (State.storeBlock s k a o n w).pending = s.pending
      ∧ (State.storeBlock s k a o n w).part = s.part
      ∧ (State.storeBlock s k a o n w).mc = s.mc
      ∧ (State.storeBlock s k a o n w).vc = s.vc
      ∧ (State.storeBlock s k a o n w).ftq = s.ftq
      ∧ (State.storeBlock s k a o n w).pantry = s.pantry
      ∧ (State.storeBlock s k a o n w).larder = s.larder := by
  unfold State.storeBlock
  try dsimp only
  repeat' (first | (simp; done) | split)


@[simp] theorem State.writeSpot_keeps (s : State) (bs : List Byte) (x2 : Spot) :
    (State.writeSpot s bs x2).pending = s.pending
      ∧ (State.writeSpot s bs x2).part = s.part
      ∧ (State.writeSpot s bs x2).mc = s.mc
      ∧ (State.writeSpot s bs x2).vc = s.vc
      ∧ (State.writeSpot s bs x2).ftq = s.ftq := by
  unfold State.writeSpot
  try dsimp only
  repeat' (first | (simp; done) | split)

@[simp] theorem State.writeOut_keeps (s : State) (e : Endpoint) (h : Nat) (lo : Nat) (hi : Nat) (buf : Memory) :
    (State.writeOut s e h lo hi buf).pending = s.pending
      ∧ (State.writeOut s e h lo hi buf).part = s.part
      ∧ (State.writeOut s e h lo hi buf).mc = s.mc
      ∧ (State.writeOut s e h lo hi buf).vc = s.vc
      ∧ (State.writeOut s e h lo hi buf).ftq = s.ftq := by
  unfold State.writeOut
  try dsimp only
  repeat' (first | (simp; done) | split)


@[simp] theorem State.writeRegion_keeps (s : State) (k : Nat) (e : Endpoint) (h : Nat) (lo : Nat) (hi : Nat) (data : Memory) :
    (State.writeRegion s k e h lo hi data).pending = s.pending
      ∧ (State.writeRegion s k e h lo hi data).part = s.part
      ∧ (State.writeRegion s k e h lo hi data).mc = s.mc
      ∧ (State.writeRegion s k e h lo hi data).vc = s.vc
      ∧ (State.writeRegion s k e h lo hi data).ftq = s.ftq := by
  unfold State.writeRegion
  split
  · next h =>
    obtain ⟨h1, h2, h3, h4, h5, h6, h7, h8⟩ := State.rowsFault_keeps h
    simp [*]
  · simp


@[simp] theorem State.perform_keeps (s : State) (r : Run) :
    (State.perform s r).pending = s.pending
      ∧ (State.perform s r).part = s.part
      ∧ (State.perform s r).ftq = s.ftq := by
  unfold State.perform
  dsimp only
  split
  · simp
  · split
    · next h =>
      obtain ⟨p, _, hp⟩ := List.exists_of_findSome?_eq_some h
      obtain ⟨h1, h2, h3, h4, h5, h6, h7, h8⟩ := State.placeFault_keeps hp
      simp [h1, h2, h5]
    · simp
  · split
    · next h =>
      obtain ⟨h1, h2, h3, h4, h5, h6, h7, h8⟩ := State.placeFault_keeps h
      simp [h1, h2, h5]
    · simp
  · simp
  · simp
  · simp


@[simp] theorem State.serve_keeps (x0 : Nat) (x1 : State) (x2 : Nat) :
    (State.serve x0 x1 x2).pending = x1.pending
      ∧ (State.serve x0 x1 x2).part = x1.part
      ∧ (State.serve x0 x1 x2).ftq = x1.ftq := by
  induction x0 generalizing x1 with
  | zero => simp [State.serve]
  | succ n ih =>
    unfold State.serve
    split
    · split
      · simp
      · simp [ih]
    · simp


@[simp] theorem State.toBeat_keeps (s : State) (b : Nat) :
    (State.toBeat s b).pending = s.pending
      ∧ (State.toBeat s b).part = s.part
      ∧ (State.toBeat s b).ftq = s.ftq := by
  unfold State.toBeat
  try dsimp only
  repeat' (first | (simp; done) | split)


@[simp] theorem State.onBeat_pending (s : State) (b : Nat) (f : State → State)
    (hf : ∀ s, (f s).pending = s.pending) : (s.onBeat b f).pending = s.pending := by
  unfold State.onBeat
  dsimp only
  split
  · simp [hf]
  · simp

@[simp] theorem State.onBeat_part (s : State) (b : Nat) (f : State → State)
    (hf : ∀ s, (f s).part = s.part) : (s.onBeat b f).part = s.part := by
  unfold State.onBeat
  dsimp only
  split
  · simp [hf]
  · simp

@[simp] theorem State.onBeat_ftq (s : State) (b : Nat) (f : State → State)
    (hf : ∀ s, (f s).ftq = s.ftq) : (s.onBeat b f).ftq = s.ftq := by
  unfold State.onBeat
  dsimp only
  split
  · simp [hf]
  · simp



@[simp] theorem State.routeRecord_keeps (s : State) (w : W64) :
    (State.routeRecord s w).pending = s.pending
      ∧ (State.routeRecord s w).part = s.part
      ∧ (State.routeRecord s w).mc = s.mc
      ∧ (State.routeRecord s w).vc = s.vc
      ∧ (State.routeRecord s w).ftq = s.ftq
      ∧ (State.routeRecord s w).pantry = s.pantry
      ∧ (State.routeRecord s w).larder = s.larder
      ∧ (State.routeRecord s w).cellar = s.cellar := by
  unfold State.routeRecord
  try dsimp only
  repeat' (first | (simp; done) | split)


@[simp] theorem State.routeFault_keeps (s : State) (cause : Nat) (drank : BitVec 16) (srank : BitVec 16) (arrived : Nat) (tag : BitVec 16) :
    (State.routeFault s cause drank srank arrived tag).pending = s.pending
      ∧ (State.routeFault s cause drank srank arrived tag).part = s.part
      ∧ (State.routeFault s cause drank srank arrived tag).mc = s.mc
      ∧ (State.routeFault s cause drank srank arrived tag).vc = s.vc
      ∧ (State.routeFault s cause drank srank arrived tag).ftq = s.ftq
      ∧ (State.routeFault s cause drank srank arrived tag).pantry = s.pantry
      ∧ (State.routeFault s cause drank srank arrived tag).larder = s.larder
      ∧ (State.routeFault s cause drank srank arrived tag).cellar = s.cellar := by
  unfold State.routeFault
  try dsimp only
  repeat' (first | (simp; done) | split)


@[simp] theorem State.routeFailed_keeps (s : State) (r : RouteTo) (drank : BitVec 16) (srank : BitVec 16) (arrived : Nat) (tag : BitVec 16) :
    (State.routeFailed s r drank srank arrived tag).pending = s.pending
      ∧ (State.routeFailed s r drank srank arrived tag).part = s.part
      ∧ (State.routeFailed s r drank srank arrived tag).mc = s.mc
      ∧ (State.routeFailed s r drank srank arrived tag).vc = s.vc
      ∧ (State.routeFailed s r drank srank arrived tag).ftq = s.ftq
      ∧ (State.routeFailed s r drank srank arrived tag).pantry = s.pantry
      ∧ (State.routeFailed s r drank srank arrived tag).larder = s.larder
      ∧ (State.routeFailed s r drank srank arrived tag).cellar = s.cellar := by
  unfold State.routeFailed
  try dsimp only
  repeat' (first | (simp; done) | split)


@[simp] theorem State.sendSingle_keeps (s : State) (cls : BitVec 3) (kind : BitVec 8) (drank : BitVec 16) (body : BitVec 960) :
    (State.sendSingle s cls kind drank body).pending = s.pending
      ∧ (State.sendSingle s cls kind drank body).part = s.part
      ∧ (State.sendSingle s cls kind drank body).mc = s.mc
      ∧ (State.sendSingle s cls kind drank body).vc = s.vc
      ∧ (State.sendSingle s cls kind drank body).ftq = s.ftq
      ∧ (State.sendSingle s cls kind drank body).pantry = s.pantry
      ∧ (State.sendSingle s cls kind drank body).larder = s.larder
      ∧ (State.sendSingle s cls kind drank body).cellar = s.cellar := by
  unfold State.sendSingle
  try dsimp only
  repeat' (first | (simp; done) | split)


@[simp] theorem State.releaseReply_keeps (s : State) (g : Nat) (d : PostDesc) :
    (State.releaseReply s g d).pending = s.pending
      ∧ (State.releaseReply s g d).part = s.part
      ∧ (State.releaseReply s g d).mc = s.mc
      ∧ (State.releaseReply s g d).vc = s.vc
      ∧ (State.releaseReply s g d).ftq = s.ftq
      ∧ (State.releaseReply s g d).pantry = s.pantry
      ∧ (State.releaseReply s g d).larder = s.larder
      ∧ (State.releaseReply s g d).cellar = s.cellar := by
  unfold State.releaseReply
  try dsimp only
  repeat' (first | (simp; done) | split)


@[simp] theorem State.settle_keeps (s : State) (g : Nat) (num : BitVec 32) (closed : Bool) (b : Nat) (path : Nat) :
    (State.settle s g num closed b path).pending = s.pending
      ∧ (State.settle s g num closed b path).part = s.part
      ∧ (State.settle s g num closed b path).mc = s.mc
      ∧ (State.settle s g num closed b path).vc = s.vc
      ∧ (State.settle s g num closed b path).ftq = s.ftq
      ∧ (State.settle s g num closed b path).pantry = s.pantry
      ∧ (State.settle s g num closed b path).larder = s.larder
      ∧ (State.settle s g num closed b path).cellar = s.cellar := by
  unfold State.settle
  try dsimp only
  repeat' (first | (simp; done) | split)


@[simp] theorem State.sendOutcome_keeps (s : State) (k : Nat) (a : PostArrival) (closed : Bool) (b : Nat) :
    (State.sendOutcome s k a closed b).pending = s.pending
      ∧ (State.sendOutcome s k a closed b).part = s.part
      ∧ (State.sendOutcome s k a closed b).mc = s.mc
      ∧ (State.sendOutcome s k a closed b).vc = s.vc
      ∧ (State.sendOutcome s k a closed b).ftq = s.ftq
      ∧ (State.sendOutcome s k a closed b).pantry = s.pantry
      ∧ (State.sendOutcome s k a closed b).larder = s.larder
      ∧ (State.sendOutcome s k a closed b).cellar = s.cellar := by
  unfold State.sendOutcome
  try dsimp only
  repeat' (first | (simp; done) | split)


@[simp] theorem State.acceptPost_keeps (s : State) (k : Nat) (a : PostArrival) (b : Nat) :
    (State.acceptPost s k a b).pending = s.pending
      ∧ (State.acceptPost s k a b).part = s.part
      ∧ (State.acceptPost s k a b).ftq = s.ftq := by
  unfold State.acceptPost
  try dsimp only
  repeat' (first | (simp; done) | refine (foldl_pending _ _ _ fun _ _ => ?_).trans ?_ | refine (foldl_part _ _ _ fun _ _ => ?_).trans ?_ | refine (foldl_ftq _ _ _ fun _ _ => ?_).trans ?_ | refine (State.onBeat_pending _ _ _ ?_).trans ?_ | refine (State.onProgram_pending _ _ _ ?_).trans ?_ | refine (State.completeAt_pending _ _ _ _ _ ?_).trans ?_ | refine (State.onBeat_part _ _ _ ?_).trans ?_ | refine (State.onProgram_part _ _ _ ?_).trans ?_ | refine (State.completeAt_part _ _ _ _ _ ?_).trans ?_ | refine (State.onBeat_ftq _ _ _ ?_).trans ?_ | refine (State.onProgram_ftq _ _ _ ?_).trans ?_ | refine (State.completeAt_ftq _ _ _ _ _ ?_).trans ?_ | intro _ | split | refine And.intro ?_ ?_ | simp)


@[simp] theorem State.acceptSwitch_keeps (s : State) :
    (State.acceptSwitch s).pending = s.pending
      ∧ (State.acceptSwitch s).part = s.part
      ∧ (State.acceptSwitch s).mc = s.mc
      ∧ (State.acceptSwitch s).vc = s.vc
      ∧ (State.acceptSwitch s).ftq = s.ftq
      ∧ (State.acceptSwitch s).pantry = s.pantry
      ∧ (State.acceptSwitch s).larder = s.larder
      ∧ (State.acceptSwitch s).cellar = s.cellar := by
  unfold State.acceptSwitch
  try dsimp only
  repeat' (first | (simp; done) | split)


@[simp] theorem State.acceptWaiting_keeps (s : State) (k : Nat) (a : PostArrival) (b : Nat) :
    (State.acceptWaiting s k a b).pending = s.pending
      ∧ (State.acceptWaiting s k a b).part = s.part
      ∧ (State.acceptWaiting s k a b).ftq = s.ftq := by
  unfold State.acceptWaiting
  dsimp only
  refine ⟨State.onBeat_pending _ _ _ fun _ => ?_, State.onBeat_part _ _ _ fun _ => ?_, State.onBeat_ftq _ _ _ fun _ => ?_⟩ <;>
    · split <;> simp


@[simp] theorem State.countHops_keeps (s : State) (f : Flit) :
    (State.countHops s f).pending = s.pending
      ∧ (State.countHops s f).part = s.part
      ∧ (State.countHops s f).mc = s.mc
      ∧ (State.countHops s f).vc = s.vc
      ∧ (State.countHops s f).ftq = s.ftq
      ∧ (State.countHops s f).pantry = s.pantry
      ∧ (State.countHops s f).larder = s.larder
      ∧ (State.countHops s f).cellar = s.cellar := by
  unfold State.countHops
  try dsimp only
  repeat' (first | (simp; done) | split)


@[simp] theorem State.openLabel_keeps (s : State) (n : Nat) (l : RxLabel) :
    (State.openLabel s n l).pending = s.pending
      ∧ (State.openLabel s n l).part = s.part
      ∧ (State.openLabel s n l).mc = s.mc
      ∧ (State.openLabel s n l).vc = s.vc
      ∧ (State.openLabel s n l).ftq = s.ftq
      ∧ (State.openLabel s n l).pantry = s.pantry
      ∧ (State.openLabel s n l).larder = s.larder
      ∧ (State.openLabel s n l).cellar = s.cellar := by
  unfold State.openLabel
  try dsimp only
  repeat' (first | (simp; done) | split)


@[simp] theorem State.dropHead_keeps (s : State) (n : Nat) (f : Flit) :
    (State.dropHead s n f).pending = s.pending
      ∧ (State.dropHead s n f).part = s.part
      ∧ (State.dropHead s n f).mc = s.mc
      ∧ (State.dropHead s n f).vc = s.vc
      ∧ (State.dropHead s n f).ftq = s.ftq
      ∧ (State.dropHead s n f).pantry = s.pantry
      ∧ (State.dropHead s n f).larder = s.larder
      ∧ (State.dropHead s n f).cellar = s.cellar := by
  unfold State.dropHead
  try dsimp only
  repeat' (first | (simp; done) | split)


@[simp] theorem State.linkError_keeps (s : State) (p : Nat) (w : W64) (cls : ErrClass) :
    (State.linkError s p w cls).pending = s.pending
      ∧ (State.linkError s p w cls).part = s.part
      ∧ (State.linkError s p w cls).mc = s.mc
      ∧ (State.linkError s p w cls).vc = s.vc
      ∧ (State.linkError s p w cls).ftq = s.ftq
      ∧ (State.linkError s p w cls).pantry = s.pantry
      ∧ (State.linkError s p w cls).larder = s.larder
      ∧ (State.linkError s p w cls).cellar = s.cellar := by
  unfold State.linkError
  try dsimp only
  repeat' (first | (simp; done) | split)


@[simp] theorem State.protocolError_keeps (s : State) (n : Nat) (label : Nat) :
    (State.protocolError s n label).pending = s.pending
      ∧ (State.protocolError s n label).part = s.part
      ∧ (State.protocolError s n label).mc = s.mc
      ∧ (State.protocolError s n label).vc = s.vc
      ∧ (State.protocolError s n label).ftq = s.ftq
      ∧ (State.protocolError s n label).pantry = s.pantry
      ∧ (State.protocolError s n label).larder = s.larder
      ∧ (State.protocolError s n label).cellar = s.cellar := by
  unfold State.protocolError
  try dsimp only
  repeat' (first | (simp; done) | split)


@[simp] theorem State.recordLate_keeps (s : State) (n : Nat) (f : Flit) :
    (State.recordLate s n f).pending = s.pending
      ∧ (State.recordLate s n f).part = s.part
      ∧ (State.recordLate s n f).mc = s.mc
      ∧ (State.recordLate s n f).vc = s.vc
      ∧ (State.recordLate s n f).ftq = s.ftq
      ∧ (State.recordLate s n f).pantry = s.pantry
      ∧ (State.recordLate s n f).larder = s.larder
      ∧ (State.recordLate s n f).cellar = s.cellar := by
  unfold State.recordLate
  try dsimp only
  repeat' (first | (simp; done) | split)


@[simp] theorem State.discardHalted_keeps (s : State) (n : Nat) (f : Flit) :
    (State.discardHalted s n f).pending = s.pending
      ∧ (State.discardHalted s n f).part = s.part
      ∧ (State.discardHalted s n f).mc = s.mc
      ∧ (State.discardHalted s n f).vc = s.vc
      ∧ (State.discardHalted s n f).ftq = s.ftq
      ∧ (State.discardHalted s n f).pantry = s.pantry
      ∧ (State.discardHalted s n f).larder = s.larder
      ∧ (State.discardHalted s n f).cellar = s.cellar := by
  unfold State.discardHalted
  try dsimp only
  repeat' (first | (simp; done) | split)


@[simp] theorem State.hopsSpent_keeps (s : State) (n : Nat) (f : Flit) :
    (State.hopsSpent s n f).pending = s.pending
      ∧ (State.hopsSpent s n f).part = s.part
      ∧ (State.hopsSpent s n f).mc = s.mc
      ∧ (State.hopsSpent s n f).vc = s.vc
      ∧ (State.hopsSpent s n f).ftq = s.ftq
      ∧ (State.hopsSpent s n f).pantry = s.pantry
      ∧ (State.hopsSpent s n f).larder = s.larder
      ∧ (State.hopsSpent s n f).cellar = s.cellar := by
  unfold State.hopsSpent
  try dsimp only
  repeat' (first | (simp; done) | split)


@[simp] theorem State.badStack_keeps (s : State) (k : Nat) (e : Endpoint) :
    (State.badStack s k e).pending = s.pending
      ∧ (State.badStack s k e).part = s.part
      ∧ (State.badStack s k e).mc = s.mc
      ∧ (State.badStack s k e).vc = s.vc
      ∧ (State.badStack s k e).ftq = s.ftq
      ∧ (State.badStack s k e).pantry = s.pantry
      ∧ (State.badStack s k e).larder = s.larder
      ∧ (State.badStack s k e).cellar = s.cellar := by
  unfold State.badStack
  try dsimp only
  repeat' (first | (simp; done) | split)


@[simp] theorem State.porterFault_keeps (s : State) (k : Nat) (cause : Nat) (hd : Handed) :
    (State.porterFault s k cause hd).pending = s.pending
      ∧ (State.porterFault s k cause hd).part = s.part
      ∧ (State.porterFault s k cause hd).mc = s.mc
      ∧ (State.porterFault s k cause hd).vc = s.vc
      ∧ (State.porterFault s k cause hd).ftq = s.ftq
      ∧ (State.porterFault s k cause hd).pantry = s.pantry
      ∧ (State.porterFault s k cause hd).larder = s.larder
      ∧ (State.porterFault s k cause hd).cellar = s.cellar := by
  unfold State.porterFault
  try dsimp only
  repeat' (first | (simp; done) | split)


theorem State.checkEnd_keeps {s t : State} {k : Nat} {hd : Handed} {e : Endpoint} {h : Nat}
    (hn : State.checkEnd s k hd e h = .stopped t) :
    t.pending = s.pending ∧ t.part = s.part ∧ t.mc = s.mc ∧ t.vc = s.vc ∧ t.ftq = s.ftq ∧ t.pantry = s.pantry ∧ t.larder = s.larder ∧ t.cellar = s.cellar := by
  unfold State.checkEnd at hn
  dsimp only at hn
  repeat' split at hn
  all_goals cases hn
  all_goals simp


@[simp] theorem State.openInbound_keeps (s : State) (n : Nat) (t : Transfer) :
    (State.openInbound s n t).pending = s.pending
      ∧ (State.openInbound s n t).part = s.part
      ∧ (State.openInbound s n t).mc = s.mc
      ∧ (State.openInbound s n t).vc = s.vc
      ∧ (State.openInbound s n t).ftq = s.ftq
      ∧ (State.openInbound s n t).pantry = s.pantry
      ∧ (State.openInbound s n t).larder = s.larder
      ∧ (State.openInbound s n t).cellar = s.cellar := by
  unfold State.openInbound
  try dsimp only
  repeat' (first | (simp; done) | split)


@[simp] theorem State.refuseRead_keeps (s : State) (d : PDesc) (srank : BitVec 16) :
    (State.refuseRead s d srank).pending = s.pending
      ∧ (State.refuseRead s d srank).part = s.part
      ∧ (State.refuseRead s d srank).mc = s.mc
      ∧ (State.refuseRead s d srank).vc = s.vc
      ∧ (State.refuseRead s d srank).ftq = s.ftq
      ∧ (State.refuseRead s d srank).pantry = s.pantry
      ∧ (State.refuseRead s d srank).larder = s.larder
      ∧ (State.refuseRead s d srank).cellar = s.cellar := by
  unfold State.refuseRead
  try dsimp only
  repeat' (first | (simp; done) | split)


@[simp] theorem State.setCtl_keeps (s : State) (k : Nat) (x : Stack) :
    (State.setCtl s k x).pending = s.pending
      ∧ (State.setCtl s k x).part = s.part
      ∧ (State.setCtl s k x).mc = s.mc
      ∧ (State.setCtl s k x).vc = s.vc
      ∧ (State.setCtl s k x).ftq = s.ftq
      ∧ (State.setCtl s k x).pantry = s.pantry
      ∧ (State.setCtl s k x).larder = s.larder
      ∧ (State.setCtl s k x).cellar = s.cellar := by
  unfold State.setCtl
  try dsimp only
  repeat' (first | (simp; done) | split)


@[simp] theorem State.sourceStream_keeps (s : State) (k : Nat) (t : Transfer) (hits : Nat) :
    (State.sourceStream s k t hits).pending = s.pending
      ∧ (State.sourceStream s k t hits).part = s.part
      ∧ (State.sourceStream s k t hits).mc = s.mc
      ∧ (State.sourceStream s k t hits).vc = s.vc
      ∧ (State.sourceStream s k t hits).ftq = s.ftq
      ∧ (State.sourceStream s k t hits).pantry = s.pantry
      ∧ (State.sourceStream s k t hits).larder = s.larder
      ∧ (State.sourceStream s k t hits).cellar = s.cellar := by
  unfold State.sourceStream
  try dsimp only
  repeat' (first | (simp; done) | split)


@[simp] theorem State.deliverHead_keeps (s : State) (n : Nat) (f : Flit) : resKeeps s (State.deliverHead s n f) := by
  unfold State.deliverHead
  try dsimp only
  repeat' (first | (simp; done) | (obtain ⟨h1, h2, h3, h4, h5, h6, h7, h8⟩ := State.checkEnd_keeps ‹_›; simp_all; done) | refine (foldl_pending _ _ _ fun _ _ => ?_).trans ?_ | refine (foldl_part _ _ _ fun _ _ => ?_).trans ?_ | refine (State.onBeat_pending _ _ _ ?_).trans ?_ | refine (State.onProgram_pending _ _ _ ?_).trans ?_ | refine (State.completeAt_pending _ _ _ _ _ ?_).trans ?_ | refine (State.onBeat_part _ _ _ ?_).trans ?_ | refine (State.onProgram_part _ _ _ ?_).trans ?_ | refine (State.completeAt_part _ _ _ _ _ ?_).trans ?_ | intro _ | split | refine And.intro ?_ ?_ | simp)


@[simp] theorem State.claimError_keeps (s : State) (q : Nat) (f : Flit) :
    (State.claimError s q f).pending = s.pending
      ∧ (State.claimError s q f).part = s.part
      ∧ (State.claimError s q f).mc = s.mc
      ∧ (State.claimError s q f).vc = s.vc
      ∧ (State.claimError s q f).ftq = s.ftq
      ∧ (State.claimError s q f).pantry = s.pantry
      ∧ (State.claimError s q f).larder = s.larder
      ∧ (State.claimError s q f).cellar = s.cellar := by
  unfold State.claimError
  try dsimp only
  repeat' (first | (simp; done) | split)


@[simp] theorem State.newXfer_keeps (s : State) (n : Nat) :
    (State.newXfer s n).1.pending = s.pending
      ∧ (State.newXfer s n).1.part = s.part
      ∧ (State.newXfer s n).1.mc = s.mc
      ∧ (State.newXfer s n).1.vc = s.vc
      ∧ (State.newXfer s n).1.ftq = s.ftq
      ∧ (State.newXfer s n).1.pantry = s.pantry
      ∧ (State.newXfer s n).1.larder = s.larder
      ∧ (State.newXfer s n).1.cellar = s.cellar := by
  unfold State.newXfer
  try dsimp only
  repeat' (first | (simp; done) | split)


@[simp] theorem State.forwardHead_keeps (s : State) (n : Nat) (q : Nat) (f : Flit) :
    (State.forwardHead s n q f).pending = s.pending
      ∧ (State.forwardHead s n q f).part = s.part
      ∧ (State.forwardHead s n q f).mc = s.mc
      ∧ (State.forwardHead s n q f).vc = s.vc
      ∧ (State.forwardHead s n q f).ftq = s.ftq
      ∧ (State.forwardHead s n q f).pantry = s.pantry
      ∧ (State.forwardHead s n q f).larder = s.larder
      ∧ (State.forwardHead s n q f).cellar = s.cellar := by
  unfold State.forwardHead
  try dsimp only
  repeat' (first | (simp; done) | split)


@[simp] theorem State.spreadHead_keeps (s : State) (n : Nat) (q : Nat) (f : Flit) :
    (State.spreadHead s n q f).pending = s.pending
      ∧ (State.spreadHead s n q f).part = s.part
      ∧ (State.spreadHead s n q f).mc = s.mc
      ∧ (State.spreadHead s n q f).vc = s.vc
      ∧ (State.spreadHead s n q f).ftq = s.ftq
      ∧ (State.spreadHead s n q f).pantry = s.pantry
      ∧ (State.spreadHead s n q f).larder = s.larder
      ∧ (State.spreadHead s n q f).cellar = s.cellar := by
  unfold State.spreadHead
  try dsimp only
  repeat' (first | (simp; done) | split)


@[simp] theorem State.receiveHead_keeps (s : State) (n : Nat) (f : Flit) : resKeeps s (State.receiveHead s n f) := by
  unfold State.receiveHead
  extract_lets d sr tag
  split
  · exact State.deliverHead_keeps ..
  · split
    · split
      · next h =>
        obtain ⟨h1, h2⟩ := resKeeps_of_eq (State.deliverHead_keeps ..) h
        split <;> simp [h1, h2]
      · exact State.deliverHead_keeps ..
    · split <;> simp


@[simp] theorem State.countLost_keeps (s : State) (res : Nat) (old : Nat) (new : Nat) :
    (State.countLost s res old new).pending = s.pending
      ∧ (State.countLost s res old new).part = s.part
      ∧ (State.countLost s res old new).mc = s.mc
      ∧ (State.countLost s res old new).vc = s.vc
      ∧ (State.countLost s res old new).ftq = s.ftq
      ∧ (State.countLost s res old new).pantry = s.pantry
      ∧ (State.countLost s res old new).larder = s.larder
      ∧ (State.countLost s res old new).cellar = s.cellar := by
  unfold State.countLost
  try dsimp only
  repeat' (first | (simp; done) | split)


@[simp] theorem State.countRun_keeps (s : State) (r : Run) (r' : Run) :
    (State.countRun s r r').pending = s.pending
      ∧ (State.countRun s r r').part = s.part
      ∧ (State.countRun s r r').mc = s.mc
      ∧ (State.countRun s r r').vc = s.vc
      ∧ (State.countRun s r r').ftq = s.ftq
      ∧ (State.countRun s r r').pantry = s.pantry
      ∧ (State.countRun s r r').larder = s.larder
      ∧ (State.countRun s r r').cellar = s.cellar := by
  unfold State.countRun
  try dsimp only
  repeat' (first | (simp; done) | split)


@[simp] theorem State.slipSent_keeps (s : State) (h : Nat) (d : Nat) (d' : Nat) :
    (State.slipSent s h d d').pending = s.pending
      ∧ (State.slipSent s h d d').part = s.part
      ∧ (State.slipSent s h d d').mc = s.mc
      ∧ (State.slipSent s h d d').vc = s.vc
      ∧ (State.slipSent s h d d').ftq = s.ftq
      ∧ (State.slipSent s h d d').pantry = s.pantry
      ∧ (State.slipSent s h d d').larder = s.larder
      ∧ (State.slipSent s h d d').cellar = s.cellar := by
  unfold State.slipSent
  try dsimp only
  repeat' (first | (simp; done) | split)


@[simp] theorem State.slip_keeps (s : State) (r : Run) (r' : Run) :
    (State.slip s r r').pending = s.pending
      ∧ (State.slip s r r').part = s.part
      ∧ (State.slip s r r').ftq = s.ftq
      ∧ (State.slip s r r').pantry = s.pantry
      ∧ (State.slip s r r').larder = s.larder
      ∧ (State.slip s r r').cellar = s.cellar := by
  unfold State.slip
  try dsimp only
  repeat' (first | (simp; done) | split)


@[simp] theorem State.planRun_keeps (s : State) (due : Nat) (aim : Nat) (x : Run) :
    (State.planRun s due aim x).1.pending = s.pending
      ∧ (State.planRun s due aim x).1.part = s.part
      ∧ (State.planRun s due aim x).1.ftq = s.ftq
      ∧ (State.planRun s due aim x).1.pantry = s.pantry
      ∧ (State.planRun s due aim x).1.larder = s.larder
      ∧ (State.planRun s due aim x).1.cellar = s.cellar := by
  unfold State.planRun
  extract_lets n y old fuel rs y1 rs1 rs2 y2 src s1 s2
  split
  · simp
  · have hs : ∀ l : List (Run × Run), ∀ u : State, ∀ v,
        v = l.foldl (fun s e => if e.1 = e.2 then s else (s.slip e.1 e.2).countRun e.1 e.2) u →
        v.pending = u.pending ∧ v.part = u.part ∧ v.ftq = u.ftq ∧ v.pantry = u.pantry ∧ v.larder = u.larder
          ∧ v.cellar = u.cellar := by
      intro l
      induction l with
      | nil => rintro u v rfl; simp
      | cons e l ih =>
        rintro u v rfl
        rw [List.foldl_cons]
        refine ⟨(ih _ _ rfl).1.trans ?_, (ih _ _ rfl).2.1.trans ?_, (ih _ _ rfl).2.2.1.trans ?_,
          (ih _ _ rfl).2.2.2.1.trans ?_, (ih _ _ rfl).2.2.2.2.1.trans ?_, (ih _ _ rfl).2.2.2.2.2.trans ?_⟩ <;> split <;> simp
    obtain ⟨h1, h2, h3, h4, h5, h6⟩ := hs _ s1 s2 rfl
    clear_value s2
    simp [h1, h2, h3, h4, h5, h6, s1]


@[simp] theorem State.plan_keeps (s : State) (rank : Nat) (due : Nat) (aim : Nat) (owner : RunOwner) (claims : List Claim) (leaves : List (Nat × Nat × Nat × Nat)) :
    (State.plan s rank due aim owner claims leaves).1.pending = s.pending
      ∧ (State.plan s rank due aim owner claims leaves).1.part = s.part
      ∧ (State.plan s rank due aim owner claims leaves).1.ftq = s.ftq
      ∧ (State.plan s rank due aim owner claims leaves).1.pantry = s.pantry
      ∧ (State.plan s rank due aim owner claims leaves).1.larder = s.larder
      ∧ (State.plan s rank due aim owner claims leaves).1.cellar = s.cellar := by
  unfold State.plan
  try dsimp only
  repeat' (first | (simp; done) | refine (foldl_pending _ _ _ fun _ _ => ?_).trans ?_ | refine (foldl_part _ _ _ fun _ _ => ?_).trans ?_ | refine (foldl_mc _ _ _ fun _ _ => ?_).trans ?_ | refine (foldl_vc _ _ _ fun _ _ => ?_).trans ?_ | refine (foldl_ftq _ _ _ fun _ _ => ?_).trans ?_ | refine (foldl_pantry _ _ _ fun _ _ => ?_).trans ?_ | refine (foldl_larder _ _ _ fun _ _ => ?_).trans ?_ | refine (foldl_cellar _ _ _ fun _ _ => ?_).trans ?_ | refine (State.onBeat_pending _ _ _ ?_).trans ?_ | refine (State.onProgram_pending _ _ _ ?_).trans ?_ | refine (State.completeAt_pending _ _ _ _ _ ?_).trans ?_ | refine (State.onBeat_part _ _ _ ?_).trans ?_ | refine (State.onProgram_part _ _ _ ?_).trans ?_ | refine (State.completeAt_part _ _ _ _ _ ?_).trans ?_ | refine (State.onBeat_ftq _ _ _ ?_).trans ?_ | refine (State.onProgram_ftq _ _ _ ?_).trans ?_ | refine (State.completeAt_ftq _ _ _ _ _ ?_).trans ?_ | intro _ | split | refine And.intro ?_ ?_ | simp)


@[simp] theorem State.spread_keeps (s : State) (k : Nat) (start : Nat) (x : Nat) (plane : Nat) (route : Nat) (from_ : Nat × Nat) (b : Nat) (places : List (Nat × Nat)) :
    (State.spread s k start x plane route from_ b places).1.pending = s.pending
      ∧ (State.spread s k start x plane route from_ b places).1.part = s.part
      ∧ (State.spread s k start x plane route from_ b places).1.ftq = s.ftq
      ∧ (State.spread s k start x plane route from_ b places).1.pantry = s.pantry
      ∧ (State.spread s k start x plane route from_ b places).1.larder = s.larder
      ∧ (State.spread s k start x plane route from_ b places).1.cellar = s.cellar := by
  unfold State.spread
  try dsimp only
  repeat' (first | (simp; done) | split)


@[simp] theorem State.deliverPacket_keeps (s : State) (n : Nat) (f : Flit) :
    (State.deliverPacket s n f).pending = s.pending
      ∧ (State.deliverPacket s n f).part = s.part
      ∧ (State.deliverPacket s n f).ftq = s.ftq
      ∧ (State.deliverPacket s n f).pantry = s.pantry
      ∧ (State.deliverPacket s n f).larder = s.larder
      ∧ (State.deliverPacket s n f).cellar = s.cellar := by
  unfold State.deliverPacket
  try dsimp only
  repeat' (first | (simp; done) | split)


@[simp] theorem State.receivePacket_keeps (s : State) (n : Nat) (f : Flit) :
    (State.receivePacket s n f).pending = s.pending
      ∧ (State.receivePacket s n f).part = s.part
      ∧ (State.receivePacket s n f).ftq = s.ftq
      ∧ (State.receivePacket s n f).pantry = s.pantry
      ∧ (State.receivePacket s n f).larder = s.larder
      ∧ (State.receivePacket s n f).cellar = s.cellar := by
  unfold State.receivePacket
  try dsimp only
  repeat' (first | (simp; done) | split)


@[simp] theorem State.deliverOutcome_keeps (s : State) (n : Nat) (body : BitVec 960) :
    (State.deliverOutcome s n body).pending = s.pending
      ∧ (State.deliverOutcome s n body).part = s.part
      ∧ (State.deliverOutcome s n body).mc = s.mc
      ∧ (State.deliverOutcome s n body).vc = s.vc
      ∧ (State.deliverOutcome s n body).ftq = s.ftq
      ∧ (State.deliverOutcome s n body).pantry = s.pantry
      ∧ (State.deliverOutcome s n body).larder = s.larder
      ∧ (State.deliverOutcome s n body).cellar = s.cellar := by
  unfold State.deliverOutcome
  try dsimp only
  repeat' (first | (simp; done) | split)


@[simp] theorem State.travel_keeps (s : State) (rank : Nat) (owner : RunOwner) (hops : List Hop) (b : Nat) :
    (State.travel s rank owner hops b).1.pending = s.pending
      ∧ (State.travel s rank owner hops b).1.part = s.part
      ∧ (State.travel s rank owner hops b).1.ftq = s.ftq
      ∧ (State.travel s rank owner hops b).1.pantry = s.pantry
      ∧ (State.travel s rank owner hops b).1.larder = s.larder
      ∧ (State.travel s rank owner hops b).1.cellar = s.cellar := by
  unfold State.travel
  try dsimp only
  repeat' (first | (simp; done) | split)


@[simp] theorem State.deliverPost_keeps (s : State) (n : Nat) (body : BitVec 960) :
    (State.deliverPost s n body).pending = s.pending
      ∧ (State.deliverPost s n body).part = s.part
      ∧ (State.deliverPost s n body).ftq = s.ftq
      ∧ (State.deliverPost s n body).pantry = s.pantry
      ∧ (State.deliverPost s n body).larder = s.larder
      ∧ (State.deliverPost s n body).cellar = s.cellar := by
  unfold State.deliverPost
  try dsimp only
  repeat' (first | (simp; done) | split)


@[simp] theorem State.deliverRefusal_keeps (s : State) (n : Nat) (body : BitVec 960) :
    (State.deliverRefusal s n body).pending = s.pending
      ∧ (State.deliverRefusal s n body).part = s.part
      ∧ (State.deliverRefusal s n body).mc = s.mc
      ∧ (State.deliverRefusal s n body).vc = s.vc
      ∧ (State.deliverRefusal s n body).ftq = s.ftq
      ∧ (State.deliverRefusal s n body).pantry = s.pantry
      ∧ (State.deliverRefusal s n body).larder = s.larder
      ∧ (State.deliverRefusal s n body).cellar = s.cellar := by
  unfold State.deliverRefusal
  try dsimp only
  repeat' (first | (simp; done) | split)


@[simp] theorem State.deliverSingle_keeps (s : State) (n : Nat) (f : Flit) :
    (State.deliverSingle s n f).pending = s.pending
      ∧ (State.deliverSingle s n f).part = s.part
      ∧ (State.deliverSingle s n f).ftq = s.ftq
      ∧ (State.deliverSingle s n f).pantry = s.pantry
      ∧ (State.deliverSingle s n f).larder = s.larder
      ∧ (State.deliverSingle s n f).cellar = s.cellar := by
  unfold State.deliverSingle
  try dsimp only
  repeat' (first | (simp; done) | split)


@[simp] theorem State.receiveMgt_keeps (s : State) (n : Nat) (f : Flit) (frac : BitVec 4) :
    (State.receiveMgt s n f frac).pending = s.pending
      ∧ (State.receiveMgt s n f frac).part = s.part
      ∧ (State.receiveMgt s n f frac).mc = s.mc
      ∧ (State.receiveMgt s n f frac).vc = s.vc
      ∧ (State.receiveMgt s n f frac).ftq = s.ftq
      ∧ (State.receiveMgt s n f frac).pantry = s.pantry
      ∧ (State.receiveMgt s n f frac).larder = s.larder
      ∧ (State.receiveMgt s n f frac).cellar = s.cellar := by
  unfold State.receiveMgt
  try dsimp only
  repeat' (first | (simp; done) | split)


@[simp] theorem State.receiveSingle_keeps (s : State) (n : Nat) (f : Flit) (frac : BitVec 4) :
    (State.receiveSingle s n f frac).pending = s.pending
      ∧ (State.receiveSingle s n f frac).part = s.part
      ∧ (State.receiveSingle s n f frac).ftq = s.ftq
      ∧ (State.receiveSingle s n f frac).pantry = s.pantry
      ∧ (State.receiveSingle s n f frac).larder = s.larder
      ∧ (State.receiveSingle s n f frac).cellar = s.cellar := by
  unfold State.receiveSingle
  try dsimp only
  repeat' (first | (simp; done) | split)


@[simp] theorem State.accepted_keeps (s : State) (n : Nat) (f : Flit) (frac : BitVec 4) : resKeeps s (State.accepted s n f frac) := by
  unfold State.accepted
  extract_lets s1 credit
  have h1 : s1.pending = s.pending := by simp [s1]
  have h2 : s1.part = s.part := by simp [s1]
  clear_value s1
  split
  · simp [h1, h2]
  · split
    · simp [h1, h2]
    · split
      · simp [h1, h2]
      · split
        · split
          · next h =>
            obtain ⟨h3, h4⟩ := resKeeps_of_eq (State.receiveHead_keeps ..) h
            simp only [resKeeps_next]
            split <;> simp [h1, h2, h3, h4]
          · exact resKeeps_congr h1 h2 (State.receiveHead_keeps ..)
        · simp only [resKeeps_next]
          split <;> simp [h1, h2]


@[simp] theorem State.noteReckoner_keeps (s : State) (t : Nat) (b : Nat) (count : BitVec 48) :
    (State.noteReckoner s t b count).pending = s.pending
      ∧ (State.noteReckoner s t b count).part = s.part
      ∧ (State.noteReckoner s t b count).mc = s.mc
      ∧ (State.noteReckoner s t b count).vc = s.vc
      ∧ (State.noteReckoner s t b count).ftq = s.ftq
      ∧ (State.noteReckoner s t b count).pantry = s.pantry
      ∧ (State.noteReckoner s t b count).larder = s.larder
      ∧ (State.noteReckoner s t b count).cellar = s.cellar := by
  unfold State.noteReckoner
  try dsimp only
  repeat' (first | (simp; done) | split)


@[simp] theorem State.noteWatch_keeps (s : State) (t : Nat) (b : Nat) (agent : Nat) (rank : Nat) (amount : Nat) :
    (State.noteWatch s t b agent rank amount).pending = s.pending
      ∧ (State.noteWatch s t b agent rank amount).part = s.part
      ∧ (State.noteWatch s t b agent rank amount).mc = s.mc
      ∧ (State.noteWatch s t b agent rank amount).vc = s.vc
      ∧ (State.noteWatch s t b agent rank amount).ftq = s.ftq
      ∧ (State.noteWatch s t b agent rank amount).pantry = s.pantry
      ∧ (State.noteWatch s t b agent rank amount).larder = s.larder
      ∧ (State.noteWatch s t b agent rank amount).cellar = s.cellar := by
  unfold State.noteWatch
  try dsimp only
  repeat' (first | (simp; done) | split)


@[simp] theorem State.addBell_keeps (s : State) (t : Nat) (b : Nat) (amount : Nat) (agent : Nat) (rank : Nat) :
    (State.addBell s t b amount agent rank).pending = s.pending
      ∧ (State.addBell s t b amount agent rank).part = s.part
      ∧ (State.addBell s t b amount agent rank).ftq = s.ftq
      ∧ (State.addBell s t b amount agent rank).pantry = s.pantry
      ∧ (State.addBell s t b amount agent rank).larder = s.larder
      ∧ (State.addBell s t b amount agent rank).cellar = s.cellar := by
  unfold State.addBell
  try dsimp only
  repeat' (first | (simp; done) | split)


@[simp] theorem State.addDecision_keeps (s : State) (d : Decision) :
    (State.addDecision s d).pending = s.pending
      ∧ (State.addDecision s d).part = s.part
      ∧ (State.addDecision s d).mc = s.mc
      ∧ (State.addDecision s d).vc = s.vc
      ∧ (State.addDecision s d).ftq = s.ftq
      ∧ (State.addDecision s d).pantry = s.pantry
      ∧ (State.addDecision s d).larder = s.larder
      ∧ (State.addDecision s d).cellar = s.cellar := by
  unfold State.addDecision
  try dsimp only
  repeat' (first | (simp; done) | split)

@[simp] theorem State.addRequest_keeps (s : State) (form : BitVec 2) (adapter : Nat) :
    (State.addRequest s form adapter).pending = s.pending
      ∧ (State.addRequest s form adapter).part = s.part
      ∧ (State.addRequest s form adapter).mc = s.mc
      ∧ (State.addRequest s form adapter).vc = s.vc
      ∧ (State.addRequest s form adapter).ftq = s.ftq
      ∧ (State.addRequest s form adapter).pantry = s.pantry
      ∧ (State.addRequest s form adapter).larder = s.larder
      ∧ (State.addRequest s form adapter).cellar = s.cellar := by
  unfold State.addRequest
  try dsimp only
  repeat' (first | (simp; done) | split)


@[simp] theorem State.endOwed_keeps (s : State) (index : Nat) (sub : Nat) (inst : Option Nat) (ok : Bool) :
    (State.endOwed s index sub inst ok).pending = s.pending
      ∧ (State.endOwed s index sub inst ok).part = s.part
      ∧ (State.endOwed s index sub inst ok).mc = s.mc
      ∧ (State.endOwed s index sub inst ok).vc = s.vc
      ∧ (State.endOwed s index sub inst ok).ftq = s.ftq
      ∧ (State.endOwed s index sub inst ok).pantry = s.pantry
      ∧ (State.endOwed s index sub inst ok).larder = s.larder
      ∧ (State.endOwed s index sub inst ok).cellar = s.cellar := by
  unfold State.endOwed
  try dsimp only
  repeat' (first | (simp; done) | split)


@[simp] theorem State.endRequest_keeps (s : State) (r : LoadReq) (ok : Bool) :
    (State.endRequest s r ok).pending = s.pending
      ∧ (State.endRequest s r ok).part = s.part
      ∧ (State.endRequest s r ok).mc = s.mc
      ∧ (State.endRequest s r ok).vc = s.vc
      ∧ (State.endRequest s r ok).ftq = s.ftq
      ∧ (State.endRequest s r ok).pantry = s.pantry
      ∧ (State.endRequest s r ok).larder = s.larder
      ∧ (State.endRequest s r ok).cellar = s.cellar := by
  unfold State.endRequest
  try dsimp only
  repeat' (first | (simp; done) | split)


@[simp] theorem State.setAdapter_keeps (s : State) (a : Nat) (x : Adapter) :
    (State.setAdapter s a x).pending = s.pending
      ∧ (State.setAdapter s a x).part = s.part
      ∧ (State.setAdapter s a x).mc = s.mc
      ∧ (State.setAdapter s a x).vc = s.vc
      ∧ (State.setAdapter s a x).ftq = s.ftq
      ∧ (State.setAdapter s a x).pantry = s.pantry
      ∧ (State.setAdapter s a x).larder = s.larder
      ∧ (State.setAdapter s a x).cellar = s.cellar := by
  unfold State.setAdapter
  try dsimp only
  repeat' (first | (simp; done) | split)


@[simp] theorem State.failLoad_keeps (s : State) (a : ActiveLoad) (cause : Nat) (shard : Nat) :
    (State.failLoad s a cause shard).pending = s.pending
      ∧ (State.failLoad s a cause shard).part = s.part
      ∧ (State.failLoad s a cause shard).mc = s.mc
      ∧ (State.failLoad s a cause shard).vc = s.vc
      ∧ (State.failLoad s a cause shard).ftq = s.ftq
      ∧ (State.failLoad s a cause shard).pantry = s.pantry
      ∧ (State.failLoad s a cause shard).larder = s.larder
      ∧ (State.failLoad s a cause shard).cellar = s.cellar := by
  unfold State.failLoad
  try dsimp only
  repeat' (first | (simp; done) | split)


@[simp] theorem State.setActive_keeps (s : State) (a : ActiveLoad) :
    (State.setActive s a).pending = s.pending
      ∧ (State.setActive s a).part = s.part
      ∧ (State.setActive s a).mc = s.mc
      ∧ (State.setActive s a).vc = s.vc
      ∧ (State.setActive s a).ftq = s.ftq
      ∧ (State.setActive s a).pantry = s.pantry
      ∧ (State.setActive s a).larder = s.larder
      ∧ (State.setActive s a).cellar = s.cellar := by
  unfold State.setActive
  try dsimp only
  repeat' (first | (simp; done) | split)


@[simp] theorem State.closeLoad_keeps (s : State) :
    (State.closeLoad s).pending = s.pending
      ∧ (State.closeLoad s).part = s.part
      ∧ (State.closeLoad s).mc = s.mc
      ∧ (State.closeLoad s).vc = s.vc
      ∧ (State.closeLoad s).ftq = s.ftq
      ∧ (State.closeLoad s).pantry = s.pantry
      ∧ (State.closeLoad s).larder = s.larder
      ∧ (State.closeLoad s).cellar = s.cellar := by
  unfold State.closeLoad
  try dsimp only
  repeat' (first | (simp; done) | split)


@[simp] theorem State.loadReady_keeps (s : State) (a : ActiveLoad) :
    (State.loadReady s a).pending = s.pending
      ∧ (State.loadReady s a).part = s.part
      ∧ (State.loadReady s a).mc = s.mc
      ∧ (State.loadReady s a).vc = s.vc
      ∧ (State.loadReady s a).ftq = s.ftq
      ∧ (State.loadReady s a).pantry = s.pantry
      ∧ (State.loadReady s a).larder = s.larder
      ∧ (State.loadReady s a).cellar = s.cellar := by
  unfold State.loadReady
  try dsimp only
  repeat' (first | (simp; done) | split)


@[simp] theorem State.settleReady_keeps (s : State) :
    (State.settleReady s).pending = s.pending
      ∧ (State.settleReady s).part = s.part
      ∧ (State.settleReady s).mc = s.mc
      ∧ (State.settleReady s).vc = s.vc
      ∧ (State.settleReady s).ftq = s.ftq
      ∧ (State.settleReady s).pantry = s.pantry
      ∧ (State.settleReady s).larder = s.larder
      ∧ (State.settleReady s).cellar = s.cellar := by
  unfold State.settleReady
  try dsimp only
  repeat' (first | (simp; done) | split)


@[simp] theorem State.afterLanding_keeps (s : State) (a : ActiveLoad) :
    (State.afterLanding s a).pending = s.pending
      ∧ (State.afterLanding s a).part = s.part
      ∧ (State.afterLanding s a).mc = s.mc
      ∧ (State.afterLanding s a).vc = s.vc
      ∧ (State.afterLanding s a).ftq = s.ftq
      ∧ (State.afterLanding s a).pantry = s.pantry
      ∧ (State.afterLanding s a).larder = s.larder
      ∧ (State.afterLanding s a).cellar = s.cellar := by
  unfold State.afterLanding
  try dsimp only
  repeat' (first | (simp; done) | split)


@[simp] theorem State.grantSlice_keeps (s : State) (rank : Nat) (owner : RunOwner) (k : Nat) (b : Nat) (acts : List Act) :
    (State.grantSlice s rank owner k b acts).1.pending = s.pending
      ∧ (State.grantSlice s rank owner k b acts).1.part = s.part
      ∧ (State.grantSlice s rank owner k b acts).1.ftq = s.ftq
      ∧ (State.grantSlice s rank owner k b acts).1.pantry = s.pantry
      ∧ (State.grantSlice s rank owner k b acts).1.larder = s.larder
      ∧ (State.grantSlice s rank owner k b acts).1.cellar = s.cellar := by
  unfold State.grantSlice
  try dsimp only
  repeat' (first | (simp; done) | split)


@[simp] theorem State.aheadAccess_keeps (s : State) (k : Nat) (t : Transfer) :
    (State.aheadAccess s k t).pending = s.pending
      ∧ (State.aheadAccess s k t).part = s.part
      ∧ (State.aheadAccess s k t).ftq = s.ftq := by
  unfold State.aheadAccess
  try dsimp only
  repeat' (first | (simp; done) | refine (foldl_pending _ _ _ fun _ _ => ?_).trans ?_ | refine (foldl_part _ _ _ fun _ _ => ?_).trans ?_ | refine (foldl_ftq _ _ _ fun _ _ => ?_).trans ?_ | refine (State.onBeat_pending _ _ _ ?_).trans ?_ | refine (State.onProgram_pending _ _ _ ?_).trans ?_ | refine (State.completeAt_pending _ _ _ _ _ ?_).trans ?_ | refine (State.onBeat_part _ _ _ ?_).trans ?_ | refine (State.onProgram_part _ _ _ ?_).trans ?_ | refine (State.completeAt_part _ _ _ _ _ ?_).trans ?_ | refine (State.onBeat_ftq _ _ _ ?_).trans ?_ | refine (State.onProgram_ftq _ _ _ ?_).trans ?_ | refine (State.completeAt_ftq _ _ _ _ _ ?_).trans ?_ | intro _ | split | refine And.intro ?_ ?_ | simp)


@[simp] theorem State.pumpAll_keeps (s : State) :
    (State.pumpAll s).pending = s.pending
      ∧ (State.pumpAll s).part = s.part
      ∧ (State.pumpAll s).mc = s.mc
      ∧ (State.pumpAll s).vc = s.vc
      ∧ (State.pumpAll s).ftq = s.ftq
      ∧ (State.pumpAll s).pantry = s.pantry
      ∧ (State.pumpAll s).larder = s.larder
      ∧ (State.pumpAll s).cellar = s.cellar := by
  unfold State.pumpAll
  try dsimp only
  repeat' (first | (simp; done) | split)


@[simp] theorem State.applyGate_keeps (s : State) (mask : BitVec 8) :
    (State.applyGate s mask).pending = s.pending
      ∧ (State.applyGate s mask).part = s.part
      ∧ (State.applyGate s mask).mc = s.mc
      ∧ (State.applyGate s mask).vc = s.vc
      ∧ (State.applyGate s mask).ftq = s.ftq
      ∧ (State.applyGate s mask).pantry = s.pantry
      ∧ (State.applyGate s mask).larder = s.larder
      ∧ (State.applyGate s mask).cellar = s.cellar := by
  unfold State.applyGate
  try dsimp only
  repeat' (first | (simp; done) | split)


@[simp] theorem State.queueRelease_keeps (s : State) (kind : ReleaseKind) (bs : List Byte) :
    (State.queueRelease s kind bs).pending = s.pending
      ∧ (State.queueRelease s kind bs).part = s.part
      ∧ (State.queueRelease s kind bs).mc = s.mc
      ∧ (State.queueRelease s kind bs).vc = s.vc
      ∧ (State.queueRelease s kind bs).ftq = s.ftq
      ∧ (State.queueRelease s kind bs).pantry = s.pantry
      ∧ (State.queueRelease s kind bs).larder = s.larder
      ∧ (State.queueRelease s kind bs).cellar = s.cellar := by
  unfold State.queueRelease
  try dsimp only
  repeat' (first | (simp; done) | split)


@[simp] theorem State.setTab_keeps (s : State) (t : DeskTable) :
    (State.setTab s t).pending = s.pending
      ∧ (State.setTab s t).part = s.part
      ∧ (State.setTab s t).mc = s.mc
      ∧ (State.setTab s t).vc = s.vc
      ∧ (State.setTab s t).ftq = s.ftq
      ∧ (State.setTab s t).pantry = s.pantry
      ∧ (State.setTab s t).larder = s.larder
      ∧ (State.setTab s t).cellar = s.cellar := by
  unfold State.setTab
  try dsimp only
  repeat' (first | (simp; done) | split)


@[simp] theorem State.setLodger_keeps (s : State) (i : Nat) (l : Lodger) :
    (State.setLodger s i l).pending = s.pending
      ∧ (State.setLodger s i l).part = s.part
      ∧ (State.setLodger s i l).mc = s.mc
      ∧ (State.setLodger s i l).vc = s.vc
      ∧ (State.setLodger s i l).ftq = s.ftq
      ∧ (State.setLodger s i l).pantry = s.pantry
      ∧ (State.setLodger s i l).larder = s.larder
      ∧ (State.setLodger s i l).cellar = s.cellar := by
  unfold State.setLodger
  try dsimp only
  repeat' (first | (simp; done) | split)


@[simp] theorem State.takeIn_keeps (s : State) (x : Submit) (i : Nat) (rooms : List (Nat × Nat)) (prompt : Nat) (mask : Nat) :
    (State.takeIn s x i rooms prompt mask).pending = s.pending
      ∧ (State.takeIn s x i rooms prompt mask).part = s.part
      ∧ (State.takeIn s x i rooms prompt mask).mc = s.mc
      ∧ (State.takeIn s x i rooms prompt mask).vc = s.vc
      ∧ (State.takeIn s x i rooms prompt mask).ftq = s.ftq
      ∧ (State.takeIn s x i rooms prompt mask).pantry = s.pantry
      ∧ (State.takeIn s x i rooms prompt mask).larder = s.larder
      ∧ (State.takeIn s x i rooms prompt mask).cellar = s.cellar := by
  unfold State.takeIn
  try dsimp only
  repeat' (first | (simp; done) | split)


@[simp] theorem State.applySubmit_keeps (s : State) (c : Nat) (bs : List Byte) :
    (State.applySubmit s c bs).pending = s.pending
      ∧ (State.applySubmit s c bs).part = s.part
      ∧ (State.applySubmit s c bs).mc = s.mc
      ∧ (State.applySubmit s c bs).vc = s.vc
      ∧ (State.applySubmit s c bs).ftq = s.ftq
      ∧ (State.applySubmit s c bs).pantry = s.pantry
      ∧ (State.applySubmit s c bs).larder = s.larder
      ∧ (State.applySubmit s c bs).cellar = s.cellar := by
  unfold State.applySubmit
  try dsimp only
  repeat' (first | (simp; done) | split)


@[simp] theorem State.applyRecord_keeps (s : State) (c : Nat) (bs : List Byte) :
    (State.applyRecord s c bs).pending = s.pending
      ∧ (State.applyRecord s c bs).part = s.part
      ∧ (State.applyRecord s c bs).mc = s.mc
      ∧ (State.applyRecord s c bs).vc = s.vc
      ∧ (State.applyRecord s c bs).ftq = s.ftq
      ∧ (State.applyRecord s c bs).pantry = s.pantry
      ∧ (State.applyRecord s c bs).larder = s.larder
      ∧ (State.applyRecord s c bs).cellar = s.cellar := by
  unfold State.applyRecord
  try dsimp only
  repeat' (first | (simp; done) | split)


@[simp] theorem State.applyInbox_keeps (s : State) (c : Nat) (cp : Nat) :
    (State.applyInbox s c cp).pending = s.pending
      ∧ (State.applyInbox s c cp).part = s.part
      ∧ (State.applyInbox s c cp).mc = s.mc
      ∧ (State.applyInbox s c cp).vc = s.vc
      ∧ (State.applyInbox s c cp).ftq = s.ftq
      ∧ (State.applyInbox s c cp).pantry = s.pantry
      ∧ (State.applyInbox s c cp).larder = s.larder
      ∧ (State.applyInbox s c cp).cellar = s.cellar := by
  unfold State.applyInbox
  try dsimp only
  repeat' (first | (simp; done) | split)


@[simp] theorem State.applySwitch_keeps (s : State) (w : BitVec 8) (inPlace : Bool) :
    (State.applySwitch s w inPlace).pending = s.pending
      ∧ (State.applySwitch s w inPlace).part = s.part
      ∧ (State.applySwitch s w inPlace).mc = s.mc
      ∧ (State.applySwitch s w inPlace).vc = s.vc
      ∧ (State.applySwitch s w inPlace).ftq = s.ftq
      ∧ (State.applySwitch s w inPlace).pantry = s.pantry
      ∧ (State.applySwitch s w inPlace).larder = s.larder
      ∧ (State.applySwitch s w inPlace).cellar = s.cellar := by
  unfold State.applySwitch
  try dsimp only
  repeat' (first | (simp; done) | split)


@[simp] theorem State.changeOp_keeps (s : State) (op : BitVec 8) :
    (State.changeOp s op).pending = s.pending
      ∧ (State.changeOp s op).part = s.part
      ∧ (State.changeOp s op).mc = s.mc
      ∧ (State.changeOp s op).vc = s.vc
      ∧ (State.changeOp s op).ftq = s.ftq
      ∧ (State.changeOp s op).pantry = s.pantry
      ∧ (State.changeOp s op).larder = s.larder
      ∧ (State.changeOp s op).cellar = s.cellar := by
  unfold State.changeOp
  try dsimp only
  repeat' (first | (simp; done) | split)


@[simp] theorem State.modesWritten_keeps (s : State) :
    (State.modesWritten s).pending = s.pending
      ∧ (State.modesWritten s).part = s.part
      ∧ (State.modesWritten s).mc = s.mc
      ∧ (State.modesWritten s).vc = s.vc
      ∧ (State.modesWritten s).ftq = s.ftq
      ∧ (State.modesWritten s).pantry = s.pantry
      ∧ (State.modesWritten s).larder = s.larder
      ∧ (State.modesWritten s).cellar = s.cellar := by
  unfold State.modesWritten
  try dsimp only
  repeat' (first | (simp; done) | split)


@[simp] theorem State.armJob_keeps (s : State) :
    (State.armJob s).pending = s.pending
      ∧ (State.armJob s).part = s.part
      ∧ (State.armJob s).mc = s.mc
      ∧ (State.armJob s).vc = s.vc
      ∧ (State.armJob s).ftq = s.ftq
      ∧ (State.armJob s).pantry = s.pantry
      ∧ (State.armJob s).larder = s.larder
      ∧ (State.armJob s).cellar = s.cellar := by
  unfold State.armJob
  try dsimp only
  repeat' (first | (simp; done) | split)


@[simp] theorem State.closeArrival_keeps (s : State) (k : Nat) (a : PostArrival) (b : Nat) :
    (State.closeArrival s k a b).pending = s.pending
      ∧ (State.closeArrival s k a b).part = s.part
      ∧ (State.closeArrival s k a b).ftq = s.ftq := by
  unfold State.closeArrival
  try dsimp only
  repeat' (first | (simp; done) | refine (foldl_pending _ _ _ fun _ _ => ?_).trans ?_ | refine (foldl_part _ _ _ fun _ _ => ?_).trans ?_ | refine (foldl_ftq _ _ _ fun _ _ => ?_).trans ?_ | refine (State.onBeat_pending _ _ _ ?_).trans ?_ | refine (State.onProgram_pending _ _ _ ?_).trans ?_ | refine (State.completeAt_pending _ _ _ _ _ ?_).trans ?_ | refine (State.onBeat_part _ _ _ ?_).trans ?_ | refine (State.onProgram_part _ _ _ ?_).trans ?_ | refine (State.completeAt_part _ _ _ _ _ ?_).trans ?_ | refine (State.onBeat_ftq _ _ _ ?_).trans ?_ | refine (State.onProgram_ftq _ _ _ ?_).trans ?_ | refine (State.completeAt_ftq _ _ _ _ _ ?_).trans ?_ | intro _ | split | refine And.intro ?_ ?_ | simp)


@[simp] theorem State.refusePost_keeps (s : State) (k : Nat) (d : PostDesc) :
    (State.refusePost s k d).pending = s.pending
      ∧ (State.refusePost s k d).part = s.part
      ∧ (State.refusePost s k d).mc = s.mc
      ∧ (State.refusePost s k d).vc = s.vc
      ∧ (State.refusePost s k d).ftq = s.ftq
      ∧ (State.refusePost s k d).pantry = s.pantry
      ∧ (State.refusePost s k d).larder = s.larder
      ∧ (State.refusePost s k d).cellar = s.cellar := by
  unfold State.refusePost
  try dsimp only
  repeat' (first | (simp; done) | split)


@[simp] theorem State.turnAway_keeps (s : State) (k : Nat) (a : PostArrival) :
    (State.turnAway s k a).pending = s.pending
      ∧ (State.turnAway s k a).part = s.part
      ∧ (State.turnAway s k a).mc = s.mc
      ∧ (State.turnAway s k a).vc = s.vc
      ∧ (State.turnAway s k a).ftq = s.ftq
      ∧ (State.turnAway s k a).pantry = s.pantry
      ∧ (State.turnAway s k a).larder = s.larder
      ∧ (State.turnAway s k a).cellar = s.cellar := by
  unfold State.turnAway
  try dsimp only
  repeat' (first | (simp; done) | split)


@[simp] theorem State.arrivePost_keeps (s : State) (k : Nat) (f : PostFlight) :
    (State.arrivePost s k f).pending = s.pending
      ∧ (State.arrivePost s k f).part = s.part
      ∧ (State.arrivePost s k f).ftq = s.ftq := by
  unfold State.arrivePost
  try dsimp only
  repeat' (first | (simp; done) | refine (foldl_pending _ _ _ fun _ _ => ?_).trans ?_ | refine (foldl_part _ _ _ fun _ _ => ?_).trans ?_ | refine (foldl_mc _ _ _ fun _ _ => ?_).trans ?_ | refine (foldl_vc _ _ _ fun _ _ => ?_).trans ?_ | refine (foldl_ftq _ _ _ fun _ _ => ?_).trans ?_ | refine (foldl_pantry _ _ _ fun _ _ => ?_).trans ?_ | refine (foldl_larder _ _ _ fun _ _ => ?_).trans ?_ | refine (foldl_cellar _ _ _ fun _ _ => ?_).trans ?_ | refine (State.onBeat_pending _ _ _ ?_).trans ?_ | refine (State.onProgram_pending _ _ _ ?_).trans ?_ | refine (State.completeAt_pending _ _ _ _ _ ?_).trans ?_ | refine (State.onBeat_part _ _ _ ?_).trans ?_ | refine (State.onProgram_part _ _ _ ?_).trans ?_ | refine (State.completeAt_part _ _ _ _ _ ?_).trans ?_ | refine (State.onBeat_ftq _ _ _ ?_).trans ?_ | refine (State.onProgram_ftq _ _ _ ?_).trans ?_ | refine (State.completeAt_ftq _ _ _ _ _ ?_).trans ?_ | intro _ | split | refine And.intro ?_ ?_ | simp)


@[simp] theorem State.askMember_keeps (s : State) (rank : BitVec 16) (message : List Byte) (tag : BitVec 16) :
    (State.askMember s rank message tag).pending = s.pending
      ∧ (State.askMember s rank message tag).part = s.part
      ∧ (State.askMember s rank message tag).mc = s.mc
      ∧ (State.askMember s rank message tag).vc = s.vc
      ∧ (State.askMember s rank message tag).ftq = s.ftq
      ∧ (State.askMember s rank message tag).pantry = s.pantry
      ∧ (State.askMember s rank message tag).larder = s.larder
      ∧ (State.askMember s rank message tag).cellar = s.cellar := by
  unfold State.askMember
  try dsimp only
  repeat' (first | (simp; done) | split)


@[simp] theorem State.sendPass_keeps (s : State) (p : Nat) (bodies : List (BitVec 960)) :
    (State.sendPass s p bodies).pending = s.pending
      ∧ (State.sendPass s p bodies).part = s.part
      ∧ (State.sendPass s p bodies).mc = s.mc
      ∧ (State.sendPass s p bodies).vc = s.vc
      ∧ (State.sendPass s p bodies).ftq = s.ftq
      ∧ (State.sendPass s p bodies).pantry = s.pantry
      ∧ (State.sendPass s p bodies).larder = s.larder
      ∧ (State.sendPass s p bodies).cellar = s.cellar := by
  unfold State.sendPass
  try dsimp only
  repeat' (first | (simp; done) | split)


@[simp] theorem State.askPeer_keeps (s : State) (a : ActiveLoad) (i : Nat) :
    (State.askPeer s a i).pending = s.pending
      ∧ (State.askPeer s a i).part = s.part
      ∧ (State.askPeer s a i).mc = s.mc
      ∧ (State.askPeer s a i).vc = s.vc
      ∧ (State.askPeer s a i).ftq = s.ftq
      ∧ (State.askPeer s a i).pantry = s.pantry
      ∧ (State.askPeer s a i).larder = s.larder
      ∧ (State.askPeer s a i).cellar = s.cellar := by
  unfold State.askPeer
  try dsimp only
  repeat' (first | (simp; done) | split)


@[simp] theorem State.setSpare_keeps (s : State) (g : Nat) (x : Spare) :
    (State.setSpare s g x).pending = s.pending
      ∧ (State.setSpare s g x).part = s.part
      ∧ (State.setSpare s g x).mc = s.mc
      ∧ (State.setSpare s g x).vc = s.vc
      ∧ (State.setSpare s g x).ftq = s.ftq
      ∧ (State.setSpare s g x).pantry = s.pantry
      ∧ (State.setSpare s g x).larder = s.larder
      ∧ (State.setSpare s g x).cellar = s.cellar := by
  unfold State.setSpare
  try dsimp only
  repeat' (first | (simp; done) | split)


@[simp] theorem State.spareSend_keeps (s : State) (n : Nat) (ack : Bool) (lane : BitVec 2) :
    (State.spareSend s n ack lane).pending = s.pending
      ∧ (State.spareSend s n ack lane).part = s.part
      ∧ (State.spareSend s n ack lane).mc = s.mc
      ∧ (State.spareSend s n ack lane).vc = s.vc
      ∧ (State.spareSend s n ack lane).ftq = s.ftq
      ∧ (State.spareSend s n ack lane).pantry = s.pantry
      ∧ (State.spareSend s n ack lane).larder = s.larder
      ∧ (State.spareSend s n ack lane).cellar = s.cellar := by
  unfold State.spareSend
  try dsimp only
  repeat' (first | (simp; done) | split)


@[simp] theorem State.askSwap_keeps (s : State) (n : Nat) (lane : BitVec 2) :
    (State.askSwap s n lane).pending = s.pending
      ∧ (State.askSwap s n lane).part = s.part
      ∧ (State.askSwap s n lane).mc = s.mc
      ∧ (State.askSwap s n lane).vc = s.vc
      ∧ (State.askSwap s n lane).ftq = s.ftq
      ∧ (State.askSwap s n lane).pantry = s.pantry
      ∧ (State.askSwap s n lane).larder = s.larder
      ∧ (State.askSwap s n lane).cellar = s.cellar := by
  unfold State.askSwap
  try dsimp only
  repeat' (first | (simp; done) | split)


@[simp] theorem State.await_keeps (s : State) (f : Run → Bool) :
    (State.await s f).pending = s.pending
      ∧ (State.await s f).part = s.part
      ∧ (State.await s f).ftq = s.ftq := by
  unfold State.await
  try dsimp only
  repeat' (first | (simp; done) | split)


@[simp] theorem State.awaitHand_keeps (s : State) (k : Nat) :
    (State.awaitHand s k).pending = s.pending
      ∧ (State.awaitHand s k).part = s.part
      ∧ (State.awaitHand s k).ftq = s.ftq := by
  unfold State.awaitHand
  try dsimp only
  repeat' (first | (simp; done) | split)


@[simp] theorem State.awaitSend_keeps (s : State) (g : Nat) :
    (State.awaitSend s g).pending = s.pending
      ∧ (State.awaitSend s g).part = s.part
      ∧ (State.awaitSend s g).ftq = s.ftq := by
  unfold State.awaitSend
  try dsimp only
  repeat' (first | (simp; done) | split)


@[simp] theorem State.windowOp_keeps (s : State) :
    (State.windowOp s).pending = s.pending
      ∧ (State.windowOp s).part = s.part
      ∧ (State.windowOp s).mc = s.mc
      ∧ (State.windowOp s).vc = s.vc
      ∧ (State.windowOp s).ftq = s.ftq
      ∧ (State.windowOp s).pantry = s.pantry
      ∧ (State.windowOp s).larder = s.larder
      ∧ (State.windowOp s).cellar = s.cellar := by
  unfold State.windowOp
  try dsimp only
  repeat' (first | (simp; done) | split)


@[simp] theorem State.beginClock_keeps (s : State) :
    (State.beginClock s).pending = s.pending
      ∧ (State.beginClock s).part = s.part
      ∧ (State.beginClock s).mc = s.mc
      ∧ (State.beginClock s).vc = s.vc
      ∧ (State.beginClock s).ftq = s.ftq
      ∧ (State.beginClock s).pantry = s.pantry
      ∧ (State.beginClock s).larder = s.larder
      ∧ (State.beginClock s).cellar = s.cellar := by
  unfold State.beginClock
  try dsimp only
  repeat' (first | (simp; done) | split)


@[simp] theorem State.planActs_keeps (s : State) (rank : Nat) (due : Nat) (aim : Nat) (owner : RunOwner) (claims : List Claim) (acts : List Act) (sink : Sink) :
    (State.planActs s rank due aim owner claims acts sink).1.pending = s.pending
      ∧ (State.planActs s rank due aim owner claims acts sink).1.part = s.part
      ∧ (State.planActs s rank due aim owner claims acts sink).1.ftq = s.ftq
      ∧ (State.planActs s rank due aim owner claims acts sink).1.pantry = s.pantry
      ∧ (State.planActs s rank due aim owner claims acts sink).1.larder = s.larder
      ∧ (State.planActs s rank due aim owner claims acts sink).1.cellar = s.cellar := by
  unfold State.planActs
  try dsimp only
  repeat' (first | (simp; done) | split)


@[simp] theorem State.beginColumn_keeps (s : State) (t : Nat) (b : Nat) :
    (State.beginColumn s t b).pending = s.pending
      ∧ (State.beginColumn s t b).part = s.part
      ∧ (State.beginColumn s t b).ftq = s.ftq
      ∧ (State.beginColumn s t b).pantry = s.pantry
      ∧ (State.beginColumn s t b).larder = s.larder
      ∧ (State.beginColumn s t b).cellar = s.cellar := by
  unfold State.beginColumn
  try dsimp only
  repeat' (first | (simp; done) | split)


@[simp] theorem State.openTransfer_keeps (s : State) (k : Nat) (t : Transfer) :
    (State.openTransfer s k t).pending = s.pending
      ∧ (State.openTransfer s k t).part = s.part
      ∧ (State.openTransfer s k t).mc = s.mc
      ∧ (State.openTransfer s k t).vc = s.vc
      ∧ (State.openTransfer s k t).ftq = s.ftq
      ∧ (State.openTransfer s k t).pantry = s.pantry
      ∧ (State.openTransfer s k t).larder = s.larder
      ∧ (State.openTransfer s k t).cellar = s.cellar := by
  unfold State.openTransfer
  try dsimp only
  repeat' (first | (simp; done) | split)


@[simp] theorem State.beginCopy_keeps (s : State) (k : Nat) (t : Transfer) :
    (State.beginCopy s k t).pending = s.pending
      ∧ (State.beginCopy s k t).part = s.part
      ∧ (State.beginCopy s k t).mc = s.mc
      ∧ (State.beginCopy s k t).vc = s.vc
      ∧ (State.beginCopy s k t).ftq = s.ftq
      ∧ (State.beginCopy s k t).pantry = s.pantry
      ∧ (State.beginCopy s k t).larder = s.larder
      ∧ (State.beginCopy s k t).cellar = s.cellar := by
  unfold State.beginCopy
  extract_lets p e n hits fault buf src1 t1 s1 src2 s2 s3
  have e2 : ∀ u, fault = some u → u.pending = s.pending ∧ u.part = s.part ∧ u.mc = s.mc ∧ u.vc = s.vc ∧ u.ftq = s.ftq ∧ u.pantry = s.pantry ∧ u.larder = s.larder ∧ u.cellar = s.cellar := by
    intro u h
    simp only [fault] at h
    split at h
    · exact State.rowsFault_keeps h
    · cases h
  have e1 : s2.pending = s.pending ∧ s2.part = s.part ∧ s2.mc = s.mc ∧ s2.vc = s.vc ∧ s2.ftq = s.ftq ∧ s2.pantry = s.pantry ∧ s2.larder = s.larder ∧ s2.cellar = s.cellar := by
    unfold s2
    split <;> exact ⟨rfl, rfl, rfl, rfl, rfl, rfl, rfl, rfl⟩
  have e3 : s3.pending = s.pending ∧ s3.part = s.part ∧ s3.mc = s.mc ∧ s3.vc = s.vc ∧ s3.ftq = s.ftq ∧ s3.pantry = s.pantry ∧ s3.larder = s.larder ∧ s3.cellar = s.cellar := by
    simp [s3, e1]
  clear_value fault s3
  cases fault with
  | some u => exact e2 u rfl
  | none =>
    dsimp only
    split <;> simp [e3]


@[simp] theorem State.beginRewind_keeps (s : State) (f : HaltFrame) :
    (State.beginRewind s f).pending = s.pending
      ∧ (State.beginRewind s f).part = s.part
      ∧ (State.beginRewind s f).mc = s.mc
      ∧ (State.beginRewind s f).vc = s.vc
      ∧ (State.beginRewind s f).ftq = s.ftq
      ∧ (State.beginRewind s f).pantry = s.pantry
      ∧ (State.beginRewind s f).larder = s.larder
      ∧ (State.beginRewind s f).cellar = s.cellar := by
  unfold State.beginRewind
  try dsimp only
  repeat' (first | (simp; done) | split)


@[simp] theorem State.sendLocal_keeps (s : State) (n : Nat) (body : BitVec 960) :
    (State.sendLocal s n body).pending = s.pending
      ∧ (State.sendLocal s n body).part = s.part
      ∧ (State.sendLocal s n body).mc = s.mc
      ∧ (State.sendLocal s n body).vc = s.vc
      ∧ (State.sendLocal s n body).ftq = s.ftq
      ∧ (State.sendLocal s n body).pantry = s.pantry
      ∧ (State.sendLocal s n body).larder = s.larder
      ∧ (State.sendLocal s n body).cellar = s.cellar := by
  unfold State.sendLocal
  try dsimp only
  repeat' (first | (simp; done) | split)


@[simp] theorem State.sendDown_keeps (s : State) (body : BitVec 960) :
    (State.sendDown s body).pending = s.pending
      ∧ (State.sendDown s body).part = s.part
      ∧ (State.sendDown s body).mc = s.mc
      ∧ (State.sendDown s body).vc = s.vc
      ∧ (State.sendDown s body).ftq = s.ftq
      ∧ (State.sendDown s body).pantry = s.pantry
      ∧ (State.sendDown s body).larder = s.larder
      ∧ (State.sendDown s body).cellar = s.cellar := by
  unfold State.sendDown
  try dsimp only
  repeat' (first | (simp; done) | split)


@[simp] theorem State.beginRound_keeps (s : State) (epoch : BitVec 32) (mask : BitVec 8) :
    (State.beginRound s epoch mask).pending = s.pending
      ∧ (State.beginRound s epoch mask).part = s.part
      ∧ (State.beginRound s epoch mask).mc = s.mc
      ∧ (State.beginRound s epoch mask).vc = s.vc
      ∧ (State.beginRound s epoch mask).ftq = s.ftq
      ∧ (State.beginRound s epoch mask).pantry = s.pantry
      ∧ (State.beginRound s epoch mask).larder = s.larder
      ∧ (State.beginRound s epoch mask).cellar = s.cellar := by
  unfold State.beginRound
  try dsimp only
  repeat' (first | (simp; done) | split)


@[simp] theorem State.kEmit_keeps (s : State) (f : KFrame) :
    (State.kEmit s f).pending = s.pending
      ∧ (State.kEmit s f).part = s.part
      ∧ (State.kEmit s f).mc = s.mc
      ∧ (State.kEmit s f).vc = s.vc
      ∧ (State.kEmit s f).ftq = s.ftq
      ∧ (State.kEmit s f).pantry = s.pantry
      ∧ (State.kEmit s f).larder = s.larder
      ∧ (State.kEmit s f).cellar = s.cellar := by
  unfold State.kEmit
  try dsimp only
  repeat' (first | (simp; done) | split)


@[simp] theorem State.setChan_keeps (s : State) (c : Nat) (x : KChan) :
    (State.setChan s c x).pending = s.pending
      ∧ (State.setChan s c x).part = s.part
      ∧ (State.setChan s c x).mc = s.mc
      ∧ (State.setChan s c x).vc = s.vc
      ∧ (State.setChan s c x).ftq = s.ftq
      ∧ (State.setChan s c x).pantry = s.pantry
      ∧ (State.setChan s c x).larder = s.larder
      ∧ (State.setChan s c x).cellar = s.cellar := by
  unfold State.setChan
  try dsimp only
  repeat' (first | (simp; done) | split)


@[simp] theorem State.kCtrl_keeps (s : State) (nak : Bool) (a : Nat) :
    (State.kCtrl s nak a).pending = s.pending
      ∧ (State.kCtrl s nak a).part = s.part
      ∧ (State.kCtrl s nak a).mc = s.mc
      ∧ (State.kCtrl s nak a).vc = s.vc
      ∧ (State.kCtrl s nak a).ftq = s.ftq
      ∧ (State.kCtrl s nak a).pantry = s.pantry
      ∧ (State.kCtrl s nak a).larder = s.larder
      ∧ (State.kCtrl s nak a).cellar = s.cellar := by
  unfold State.kCtrl
  try dsimp only
  repeat' (first | (simp; done) | split)


@[simp] theorem State.beginService_keeps (s : State) :
    (State.beginService s).pending = s.pending
      ∧ (State.beginService s).part = s.part
      ∧ (State.beginService s).mc = s.mc
      ∧ (State.beginService s).vc = s.vc
      ∧ (State.beginService s).ftq = s.ftq
      ∧ (State.beginService s).pantry = s.pantry
      ∧ (State.beginService s).larder = s.larder := by
  unfold State.beginService
  extract_lets src1 src2 src3 src4 s1 s2 x s3
  have h : ∀ l : List Nat, ∀ u : State, ∀ v, v = l.foldl (fun s n => s.setPort n (s.port n).beginCounts) u →
      v.pending = u.pending ∧ v.part = u.part ∧ v.mc = u.mc ∧ v.vc = u.vc ∧ v.ftq = u.ftq ∧ v.pantry = u.pantry
        ∧ v.larder = u.larder := by
    intro l
    induction l with
    | nil => rintro u v rfl; simp
    | cons e l ih =>
      rintro u v rfl
      rw [List.foldl_cons]
      simpa using ih (u.setPort e (u.port e).beginCounts) _ rfl
  obtain ⟨h1, h2, h3, h4, h5, h6, h7⟩ := h _ _ s2 rfl
  clear_value s2
  have k1 : s1.pending = s.pending := rfl
  have k2 : s1.part = s.part := rfl
  have k3 : s1.mc = s.mc := rfl
  have k4 : s1.vc = s.vc := rfl
  have k5 : s1.ftq = s.ftq := rfl
  have k6 : s1.pantry = s.pantry := rfl
  have k7 : s1.larder = s.larder := rfl
  clear_value s1
  split <;> simp [s3, *]


@[simp] theorem State.bindEntry_keeps (s : State) (b : Binding) :
    (State.bindEntry s b).pending = s.pending
      ∧ (State.bindEntry s b).part = s.part
      ∧ (State.bindEntry s b).mc = s.mc
      ∧ (State.bindEntry s b).vc = s.vc
      ∧ (State.bindEntry s b).ftq = s.ftq
      ∧ (State.bindEntry s b).pantry = s.pantry
      ∧ (State.bindEntry s b).larder = s.larder
      ∧ (State.bindEntry s b).cellar = s.cellar := by
  unfold State.bindEntry
  try dsimp only
  repeat' (first | (simp; done) | split)


@[simp] theorem State.cellarRecord_keeps (s : State) (k : Nat) (cause : Nat) (addr : Nat) (agent : BitVec 8) :
    (State.cellarRecord s k cause addr agent).pending = s.pending
      ∧ (State.cellarRecord s k cause addr agent).part = s.part
      ∧ (State.cellarRecord s k cause addr agent).mc = s.mc
      ∧ (State.cellarRecord s k cause addr agent).vc = s.vc
      ∧ (State.cellarRecord s k cause addr agent).ftq = s.ftq
      ∧ (State.cellarRecord s k cause addr agent).pantry = s.pantry
      ∧ (State.cellarRecord s k cause addr agent).larder = s.larder
      ∧ (State.cellarRecord s k cause addr agent).cellar = s.cellar := by
  unfold State.cellarRecord
  try dsimp only
  repeat' (first | (simp; done) | split)


@[simp] theorem State.cellarError_keeps (s : State) (k : Nat) (cause : Nat) (addr : Nat) (agent : BitVec 8) (cls : ErrClass) :
    (State.cellarError s k cause addr agent cls).pending = s.pending
      ∧ (State.cellarError s k cause addr agent cls).part = s.part
      ∧ (State.cellarError s k cause addr agent cls).mc = s.mc
      ∧ (State.cellarError s k cause addr agent cls).vc = s.vc
      ∧ (State.cellarError s k cause addr agent cls).ftq = s.ftq
      ∧ (State.cellarError s k cause addr agent cls).pantry = s.pantry
      ∧ (State.cellarError s k cause addr agent cls).larder = s.larder
      ∧ (State.cellarError s k cause addr agent cls).cellar = s.cellar := by
  unfold State.cellarError
  try dsimp only
  repeat' (first | (simp; done) | split)


@[simp] theorem State.stageBlock_keeps (s : State) (c : CellarStream) (k : Nat) (a : Nat) (bytes : Memory) :
    (State.stageBlock s c k a bytes).pending = s.pending
      ∧ (State.stageBlock s c k a bytes).part = s.part
      ∧ (State.stageBlock s c k a bytes).mc = s.mc
      ∧ (State.stageBlock s c k a bytes).vc = s.vc
      ∧ (State.stageBlock s c k a bytes).ftq = s.ftq
      ∧ (State.stageBlock s c k a bytes).pantry = s.pantry
      ∧ (State.stageBlock s c k a bytes).larder = s.larder
      ∧ (State.stageBlock s c k a bytes).cellar = s.cellar := by
  unfold State.stageBlock
  try dsimp only
  repeat' (first | (simp; done) | split)


@[simp] theorem State.blockRead_keeps (s : State) (k : Nat) (c : CellarStream) (ecc : Ecc) (ready : Nat) :
    (State.blockRead s k c ecc ready).pending = s.pending
      ∧ (State.blockRead s k c ecc ready).part = s.part
      ∧ (State.blockRead s k c ecc ready).mc = s.mc
      ∧ (State.blockRead s k c ecc ready).vc = s.vc
      ∧ (State.blockRead s k c ecc ready).ftq = s.ftq
      ∧ (State.blockRead s k c ecc ready).pantry = s.pantry
      ∧ (State.blockRead s k c ecc ready).larder = s.larder
      ∧ (State.blockRead s k c ecc ready).cellar = s.cellar := by
  unfold State.blockRead
  try dsimp only
  repeat' (first | (simp; done) | split)


@[simp] theorem State.blockWritten_keeps (s : State) (k : Nat) (c : CellarStream) (at_ : Nat) :
    (State.blockWritten s k c at_).pending = s.pending
      ∧ (State.blockWritten s k c at_).part = s.part
      ∧ (State.blockWritten s k c at_).mc = s.mc
      ∧ (State.blockWritten s k c at_).vc = s.vc
      ∧ (State.blockWritten s k c at_).ftq = s.ftq
      ∧ (State.blockWritten s k c at_).pantry = s.pantry
      ∧ (State.blockWritten s k c at_).larder = s.larder := by
  unfold State.blockWritten
  try dsimp only
  repeat' (first | (simp; done) | split)


@[simp] theorem State.fuseEnded_keeps (s : State) (newest : Bool) :
    (State.fuseEnded s newest).pending = s.pending
      ∧ (State.fuseEnded s newest).part = s.part
      ∧ (State.fuseEnded s newest).mc = s.mc
      ∧ (State.fuseEnded s newest).vc = s.vc
      ∧ (State.fuseEnded s newest).ftq = s.ftq
      ∧ (State.fuseEnded s newest).pantry = s.pantry
      ∧ (State.fuseEnded s newest).larder = s.larder
      ∧ (State.fuseEnded s newest).cellar = s.cellar := by
  unfold State.fuseEnded
  try dsimp only
  repeat' (first | (simp; done) | split)


@[simp] theorem State.blowFuse_keeps (s : State) (test : Bool) :
    (State.blowFuse s test).pending = s.pending
      ∧ (State.blowFuse s test).part = s.part
      ∧ (State.blowFuse s test).mc = s.mc
      ∧ (State.blowFuse s test).vc = s.vc
      ∧ (State.blowFuse s test).ftq = s.ftq
      ∧ (State.blowFuse s test).pantry = s.pantry
      ∧ (State.blowFuse s test).larder = s.larder
      ∧ (State.blowFuse s test).cellar = s.cellar := by
  unfold State.blowFuse
  try dsimp only
  repeat' (first | (simp; done) | split)

end Sys2Proof.Machine
end

