-- ==== Sys2Proof/Laws/Frames2.lean ====
section
/-! SUPPORT. What the shared operations of packets, posts, jobs and ports leave alone. -/

namespace Sys2Proof.Machine

@[simp] theorem State.checkDrained_keeps (s : State) :
    (State.checkDrained s).pending = s.pending
      ∧ (State.checkDrained s).part = s.part
      ∧ (State.checkDrained s).mc = s.mc
      ∧ (State.checkDrained s).vc = s.vc
      ∧ (State.checkDrained s).ftq = s.ftq
      ∧ (State.checkDrained s).pantry = s.pantry
      ∧ (State.checkDrained s).larder = s.larder
      ∧ (State.checkDrained s).cellar = s.cellar := by
  unfold State.checkDrained
  try dsimp only
  repeat' (first | (simp; done) | split)


@[simp] theorem State.compose_keeps (s : State) (d : Decision) :
    (State.compose s d).pending = s.pending
      ∧ (State.compose s d).part = s.part
      ∧ (State.compose s d).mc = s.mc
      ∧ (State.compose s d).vc = s.vc
      ∧ (State.compose s d).ftq = s.ftq
      ∧ (State.compose s d).pantry = s.pantry
      ∧ (State.compose s d).larder = s.larder
      ∧ (State.compose s d).cellar = s.cellar := by
  unfold State.compose
  try dsimp only
  repeat' (first | (simp; done) | split)


@[simp] theorem State.foldStep_keeps (s : State) :
    (State.foldStep s).pending = s.pending
      ∧ (State.foldStep s).part = s.part
      ∧ (State.foldStep s).mc = s.mc
      ∧ (State.foldStep s).vc = s.vc
      ∧ (State.foldStep s).ftq = s.ftq
      ∧ (State.foldStep s).pantry = s.pantry
      ∧ (State.foldStep s).larder = s.larder
      ∧ (State.foldStep s).cellar = s.cellar := by
  unfold State.foldStep
  try dsimp only
  repeat' (first | (simp; done) | split)


@[simp] theorem State.joinQueue_keeps (s : State) (a : Nat) :
    (State.joinQueue s a).pending = s.pending
      ∧ (State.joinQueue s a).part = s.part
      ∧ (State.joinQueue s a).mc = s.mc
      ∧ (State.joinQueue s a).vc = s.vc
      ∧ (State.joinQueue s a).ftq = s.ftq
      ∧ (State.joinQueue s a).pantry = s.pantry
      ∧ (State.joinQueue s a).larder = s.larder
      ∧ (State.joinQueue s a).cellar = s.cellar := by
  unfold State.joinQueue
  try dsimp only
  repeat' (first | (simp; done) | split)


@[simp] theorem State.unpin_keeps (s : State) (a : Nat) (z : Bool) :
    (State.unpin s a z).pending = s.pending
      ∧ (State.unpin s a z).part = s.part
      ∧ (State.unpin s a z).mc = s.mc
      ∧ (State.unpin s a z).vc = s.vc
      ∧ (State.unpin s a z).ftq = s.ftq
      ∧ (State.unpin s a z).pantry = s.pantry
      ∧ (State.unpin s a z).larder = s.larder
      ∧ (State.unpin s a z).cellar = s.cellar := by
  unfold State.unpin
  try dsimp only
  repeat' (first | (simp; done) | split)


@[simp] theorem State.retire_keeps (s : State) (i : Nat) (reason : BitVec 4) :
    (State.retire s i reason).pending = s.pending
      ∧ (State.retire s i reason).part = s.part
      ∧ (State.retire s i reason).mc = s.mc
      ∧ (State.retire s i reason).vc = s.vc
      ∧ (State.retire s i reason).ftq = s.ftq
      ∧ (State.retire s i reason).pantry = s.pantry
      ∧ (State.retire s i reason).larder = s.larder
      ∧ (State.retire s i reason).cellar = s.cellar := by
  unfold State.retire
  try dsimp only
  repeat' (first | (simp; done) | split)


@[simp] theorem State.settleLodger_keeps (s : State) (c : Nat) (i : Nat) :
    (State.settleLodger s c i).pending = s.pending
      ∧ (State.settleLodger s c i).part = s.part
      ∧ (State.settleLodger s c i).mc = s.mc
      ∧ (State.settleLodger s c i).vc = s.vc
      ∧ (State.settleLodger s c i).ftq = s.ftq
      ∧ (State.settleLodger s c i).pantry = s.pantry
      ∧ (State.settleLodger s c i).larder = s.larder
      ∧ (State.settleLodger s c i).cellar = s.cellar := by
  unfold State.settleLodger
  try dsimp only
  repeat' (first | (simp; done) | split)


@[simp] theorem State.boundary_keeps (s : State) :
    (State.boundary s).pending = s.pending
      ∧ (State.boundary s).part = s.part
      ∧ (State.boundary s).mc = s.mc
      ∧ (State.boundary s).vc = s.vc
      ∧ (State.boundary s).ftq = s.ftq
      ∧ (State.boundary s).pantry = s.pantry
      ∧ (State.boundary s).larder = s.larder
      ∧ (State.boundary s).cellar = s.cellar := by
  unfold State.boundary
  try dsimp only
  repeat' (first | (simp; done) | split)


@[simp] theorem State.reported_keeps (s : State) :
    (State.reported s).pending = s.pending
      ∧ (State.reported s).part = s.part
      ∧ (State.reported s).mc = s.mc
      ∧ (State.reported s).vc = s.vc
      ∧ (State.reported s).ftq = s.ftq
      ∧ (State.reported s).pantry = s.pantry
      ∧ (State.reported s).larder = s.larder
      ∧ (State.reported s).cellar = s.cellar := by
  unfold State.reported
  try dsimp only
  repeat' (first | (simp; done) | split)


@[simp] theorem State.kSendFrame_keeps (s : State) (c : Nat) (w : KWait) :
    (State.kSendFrame s c w).pending = s.pending
      ∧ (State.kSendFrame s c w).part = s.part
      ∧ (State.kSendFrame s c w).mc = s.mc
      ∧ (State.kSendFrame s c w).vc = s.vc
      ∧ (State.kSendFrame s c w).ftq = s.ftq
      ∧ (State.kSendFrame s c w).pantry = s.pantry
      ∧ (State.kSendFrame s c w).larder = s.larder
      ∧ (State.kSendFrame s c w).cellar = s.cellar := by
  unfold State.kSendFrame
  try dsimp only
  repeat' (first | (simp; done) | split)


@[simp] theorem State.kPump_keeps (s : State) (c : Nat) (x2 : Nat) :
    (State.kPump s c x2).pending = s.pending
      ∧ (State.kPump s c x2).part = s.part
      ∧ (State.kPump s c x2).mc = s.mc
      ∧ (State.kPump s c x2).vc = s.vc
      ∧ (State.kPump s c x2).ftq = s.ftq
      ∧ (State.kPump s c x2).pantry = s.pantry
      ∧ (State.kPump s c x2).larder = s.larder
      ∧ (State.kPump s c x2).cellar = s.cellar := by
  induction x2 generalizing s with
  | zero => simp [State.kPump]
  | succ k ih =>
    unfold State.kPump
    dsimp only
    repeat' (first | (simp; done) | (simp [ih]; done) | split)


@[simp] theorem State.kSend_keeps (s : State) (c : Nat) (w : KWait) :
    (State.kSend s c w).pending = s.pending
      ∧ (State.kSend s c w).part = s.part
      ∧ (State.kSend s c w).mc = s.mc
      ∧ (State.kSend s c w).vc = s.vc
      ∧ (State.kSend s c w).ftq = s.ftq
      ∧ (State.kSend s c w).pantry = s.pantry
      ∧ (State.kSend s c w).larder = s.larder
      ∧ (State.kSend s c w).cellar = s.cellar := by
  unfold State.kSend
  try dsimp only
  repeat' (first | (simp; done) | split)


@[simp] theorem State.kRecord_keeps (s : State) (c : Nat) (bs : List Byte) :
    (State.kRecord s c bs).pending = s.pending
      ∧ (State.kRecord s c bs).part = s.part
      ∧ (State.kRecord s c bs).mc = s.mc
      ∧ (State.kRecord s c bs).vc = s.vc
      ∧ (State.kRecord s c bs).ftq = s.ftq
      ∧ (State.kRecord s c bs).pantry = s.pantry
      ∧ (State.kRecord s c bs).larder = s.larder
      ∧ (State.kRecord s c bs).cellar = s.cellar := by
  unfold State.kRecord
  try dsimp only
  repeat' (first | (simp; done) | split)


@[simp] theorem State.completion_keeps (s : State) (kind : BitVec 4) (result : BitVec 4) (tag : BitVec 16) (offset : W64) :
    (State.completion s kind result tag offset).pending = s.pending
      ∧ (State.completion s kind result tag offset).part = s.part
      ∧ (State.completion s kind result tag offset).mc = s.mc
      ∧ (State.completion s kind result tag offset).vc = s.vc
      ∧ (State.completion s kind result tag offset).ftq = s.ftq
      ∧ (State.completion s kind result tag offset).pantry = s.pantry
      ∧ (State.completion s kind result tag offset).larder = s.larder
      ∧ (State.completion s kind result tag offset).cellar = s.cellar := by
  unfold State.completion
  try dsimp only
  repeat' (first | (simp; done) | split)


@[simp] theorem State.kFree_keeps (s : State) (c : Nat) :
    (State.kFree s c).pending = s.pending
      ∧ (State.kFree s c).part = s.part
      ∧ (State.kFree s c).mc = s.mc
      ∧ (State.kFree s c).vc = s.vc
      ∧ (State.kFree s c).ftq = s.ftq
      ∧ (State.kFree s c).pantry = s.pantry
      ∧ (State.kFree s c).larder = s.larder
      ∧ (State.kFree s c).cellar = s.cellar := by
  unfold State.kFree
  try dsimp only
  repeat' (first | (simp; done) | split)


@[simp] theorem State.segmentDone_keeps (s : State) :
    (State.segmentDone s).pending = s.pending
      ∧ (State.segmentDone s).part = s.part
      ∧ (State.segmentDone s).mc = s.mc
      ∧ (State.segmentDone s).vc = s.vc
      ∧ (State.segmentDone s).ftq = s.ftq
      ∧ (State.segmentDone s).pantry = s.pantry
      ∧ (State.segmentDone s).larder = s.larder
      ∧ (State.segmentDone s).cellar = s.cellar := by
  unfold State.segmentDone
  try dsimp only
  repeat' (first | (simp; done) | split)


@[simp] theorem State.refuseSegment_keeps (s : State) (g : List Byte) (result : BitVec 4) :
    (State.refuseSegment s g result).pending = s.pending
      ∧ (State.refuseSegment s g result).part = s.part
      ∧ (State.refuseSegment s g result).mc = s.mc
      ∧ (State.refuseSegment s g result).vc = s.vc
      ∧ (State.refuseSegment s g result).ftq = s.ftq
      ∧ (State.refuseSegment s g result).pantry = s.pantry
      ∧ (State.refuseSegment s g result).larder = s.larder
      ∧ (State.refuseSegment s g result).cellar = s.cellar := by
  unfold State.refuseSegment
  try dsimp only
  repeat' (first | (simp; done) | split)


theorem State.bulkKind_keeps {s : State} {kind : Nat} {serve : State → List Byte → State}
    (h : ∀ s g, (serve s g).pending = s.pending ∧ (serve s g).part = s.part) : resKeeps s (s.bulkKind kind serve) := by
  unfold State.bulkKind
  split
  · exact ⟨rfl, rfl⟩
  · split
    · exact h _ _
    · simp


@[simp] theorem State.countLanded_keeps (s : State) (n : Nat) :
    (State.countLanded s n).pending = s.pending
      ∧ (State.countLanded s n).part = s.part
      ∧ (State.countLanded s n).mc = s.mc
      ∧ (State.countLanded s n).vc = s.vc
      ∧ (State.countLanded s n).ftq = s.ftq
      ∧ (State.countLanded s n).pantry = s.pantry
      ∧ (State.countLanded s n).larder = s.larder
      ∧ (State.countLanded s n).cellar = s.cellar := by
  unfold State.countLanded
  try dsimp only
  repeat' (first | (simp; done) | split)


@[simp] theorem State.takePass_keeps (s : State) (p : Nat) :
    (State.takePass s p).pending = s.pending
      ∧ (State.takePass s p).part = s.part
      ∧ (State.takePass s p).mc = s.mc
      ∧ (State.takePass s p).vc = s.vc
      ∧ (State.takePass s p).ftq = s.ftq
      ∧ (State.takePass s p).pantry = s.pantry
      ∧ (State.takePass s p).larder = s.larder
      ∧ (State.takePass s p).cellar = s.cellar := by
  unfold State.takePass
  try dsimp only
  repeat' (first | (simp; done) | split)


@[simp] theorem State.chainFrame_keeps (s : State) (a : ActiveLoad) (p : Nat) (b : BitVec 960) :
    (State.chainFrame s a p b).pending = s.pending
      ∧ (State.chainFrame s a p b).part = s.part
      ∧ (State.chainFrame s a p b).mc = s.mc
      ∧ (State.chainFrame s a p b).vc = s.vc
      ∧ (State.chainFrame s a p b).ftq = s.ftq
      ∧ (State.chainFrame s a p b).pantry = s.pantry
      ∧ (State.chainFrame s a p b).larder = s.larder
      ∧ (State.chainFrame s a p b).cellar = s.cellar := by
  unfold State.chainFrame
  try dsimp only
  repeat' (first | (simp; done) | split)


theorem State.checkEnds_keeps {s t : State} {k : Nat} {hd : Handed} {x : Transfer}
    (hn : State.checkEnds s k hd x = .stopped t) :
    t.pending = s.pending ∧ t.part = s.part ∧ t.mc = s.mc ∧ t.vc = s.vc ∧ t.ftq = s.ftq ∧ t.pantry = s.pantry ∧ t.larder = s.larder ∧ t.cellar = s.cellar := by
  unfold State.checkEnds at hn
  dsimp only at hn
  have key : ∀ {e : Endpoint} {h : Nat} {r : EndCheck}, s.checkEnd k hd e h = r → r = .stopped t →
      t.pending = s.pending ∧ t.part = s.part ∧ t.mc = s.mc ∧ t.vc = s.vc ∧ t.ftq = s.ftq ∧ t.pantry = s.pantry ∧ t.larder = s.larder ∧ t.cellar = s.cellar := fun h1 h2 => State.checkEnd_keeps (h1.trans h2)
  repeat' split at hn
  all_goals first | (cases hn; done) | exact State.checkEnd_keeps hn | exact key rfl hn


@[simp] theorem State.checkFirmware_keeps (s : State) (g : List Byte) :
    (State.checkFirmware s g).pending = s.pending
      ∧ (State.checkFirmware s g).part = s.part
      ∧ (State.checkFirmware s g).mc = s.mc
      ∧ (State.checkFirmware s g).vc = s.vc
      ∧ (State.checkFirmware s g).ftq = s.ftq
      ∧ (State.checkFirmware s g).pantry = s.pantry
      ∧ (State.checkFirmware s g).larder = s.larder
      ∧ (State.checkFirmware s g).cellar = s.cellar := by
  unfold State.checkFirmware
  try dsimp only
  repeat' (first | (simp; done) | split)


@[simp] theorem State.circuitRanks_keeps (s : State) (f : Flit) :
    (State.circuitRanks s f).1.pending = s.pending
      ∧ (State.circuitRanks s f).1.part = s.part
      ∧ (State.circuitRanks s f).1.mc = s.mc
      ∧ (State.circuitRanks s f).1.vc = s.vc
      ∧ (State.circuitRanks s f).1.ftq = s.ftq
      ∧ (State.circuitRanks s f).1.pantry = s.pantry
      ∧ (State.circuitRanks s f).1.larder = s.larder
      ∧ (State.circuitRanks s f).1.cellar = s.cellar := by
  unfold State.circuitRanks
  try dsimp only
  repeat' (first | (simp; done) | split)


@[simp] theorem State.circuitFlit_keeps (s : State) (n : Nat) (q : Nat) (f : Flit) (out : OutFlit) :
    (State.circuitFlit s n q f out).pending = s.pending
      ∧ (State.circuitFlit s n q f out).part = s.part
      ∧ (State.circuitFlit s n q f out).mc = s.mc
      ∧ (State.circuitFlit s n q f out).vc = s.vc
      ∧ (State.circuitFlit s n q f out).ftq = s.ftq
      ∧ (State.circuitFlit s n q f out).pantry = s.pantry
      ∧ (State.circuitFlit s n q f out).larder = s.larder
      ∧ (State.circuitFlit s n q f out).cellar = s.cellar := by
  unfold State.circuitFlit
  try dsimp only
  repeat' (first | (simp; done) | split)


@[simp] theorem State.clearJob_keeps (s : State) :
    (State.clearJob s).pending = s.pending
      ∧ (State.clearJob s).part = s.part
      ∧ (State.clearJob s).ftq = s.ftq
      ∧ (State.clearJob s).pantry = s.pantry
      ∧ (State.clearJob s).larder = s.larder
      ∧ (State.clearJob s).cellar = s.cellar := by
  unfold State.clearJob
  try dsimp only
  repeat' (first | (simp; done) | split)


@[simp] theorem State.closePost_keeps (s : State) (k : Nat) (b : Nat) :
    (State.closePost s k b).pending = s.pending
      ∧ (State.closePost s k b).part = s.part
      ∧ (State.closePost s k b).ftq = s.ftq := by
  unfold State.closePost
  try dsimp only
  repeat' (first | (simp; done) | split)


@[simp] theorem State.closeHall_keeps (s : State) (h : Nat) (b : Nat) :
    (State.closeHall s h b).pending = s.pending
      ∧ (State.closeHall s h b).part = s.part
      ∧ (State.closeHall s h b).ftq = s.ftq := by
  unfold State.closeHall
  try dsimp only
  repeat' (first | (simp; done) | split)


@[simp] theorem State.commitSlip_keeps (s : State) (cond : Nat) (agent : Nat) :
    (State.commitSlip s cond agent).pending = s.pending
      ∧ (State.commitSlip s cond agent).part = s.part
      ∧ (State.commitSlip s cond agent).mc = s.mc
      ∧ (State.commitSlip s cond agent).vc = s.vc
      ∧ (State.commitSlip s cond agent).ftq = s.ftq
      ∧ (State.commitSlip s cond agent).pantry = s.pantry
      ∧ (State.commitSlip s cond agent).larder = s.larder
      ∧ (State.commitSlip s cond agent).cellar = s.cellar := by
  unfold State.commitSlip
  try dsimp only
  repeat' (first | (simp; done) | split)


@[simp] theorem State.completeAt_pending (s : State) (k : Nat) (t : Transfer) (c : Nat) (f : State → Nat → Transfer → Nat → State)
    (hf : ∀ s k t c, (f s k t c).pending = s.pending) : (s.completeAt k t c f).pending = s.pending := by
  unfold State.completeAt
  refine State.onBeat_pending _ _ _ fun s => ?_
  split
  · rfl
  · simp [hf]

@[simp] theorem State.completeAt_part (s : State) (k : Nat) (t : Transfer) (c : Nat) (f : State → Nat → Transfer → Nat → State)
    (hf : ∀ s k t c, (f s k t c).part = s.part) : (s.completeAt k t c f).part = s.part := by
  unfold State.completeAt
  refine State.onBeat_part _ _ _ fun s => ?_
  split
  · rfl
  · simp [hf]

@[simp] theorem State.completeAt_ftq (s : State) (k : Nat) (t : Transfer) (c : Nat) (f : State → Nat → Transfer → Nat → State)
    (hf : ∀ s k t c, (f s k t c).ftq = s.ftq) : (s.completeAt k t c f).ftq = s.ftq := by
  unfold State.completeAt
  refine State.onBeat_ftq _ _ _ fun s => ?_
  split
  · rfl
  · simp [hf]



@[simp] theorem State.setSignals_keeps (s : State) (k : Nat) (xs : List PorterSignal) :
    (State.setSignals s k xs).pending = s.pending
      ∧ (State.setSignals s k xs).part = s.part
      ∧ (State.setSignals s k xs).mc = s.mc
      ∧ (State.setSignals s k xs).vc = s.vc
      ∧ (State.setSignals s k xs).ftq = s.ftq
      ∧ (State.setSignals s k xs).pantry = s.pantry
      ∧ (State.setSignals s k xs).larder = s.larder
      ∧ (State.setSignals s k xs).cellar = s.cellar := by
  unfold State.setSignals
  try dsimp only
  repeat' (first | (simp; done) | split)


@[simp] theorem State.completeFabric_keeps (s : State) (k : Nat) (t : Transfer) (c : Nat) :
    (State.completeFabric s k t c).pending = s.pending
      ∧ (State.completeFabric s k t c).part = s.part
      ∧ (State.completeFabric s k t c).mc = s.mc
      ∧ (State.completeFabric s k t c).vc = s.vc
      ∧ (State.completeFabric s k t c).ftq = s.ftq
      ∧ (State.completeFabric s k t c).pantry = s.pantry
      ∧ (State.completeFabric s k t c).larder = s.larder
      ∧ (State.completeFabric s k t c).cellar = s.cellar := by
  unfold State.completeFabric
  try dsimp only
  repeat' (first | (simp; done) | split)


@[simp] theorem State.loaderWritten_keeps (s : State) (t : Nat) :
    (State.loaderWritten s t).pending = s.pending
      ∧ (State.loaderWritten s t).part = s.part
      ∧ (State.loaderWritten s t).mc = s.mc
      ∧ (State.loaderWritten s t).vc = s.vc
      ∧ (State.loaderWritten s t).ftq = s.ftq
      ∧ (State.loaderWritten s t).pantry = s.pantry
      ∧ (State.loaderWritten s t).larder = s.larder
      ∧ (State.loaderWritten s t).cellar = s.cellar := by
  unfold State.loaderWritten
  try dsimp only
  repeat' (first | (simp; done) | split)


@[simp] theorem State.oweAcks_keeps (s : State) (k : Nat) (t : Transfer) :
    (State.oweAcks s k t).pending = s.pending
      ∧ (State.oweAcks s k t).part = s.part
      ∧ (State.oweAcks s k t).mc = s.mc
      ∧ (State.oweAcks s k t).vc = s.vc
      ∧ (State.oweAcks s k t).ftq = s.ftq
      ∧ (State.oweAcks s k t).pantry = s.pantry
      ∧ (State.oweAcks s k t).larder = s.larder
      ∧ (State.oweAcks s k t).cellar = s.cellar := by
  unfold State.oweAcks
  try dsimp only
  repeat' (first | (simp; done) | split)


@[simp] theorem State.releaseLast_keeps (s : State) (k : Nat) :
    (State.releaseLast s k).pending = s.pending
      ∧ (State.releaseLast s k).part = s.part
      ∧ (State.releaseLast s k).mc = s.mc
      ∧ (State.releaseLast s k).vc = s.vc
      ∧ (State.releaseLast s k).ftq = s.ftq
      ∧ (State.releaseLast s k).pantry = s.pantry
      ∧ (State.releaseLast s k).larder = s.larder
      ∧ (State.releaseLast s k).cellar = s.cellar := by
  unfold State.releaseLast
  try dsimp only
  repeat' (first | (simp; done) | split)


@[simp] theorem State.completePorter_keeps (s : State) (k : Nat) (t : Transfer) (c : Nat) :
    (State.completePorter s k t c).pending = s.pending
      ∧ (State.completePorter s k t c).part = s.part
      ∧ (State.completePorter s k t c).mc = s.mc
      ∧ (State.completePorter s k t c).vc = s.vc
      ∧ (State.completePorter s k t c).ftq = s.ftq
      ∧ (State.completePorter s k t c).pantry = s.pantry
      ∧ (State.completePorter s k t c).larder = s.larder
      ∧ (State.completePorter s k t c).cellar = s.cellar := by
  unfold State.completePorter
  try dsimp only
  repeat' (first | (simp; done) | split)


@[simp] theorem State.copyLedger_keeps (s : State) :
    (State.copyLedger s).pending = s.pending
      ∧ (State.copyLedger s).part = s.part
      ∧ (State.copyLedger s).mc = s.mc
      ∧ (State.copyLedger s).vc = s.vc
      ∧ (State.copyLedger s).ftq = s.ftq
      ∧ (State.copyLedger s).pantry = s.pantry
      ∧ (State.copyLedger s).larder = s.larder
      ∧ (State.copyLedger s).cellar = s.cellar := by
  unfold State.copyLedger
  try dsimp only
  repeat' (first | (simp; done) | split)


@[simp] theorem State.countCorrected_keeps (s : State) (f : Found) :
    (State.countCorrected s f).pending = s.pending
      ∧ (State.countCorrected s f).part = s.part
      ∧ (State.countCorrected s f).mc = s.mc
      ∧ (State.countCorrected s f).vc = s.vc
      ∧ (State.countCorrected s f).ftq = s.ftq
      ∧ (State.countCorrected s f).pantry = s.pantry
      ∧ (State.countCorrected s f).larder = s.larder
      ∧ (State.countCorrected s f).cellar = s.cellar := by
  unfold State.countCorrected
  try dsimp only
  repeat' (first | (simp; done) | split)


@[simp] theorem State.sendBare_keeps (s : State) (n : Nat) (type : BitVec 4) :
    (State.sendBare s n type).pending = s.pending
      ∧ (State.sendBare s n type).part = s.part
      ∧ (State.sendBare s n type).mc = s.mc
      ∧ (State.sendBare s n type).vc = s.vc
      ∧ (State.sendBare s n type).ftq = s.ftq
      ∧ (State.sendBare s n type).pantry = s.pantry
      ∧ (State.sendBare s n type).larder = s.larder
      ∧ (State.sendBare s n type).cellar = s.cellar := by
  unfold State.sendBare
  try dsimp only
  repeat' (first | (simp; done) | split)


@[simp] theorem State.nakNow_keeps (s : State) (n : Nat) :
    (State.nakNow s n).pending = s.pending
      ∧ (State.nakNow s n).part = s.part
      ∧ (State.nakNow s n).mc = s.mc
      ∧ (State.nakNow s n).vc = s.vc
      ∧ (State.nakNow s n).ftq = s.ftq
      ∧ (State.nakNow s n).pantry = s.pantry
      ∧ (State.nakNow s n).larder = s.larder
      ∧ (State.nakNow s n).cellar = s.cellar := by
  unfold State.nakNow
  try dsimp only
  repeat' (first | (simp; done) | split)


@[simp] theorem State.crcFailure_keeps (s : State) (n : Nat) :
    (State.crcFailure s n).pending = s.pending
      ∧ (State.crcFailure s n).part = s.part
      ∧ (State.crcFailure s n).mc = s.mc
      ∧ (State.crcFailure s n).vc = s.vc
      ∧ (State.crcFailure s n).ftq = s.ftq
      ∧ (State.crcFailure s n).pantry = s.pantry
      ∧ (State.crcFailure s n).larder = s.larder
      ∧ (State.crcFailure s n).cellar = s.cellar := by
  unfold State.crcFailure
  try dsimp only
  repeat' (first | (simp; done) | split)


@[simp] theorem State.dataRun_keeps (s : State) (h : Nat) (owner : RunOwner) (due : Nat) (n : Nat) (run : List (Nat × Nat)) (acts : List Act) (sink : Sink) :
    (State.dataRun s h owner due n run acts sink).1.pending = s.pending
      ∧ (State.dataRun s h owner due n run acts sink).1.part = s.part
      ∧ (State.dataRun s h owner due n run acts sink).1.ftq = s.ftq
      ∧ (State.dataRun s h owner due n run acts sink).1.pantry = s.pantry
      ∧ (State.dataRun s h owner due n run acts sink).1.larder = s.larder
      ∧ (State.dataRun s h owner due n run acts sink).1.cellar = s.cellar := by
  unfold State.dataRun
  try dsimp only
  repeat' (first | (simp; done) | split)


@[simp] theorem State.handTo_keeps (s : State) (k : Nat) (hd : Handed) :
    (State.handTo s k hd).pending = s.pending
      ∧ (State.handTo s k hd).part = s.part
      ∧ (State.handTo s k hd).mc = s.mc
      ∧ (State.handTo s k hd).vc = s.vc
      ∧ (State.handTo s k hd).ftq = s.ftq
      ∧ (State.handTo s k hd).pantry = s.pantry
      ∧ (State.handTo s k hd).larder = s.larder
      ∧ (State.handTo s k hd).cellar = s.cellar := by
  unfold State.handTo
  try dsimp only
  repeat' (first | (simp; done) | split)


@[simp] theorem State.handMap_keeps (s : State) (shape : BitVec 4) :
    (State.handMap s shape).pending = s.pending
      ∧ (State.handMap s shape).part = s.part
      ∧ (State.handMap s shape).mc = s.mc
      ∧ (State.handMap s shape).vc = s.vc
      ∧ (State.handMap s shape).ftq = s.ftq
      ∧ (State.handMap s shape).pantry = s.pantry
      ∧ (State.handMap s shape).larder = s.larder
      ∧ (State.handMap s shape).cellar = s.cellar := by
  unfold State.handMap
  try dsimp only
  repeat' (first | (simp; done) | split)


@[simp] theorem State.latchShape_keeps (s : State) (shape : BitVec 4) :
    (State.latchShape s shape).pending = s.pending
      ∧ (State.latchShape s shape).part = s.part
      ∧ (State.latchShape s shape).ftq = s.ftq
      ∧ (State.latchShape s shape).pantry = s.pantry
      ∧ (State.latchShape s shape).larder = s.larder
      ∧ (State.latchShape s shape).cellar = s.cellar := by
  unfold State.latchShape
  try dsimp only
  repeat' (first | (simp; done) | split)


@[simp] theorem State.launch_keeps (s : State) (shape : BitVec 4) :
    (State.launch s shape).pending = s.pending
      ∧ (State.launch s shape).part = s.part
      ∧ (State.launch s shape).ftq = s.ftq
      ∧ (State.launch s shape).pantry = s.pantry
      ∧ (State.launch s shape).larder = s.larder
      ∧ (State.launch s shape).cellar = s.cellar := by
  unfold State.launch
  try dsimp only
  repeat' (first | (simp; done) | split)


@[simp] theorem State.startReckoners_keeps (s : State) :
    (State.startReckoners s).pending = s.pending
      ∧ (State.startReckoners s).part = s.part
      ∧ (State.startReckoners s).mc = s.mc
      ∧ (State.startReckoners s).vc = s.vc
      ∧ (State.startReckoners s).ftq = s.ftq
      ∧ (State.startReckoners s).pantry = s.pantry
      ∧ (State.startReckoners s).larder = s.larder
      ∧ (State.startReckoners s).cellar = s.cellar := by
  unfold State.startReckoners
  try dsimp only
  repeat' (first | (simp; done) | split)


@[simp] theorem State.deskLaunch_keeps (s : State) (d : Decision) :
    (State.deskLaunch s d).pending = s.pending
      ∧ (State.deskLaunch s d).part = s.part
      ∧ (State.deskLaunch s d).ftq = s.ftq
      ∧ (State.deskLaunch s d).pantry = s.pantry
      ∧ (State.deskLaunch s d).larder = s.larder
      ∧ (State.deskLaunch s d).cellar = s.cellar := by
  unfold State.deskLaunch
  try dsimp only
  repeat' (first | (simp; done) | split)


@[simp] theorem State.discardPass_keeps (s : State) (p : Nat) :
    (State.discardPass s p).pending = s.pending
      ∧ (State.discardPass s p).part = s.part
      ∧ (State.discardPass s p).mc = s.mc
      ∧ (State.discardPass s p).vc = s.vc
      ∧ (State.discardPass s p).ftq = s.ftq
      ∧ (State.discardPass s p).pantry = s.pantry
      ∧ (State.discardPass s p).larder = s.larder
      ∧ (State.discardPass s p).cellar = s.cellar := by
  unfold State.discardPass
  try dsimp only
  repeat' (first | (simp; done) | split)


@[simp] theorem State.overtake_keeps (s : State) (h : HallId) (dsts : List Nat) (v : VCore) (f : VCore → VCore) :
    (State.overtake s h dsts v f).pending = s.pending
      ∧ (State.overtake s h dsts v f).part = s.part
      ∧ (State.overtake s h dsts v f).mc = s.mc
      ∧ (State.overtake s h dsts v f).vc = s.vc
      ∧ (State.overtake s h dsts v f).ftq = s.ftq
      ∧ (State.overtake s h dsts v f).pantry = s.pantry
      ∧ (State.overtake s h dsts v f).larder = s.larder
      ∧ (State.overtake s h dsts v f).cellar = s.cellar := by
  unfold State.overtake
  try dsimp only
  repeat' (first | (simp; done) | split)


@[simp] theorem State.doPrecv_keeps (s : State) (h : HallId) (a : CArgs) (b : Nat) :
    (State.doPrecv s h a b).pending = s.pending
      ∧ (State.doPrecv s h a b).part = s.part
      ∧ (State.doPrecv s h a b).ftq = s.ftq := by
  unfold State.doPrecv
  try dsimp only
  repeat' (first | (simp; done) | refine (foldl_pending _ _ _ fun _ _ => ?_).trans ?_ | refine (foldl_part _ _ _ fun _ _ => ?_).trans ?_ | refine (foldl_ftq _ _ _ fun _ _ => ?_).trans ?_ | refine (State.onBeat_pending _ _ _ ?_).trans ?_ | refine (State.onProgram_pending _ _ _ ?_).trans ?_ | refine (State.completeAt_pending _ _ _ _ _ ?_).trans ?_ | refine (State.onBeat_part _ _ _ ?_).trans ?_ | refine (State.onProgram_part _ _ _ ?_).trans ?_ | refine (State.completeAt_part _ _ _ _ _ ?_).trans ?_ | refine (State.onBeat_ftq _ _ _ ?_).trans ?_ | refine (State.onProgram_ftq _ _ _ ?_).trans ?_ | refine (State.completeAt_ftq _ _ _ _ _ ?_).trans ?_ | intro _ | split | refine And.intro ?_ ?_ | simp)


@[simp] theorem State.doTld_keeps (s : State) (h : HallId) (a : MArgs) (b : Nat) :
    (State.doTld s h a b).pending = s.pending
      ∧ (State.doTld s h a b).part = s.part
      ∧ (State.doTld s h a b).ftq = s.ftq := by
  unfold State.doTld
  try dsimp only
  repeat' (first | (simp; done) | refine (foldl_pending _ _ _ fun _ _ => ?_).trans ?_ | refine (foldl_part _ _ _ fun _ _ => ?_).trans ?_ | refine (foldl_ftq _ _ _ fun _ _ => ?_).trans ?_ | refine (State.onBeat_pending _ _ _ ?_).trans ?_ | refine (State.onProgram_pending _ _ _ ?_).trans ?_ | refine (State.completeAt_pending _ _ _ _ _ ?_).trans ?_ | refine (State.onBeat_part _ _ _ ?_).trans ?_ | refine (State.onProgram_part _ _ _ ?_).trans ?_ | refine (State.completeAt_part _ _ _ _ _ ?_).trans ?_ | refine (State.onBeat_ftq _ _ _ ?_).trans ?_ | refine (State.onProgram_ftq _ _ _ ?_).trans ?_ | refine (State.completeAt_ftq _ _ _ _ _ ?_).trans ?_ | intro _ | split | refine And.intro ?_ ?_ | simp)


@[simp] theorem State.setQueue_keeps (s : State) (c : Nat) (q : Ftq) :
    (State.setQueue s c q).pending = s.pending
      ∧ (State.setQueue s c q).part = s.part
      ∧ (State.setQueue s c q).mc = s.mc
      ∧ (State.setQueue s c q).vc = s.vc
      ∧ (State.setQueue s c q).pantry = s.pantry
      ∧ (State.setQueue s c q).larder = s.larder
      ∧ (State.setQueue s c q).cellar = s.cellar := by
  unfold State.setQueue
  try dsimp only
  repeat' (first | (simp; done) | split)


@[simp] theorem State.doTrel_keeps (s : State) (h : HallId) (a : CArgs) (b : Nat) :
    (State.doTrel s h a b).pending = s.pending ∧ (State.doTrel s h a b).part = s.part := by
  unfold State.doTrel
  try dsimp only
  repeat' (first | (simp; done) | refine (foldl_pending _ _ _ fun _ _ => ?_).trans ?_ | refine (foldl_part _ _ _ fun _ _ => ?_).trans ?_ | refine (State.onBeat_pending _ _ _ ?_).trans ?_ | refine (State.onProgram_pending _ _ _ ?_).trans ?_ | refine (State.completeAt_pending _ _ _ _ _ ?_).trans ?_ | refine (State.onBeat_part _ _ _ ?_).trans ?_ | refine (State.onProgram_part _ _ _ ?_).trans ?_ | refine (State.completeAt_part _ _ _ _ _ ?_).trans ?_ | intro _ | split | refine And.intro ?_ ?_ | simp)


@[simp] theorem State.doTwait_keeps (s : State) (h : HallId) (a : CArgs) (b : Nat) :
    (State.doTwait s h a b).pending = s.pending
      ∧ (State.doTwait s h a b).part = s.part
      ∧ (State.doTwait s h a b).ftq = s.ftq := by
  unfold State.doTwait
  try dsimp only
  repeat' (first | (simp; done) | refine (foldl_pending _ _ _ fun _ _ => ?_).trans ?_ | refine (foldl_part _ _ _ fun _ _ => ?_).trans ?_ | refine (foldl_ftq _ _ _ fun _ _ => ?_).trans ?_ | refine (State.onBeat_pending _ _ _ ?_).trans ?_ | refine (State.onProgram_pending _ _ _ ?_).trans ?_ | refine (State.completeAt_pending _ _ _ _ _ ?_).trans ?_ | refine (State.onBeat_part _ _ _ ?_).trans ?_ | refine (State.onProgram_part _ _ _ ?_).trans ?_ | refine (State.completeAt_part _ _ _ _ _ ?_).trans ?_ | refine (State.onBeat_ftq _ _ _ ?_).trans ?_ | refine (State.onProgram_ftq _ _ _ ?_).trans ?_ | refine (State.completeAt_ftq _ _ _ _ _ ?_).trans ?_ | intro _ | split | refine And.intro ?_ ?_ | simp)


@[simp] theorem State.guardRaiseAt_keeps (s : State) (cause : Nat) (t : Nat) (agent : Nat) (addr : Nat) :
    (State.guardRaiseAt s cause t agent addr).pending = s.pending
      ∧ (State.guardRaiseAt s cause t agent addr).part = s.part
      ∧ (State.guardRaiseAt s cause t agent addr).mc = s.mc
      ∧ (State.guardRaiseAt s cause t agent addr).vc = s.vc
      ∧ (State.guardRaiseAt s cause t agent addr).ftq = s.ftq
      ∧ (State.guardRaiseAt s cause t agent addr).pantry = s.pantry
      ∧ (State.guardRaiseAt s cause t agent addr).larder = s.larder
      ∧ (State.guardRaiseAt s cause t agent addr).cellar = s.cellar := by
  unfold State.guardRaiseAt
  try dsimp only
  repeat' (first | (simp; done) | split)


@[simp] theorem State.drainFull_keeps (s : State) (c : MCoreId) (p : DrainPiece) :
    (State.drainFull s c p).pending = s.pending
      ∧ (State.drainFull s c p).part = s.part
      ∧ (State.drainFull s c p).vc = s.vc
      ∧ (State.drainFull s c p).ftq = s.ftq
      ∧ (State.drainFull s c p).pantry = s.pantry
      ∧ (State.drainFull s c p).larder = s.larder
      ∧ (State.drainFull s c p).cellar = s.cellar := by
  unfold State.drainFull
  try dsimp only
  repeat' (first | (simp; done) | split)


@[simp] theorem State.emptyPort_keeps (s : State) (n : Nat) :
    (State.emptyPort s n).pending = s.pending
      ∧ (State.emptyPort s n).part = s.part
      ∧ (State.emptyPort s n).mc = s.mc
      ∧ (State.emptyPort s n).vc = s.vc
      ∧ (State.emptyPort s n).ftq = s.ftq
      ∧ (State.emptyPort s n).pantry = s.pantry
      ∧ (State.emptyPort s n).larder = s.larder
      ∧ (State.emptyPort s n).cellar = s.cellar := by
  unfold State.emptyPort
  try dsimp only
  repeat' (first | (simp; done) | split)

@[simp] theorem State.emptyAll_keeps (s : State) :
    (State.emptyAll s).pending = s.pending
      ∧ (State.emptyAll s).part = s.part
      ∧ (State.emptyAll s).mc = s.mc
      ∧ (State.emptyAll s).vc = s.vc
      ∧ (State.emptyAll s).ftq = s.ftq
      ∧ (State.emptyAll s).pantry = s.pantry
      ∧ (State.emptyAll s).larder = s.larder
      ∧ (State.emptyAll s).cellar = s.cellar := by
  unfold State.emptyAll
  try dsimp only
  repeat' (first | (simp; done) | split)


@[simp] theorem State.sendReply_keeps (s : State) (r : DictReply) :
    (State.sendReply s r).pending = s.pending
      ∧ (State.sendReply s r).part = s.part
      ∧ (State.sendReply s r).mc = s.mc
      ∧ (State.sendReply s r).vc = s.vc
      ∧ (State.sendReply s r).ftq = s.ftq
      ∧ (State.sendReply s r).pantry = s.pantry
      ∧ (State.sendReply s r).larder = s.larder
      ∧ (State.sendReply s r).cellar = s.cellar := by
  unfold State.sendReply
  try dsimp only
  repeat' (first | (simp; done) | split)


@[simp] theorem State.endFan_keeps (s : State) (f : FanOut) :
    (State.endFan s f).pending = s.pending
      ∧ (State.endFan s f).part = s.part
      ∧ (State.endFan s f).mc = s.mc
      ∧ (State.endFan s f).vc = s.vc
      ∧ (State.endFan s f).ftq = s.ftq
      ∧ (State.endFan s f).pantry = s.pantry
      ∧ (State.endFan s f).larder = s.larder
      ∧ (State.endFan s f).cellar = s.cellar := by
  unfold State.endFan
  try dsimp only
  repeat' (first | (simp; done) | split)


@[simp] theorem State.endRound_keeps (s : State) :
    (State.endRound s).pending = s.pending
      ∧ (State.endRound s).part = s.part
      ∧ (State.endRound s).mc = s.mc
      ∧ (State.endRound s).vc = s.vc
      ∧ (State.endRound s).ftq = s.ftq
      ∧ (State.endRound s).pantry = s.pantry
      ∧ (State.endRound s).larder = s.larder
      ∧ (State.endRound s).cellar = s.cellar := by
  unfold State.endRound
  try dsimp only
  repeat' (first | (simp; done) | split)


@[simp] theorem State.f0Lost_keeps (s : State) (c : Nat) :
    (State.f0Lost s c).pending = s.pending
      ∧ (State.f0Lost s c).part = s.part
      ∧ (State.f0Lost s c).mc = s.mc
      ∧ (State.f0Lost s c).vc = s.vc
      ∧ (State.f0Lost s c).ftq = s.ftq
      ∧ (State.f0Lost s c).pantry = s.pantry
      ∧ (State.f0Lost s c).larder = s.larder
      ∧ (State.f0Lost s c).cellar = s.cellar := by
  unfold State.f0Lost
  try dsimp only
  repeat' (first | (simp; done) | split)


@[simp] theorem State.f0Train_keeps (s : State) (c : Nat) (i : F0Init) :
    (State.f0Train s c i).pending = s.pending
      ∧ (State.f0Train s c i).part = s.part
      ∧ (State.f0Train s c i).mc = s.mc
      ∧ (State.f0Train s c i).vc = s.vc
      ∧ (State.f0Train s c i).ftq = s.ftq
      ∧ (State.f0Train s c i).pantry = s.pantry
      ∧ (State.f0Train s c i).larder = s.larder
      ∧ (State.f0Train s c i).cellar = s.cellar := by
  unfold State.f0Train
  try dsimp only
  repeat' (first | (simp; done) | split)


@[simp] theorem State.f0Trained_keeps (s : State) (inits : List F0Init) :
    (State.f0Trained s inits).pending = s.pending
      ∧ (State.f0Trained s inits).part = s.part
      ∧ (State.f0Trained s inits).mc = s.mc
      ∧ (State.f0Trained s inits).vc = s.vc
      ∧ (State.f0Trained s inits).ftq = s.ftq
      ∧ (State.f0Trained s inits).pantry = s.pantry
      ∧ (State.f0Trained s inits).larder = s.larder
      ∧ (State.f0Trained s inits).cellar = s.cellar := by
  unfold State.f0Trained
  try dsimp only
  repeat' (first | (simp; done) | refine (foldl_pending _ _ _ fun _ _ => ?_).trans ?_ | refine (foldl_part _ _ _ fun _ _ => ?_).trans ?_ | refine (foldl_mc _ _ _ fun _ _ => ?_).trans ?_ | refine (foldl_vc _ _ _ fun _ _ => ?_).trans ?_ | refine (foldl_ftq _ _ _ fun _ _ => ?_).trans ?_ | refine (foldl_pantry _ _ _ fun _ _ => ?_).trans ?_ | refine (foldl_larder _ _ _ fun _ _ => ?_).trans ?_ | refine (foldl_cellar _ _ _ fun _ _ => ?_).trans ?_ | refine (State.onBeat_pending _ _ _ ?_).trans ?_ | refine (State.onProgram_pending _ _ _ ?_).trans ?_ | refine (State.completeAt_pending _ _ _ _ _ ?_).trans ?_ | refine (State.onBeat_part _ _ _ ?_).trans ?_ | refine (State.onProgram_part _ _ _ ?_).trans ?_ | refine (State.completeAt_part _ _ _ _ _ ?_).trans ?_ | refine (State.onBeat_ftq _ _ _ ?_).trans ?_ | refine (State.onProgram_ftq _ _ _ ?_).trans ?_ | refine (State.completeAt_ftq _ _ _ _ _ ?_).trans ?_ | intro _ | split | refine And.intro ?_ ?_ | simp)


@[simp] theorem State.failAgain_keeps (s : State) (f : Found) :
    (State.failAgain s f).pending = s.pending
      ∧ (State.failAgain s f).part = s.part
      ∧ (State.failAgain s f).mc = s.mc
      ∧ (State.failAgain s f).vc = s.vc
      ∧ (State.failAgain s f).ftq = s.ftq
      ∧ (State.failAgain s f).pantry = s.pantry
      ∧ (State.failAgain s f).larder = s.larder
      ∧ (State.failAgain s f).cellar = s.cellar := by
  unfold State.failAgain
  try dsimp only
  repeat' (first | (simp; done) | split)


@[simp] theorem State.failAttempt_keeps (s : State) (a : ActiveLoad) (i : Nat) (cause : Nat) :
    (State.failAttempt s a i cause).pending = s.pending
      ∧ (State.failAttempt s a i cause).part = s.part
      ∧ (State.failAttempt s a i cause).mc = s.mc
      ∧ (State.failAttempt s a i cause).vc = s.vc
      ∧ (State.failAttempt s a i cause).ftq = s.ftq
      ∧ (State.failAttempt s a i cause).pantry = s.pantry
      ∧ (State.failAttempt s a i cause).larder = s.larder
      ∧ (State.failAttempt s a i cause).cellar = s.cellar := by
  unfold State.failAttempt
  try dsimp only
  repeat' (first | (simp; done) | split)


@[simp] theorem State.flashError_keeps (s : State) (ctrl : Nat) :
    (State.flashError s ctrl).pending = s.pending
      ∧ (State.flashError s ctrl).part = s.part
      ∧ (State.flashError s ctrl).mc = s.mc
      ∧ (State.flashError s ctrl).vc = s.vc
      ∧ (State.flashError s ctrl).ftq = s.ftq
      ∧ (State.flashError s ctrl).pantry = s.pantry
      ∧ (State.flashError s ctrl).larder = s.larder
      ∧ (State.flashError s ctrl).cellar = s.cellar := by
  unfold State.flashError
  try dsimp only
  repeat' (first | (simp; done) | split)


@[simp] theorem State.flashEnded_keeps (s : State) (i : Nat) (ok : Bool) :
    (State.flashEnded s i ok).pending = s.pending
      ∧ (State.flashEnded s i ok).part = s.part
      ∧ (State.flashEnded s i ok).mc = s.mc
      ∧ (State.flashEnded s i ok).vc = s.vc
      ∧ (State.flashEnded s i ok).ftq = s.ftq
      ∧ (State.flashEnded s i ok).pantry = s.pantry
      ∧ (State.flashEnded s i ok).larder = s.larder
      ∧ (State.flashEnded s i ok).cellar = s.cellar := by
  unfold State.flashEnded
  try dsimp only
  repeat' (first | (simp; done) | split)


@[simp] theorem State.failFlash_keeps (s : State) (c : Bool) (x2 : Nat) :
    (State.failFlash s c x2).pending = s.pending
      ∧ (State.failFlash s c x2).part = s.part
      ∧ (State.failFlash s c x2).mc = s.mc
      ∧ (State.failFlash s c x2).vc = s.vc
      ∧ (State.failFlash s c x2).ftq = s.ftq
      ∧ (State.failFlash s c x2).pantry = s.pantry
      ∧ (State.failFlash s c x2).larder = s.larder
      ∧ (State.failFlash s c x2).cellar = s.cellar := by
  induction x2 generalizing s with
  | zero => simp [State.failFlash]
  | succ k ih =>
    unfold State.failFlash
    repeat' (first | (simp; done) | (simp [ih]; done) | split)


@[simp] theorem State.failOlder_keeps (s : State) (index : Nat) (sub : Nat) (keep : Bool) :
    (State.failOlder s index sub keep).pending = s.pending
      ∧ (State.failOlder s index sub keep).part = s.part
      ∧ (State.failOlder s index sub keep).mc = s.mc
      ∧ (State.failOlder s index sub keep).vc = s.vc
      ∧ (State.failOlder s index sub keep).ftq = s.ftq
      ∧ (State.failOlder s index sub keep).pantry = s.pantry
      ∧ (State.failOlder s index sub keep).larder = s.larder
      ∧ (State.failOlder s index sub keep).cellar = s.cellar := by
  unfold State.failOlder
  try dsimp only
  repeat' (first | (simp; done) | split)


@[simp] theorem State.failOwed_keeps (s : State) :
    (State.failOwed s).pending = s.pending
      ∧ (State.failOwed s).part = s.part
      ∧ (State.failOwed s).mc = s.mc
      ∧ (State.failOwed s).vc = s.vc
      ∧ (State.failOwed s).ftq = s.ftq
      ∧ (State.failOwed s).pantry = s.pantry
      ∧ (State.failOwed s).larder = s.larder
      ∧ (State.failOwed s).cellar = s.cellar := by
  unfold State.failOwed
  try dsimp only
  repeat' (first | (simp; done) | split)


@[simp] theorem State.failReads_keeps (s : State) (c : Nat) :
    (State.failReads s c).pending = s.pending
      ∧ (State.failReads s c).part = s.part
      ∧ (State.failReads s c).mc = s.mc
      ∧ (State.failReads s c).vc = s.vc
      ∧ (State.failReads s c).ftq = s.ftq
      ∧ (State.failReads s c).pantry = s.pantry
      ∧ (State.failReads s c).larder = s.larder
      ∧ (State.failReads s c).cellar = s.cellar := by
  unfold State.failReads
  try dsimp only
  repeat' (first | (simp; done) | refine (foldl_pending _ _ _ fun _ _ => ?_).trans ?_ | refine (foldl_part _ _ _ fun _ _ => ?_).trans ?_ | refine (foldl_mc _ _ _ fun _ _ => ?_).trans ?_ | refine (foldl_vc _ _ _ fun _ _ => ?_).trans ?_ | refine (foldl_ftq _ _ _ fun _ _ => ?_).trans ?_ | refine (foldl_pantry _ _ _ fun _ _ => ?_).trans ?_ | refine (foldl_larder _ _ _ fun _ _ => ?_).trans ?_ | refine (foldl_cellar _ _ _ fun _ _ => ?_).trans ?_ | refine (State.onBeat_pending _ _ _ ?_).trans ?_ | refine (State.onProgram_pending _ _ _ ?_).trans ?_ | refine (State.completeAt_pending _ _ _ _ _ ?_).trans ?_ | refine (State.onBeat_part _ _ _ ?_).trans ?_ | refine (State.onProgram_part _ _ _ ?_).trans ?_ | refine (State.completeAt_part _ _ _ _ _ ?_).trans ?_ | refine (State.onBeat_ftq _ _ _ ?_).trans ?_ | refine (State.onProgram_ftq _ _ _ ?_).trans ?_ | refine (State.completeAt_ftq _ _ _ _ _ ?_).trans ?_ | intro _ | split | refine And.intro ?_ ?_ | simp)


@[simp] theorem State.markAll_keeps (s : State) (banks : List Nat) (b : Nat) :
    (State.markAll s banks b).pending = s.pending
      ∧ (State.markAll s banks b).part = s.part
      ∧ (State.markAll s banks b).ftq = s.ftq
      ∧ (State.markAll s banks b).pantry = s.pantry
      ∧ (State.markAll s banks b).larder = s.larder
      ∧ (State.markAll s banks b).cellar = s.cellar := by
  unfold State.markAll
  try dsimp only
  repeat' (first | (simp; done) | split)


@[simp] theorem State.fetchChain_keeps (s : State) (k : Nat) (tile : BitVec 8) (gran : BitVec 15) (b : Nat) :
    (State.fetchChain s k tile gran b).pending = s.pending
      ∧ (State.fetchChain s k tile gran b).part = s.part
      ∧ (State.fetchChain s k tile gran b).ftq = s.ftq := by
  unfold State.fetchChain
  try dsimp only
  repeat' (first | (simp; done) | refine (foldl_pending _ _ _ fun _ _ => ?_).trans ?_ | refine (foldl_part _ _ _ fun _ _ => ?_).trans ?_ | refine (foldl_ftq _ _ _ fun _ _ => ?_).trans ?_ | refine (State.onBeat_pending _ _ _ ?_).trans ?_ | refine (State.onProgram_pending _ _ _ ?_).trans ?_ | refine (State.completeAt_pending _ _ _ _ _ ?_).trans ?_ | refine (State.onBeat_part _ _ _ ?_).trans ?_ | refine (State.onProgram_part _ _ _ ?_).trans ?_ | refine (State.completeAt_part _ _ _ _ _ ?_).trans ?_ | refine (State.onBeat_ftq _ _ _ ?_).trans ?_ | refine (State.onProgram_ftq _ _ _ ?_).trans ?_ | refine (State.completeAt_ftq _ _ _ _ _ ?_).trans ?_ | intro _ | split | refine And.intro ?_ ?_ | simp)


@[simp] theorem State.fillRegion_keeps (s : State) (b : Binding) :
    (State.fillRegion s b).pending = s.pending
      ∧ (State.fillRegion s b).part = s.part
      ∧ (State.fillRegion s b).mc = s.mc
      ∧ (State.fillRegion s b).vc = s.vc
      ∧ (State.fillRegion s b).ftq = s.ftq
      ∧ (State.fillRegion s b).pantry = s.pantry
      ∧ (State.fillRegion s b).cellar = s.cellar := by
  unfold State.fillRegion
  try dsimp only
  repeat' (first | (simp; done) | split)


@[simp] theorem State.finish_keeps (s : State) (path : DictPath) (message : List Byte) :
    (State.finish s path message).pending = s.pending
      ∧ (State.finish s path message).part = s.part
      ∧ (State.finish s path message).mc = s.mc
      ∧ (State.finish s path message).vc = s.vc
      ∧ (State.finish s path message).ftq = s.ftq
      ∧ (State.finish s path message).pantry = s.pantry
      ∧ (State.finish s path message).larder = s.larder
      ∧ (State.finish s path message).cellar = s.cellar := by
  unfold State.finish
  try dsimp only
  repeat' (first | (simp; done) | split)


@[simp] theorem State.flashAnswer_keeps (s : State) (r : Option (List Byte)) :
    (State.flashAnswer s r).pending = s.pending
      ∧ (State.flashAnswer s r).part = s.part
      ∧ (State.flashAnswer s r).mc = s.mc
      ∧ (State.flashAnswer s r).vc = s.vc
      ∧ (State.flashAnswer s r).ftq = s.ftq
      ∧ (State.flashAnswer s r).pantry = s.pantry
      ∧ (State.flashAnswer s r).larder = s.larder
      ∧ (State.flashAnswer s r).cellar = s.cellar := by
  unfold State.flashAnswer
  try dsimp only
  repeat' (first | (simp; done) | split)


@[simp] theorem State.flushNs_keeps (s : State) (g : List Byte) :
    (State.flushNs s g).pending = s.pending
      ∧ (State.flushNs s g).part = s.part
      ∧ (State.flushNs s g).mc = s.mc
      ∧ (State.flushNs s g).vc = s.vc
      ∧ (State.flushNs s g).ftq = s.ftq
      ∧ (State.flushNs s g).pantry = s.pantry
      ∧ (State.flushNs s g).larder = s.larder
      ∧ (State.flushNs s g).cellar = s.cellar := by
  unfold State.flushNs
  try dsimp only
  repeat' (first | (simp; done) | split)


@[simp] theorem State.takeGens_keeps (s : State) (l : Latched) :
    (State.takeGens s l).pending = s.pending
      ∧ (State.takeGens s l).part = s.part
      ∧ (State.takeGens s l).mc = s.mc
      ∧ (State.takeGens s l).vc = s.vc
      ∧ (State.takeGens s l).ftq = s.ftq
      ∧ (State.takeGens s l).pantry = s.pantry
      ∧ (State.takeGens s l).larder = s.larder
      ∧ (State.takeGens s l).cellar = s.cellar := by
  unfold State.takeGens
  try dsimp only
  repeat' (first | (simp; done) | split)


@[simp] theorem State.followerLaunch_keeps (s : State) (l : Latched) :
    (State.followerLaunch s l).pending = s.pending
      ∧ (State.followerLaunch s l).part = s.part
      ∧ (State.followerLaunch s l).ftq = s.ftq
      ∧ (State.followerLaunch s l).pantry = s.pantry
      ∧ (State.followerLaunch s l).larder = s.larder
      ∧ (State.followerLaunch s l).cellar = s.cellar := by
  unfold State.followerLaunch
  try dsimp only
  repeat' (first | (simp; done) | split)


@[simp] theorem State.freeContext_keeps (s : State) (k : Nat) (t : Transfer) (x : Nat) :
    (State.freeContext s k t x).pending = s.pending
      ∧ (State.freeContext s k t x).part = s.part
      ∧ (State.freeContext s k t x).mc = s.mc
      ∧ (State.freeContext s k t x).vc = s.vc
      ∧ (State.freeContext s k t x).ftq = s.ftq
      ∧ (State.freeContext s k t x).pantry = s.pantry
      ∧ (State.freeContext s k t x).larder = s.larder
      ∧ (State.freeContext s k t x).cellar = s.cellar := by
  unfold State.freeContext
  try dsimp only
  repeat' (first | (simp; done) | split)


@[simp] theorem State.freeCore_keeps (s : State) (core : Option Nat) (w : Nat) :
    (State.freeCore s core w).pending = s.pending
      ∧ (State.freeCore s core w).part = s.part
      ∧ (State.freeCore s core w).mc = s.mc
      ∧ (State.freeCore s core w).ftq = s.ftq
      ∧ (State.freeCore s core w).pantry = s.pantry
      ∧ (State.freeCore s core w).larder = s.larder
      ∧ (State.freeCore s core w).cellar = s.cellar := by
  unfold State.freeCore
  try dsimp only
  repeat' (first | (simp; done) | split)


@[simp] theorem State.gather_keeps (s : State) (x : FlashRun) :
    (State.gather s x).pending = s.pending
      ∧ (State.gather s x).part = s.part
      ∧ (State.gather s x).mc = s.mc
      ∧ (State.gather s x).vc = s.vc
      ∧ (State.gather s x).ftq = s.ftq
      ∧ (State.gather s x).pantry = s.pantry
      ∧ (State.gather s x).larder = s.larder
      ∧ (State.gather s x).cellar = s.cellar := by
  unfold State.gather
  try dsimp only
  repeat' (first | (simp; done) | split)


@[simp] theorem State.gridSerial_keeps (s : State) (e : Endpoint) (slice : Nat) (js : List Nat) :
    (State.gridSerial s e slice js).pending = s.pending
      ∧ (State.gridSerial s e slice js).part = s.part
      ∧ (State.gridSerial s e slice js).mc = s.mc
      ∧ (State.gridSerial s e slice js).vc = s.vc
      ∧ (State.gridSerial s e slice js).ftq = s.ftq
      ∧ (State.gridSerial s e slice js).pantry = s.pantry
      ∧ (State.gridSerial s e slice js).larder = s.larder
      ∧ (State.gridSerial s e slice js).cellar = s.cellar := by
  unfold State.gridSerial
  try dsimp only
  repeat' (first | (simp; done) | split)


@[simp] theorem State.handAction_keeps (s : State) (index : Nat) (sub : Nat) (inst : BitVec 16) :
    (State.handAction s index sub inst).pending = s.pending
      ∧ (State.handAction s index sub inst).part = s.part
      ∧ (State.handAction s index sub inst).mc = s.mc
      ∧ (State.handAction s index sub inst).vc = s.vc
      ∧ (State.handAction s index sub inst).ftq = s.ftq
      ∧ (State.handAction s index sub inst).pantry = s.pantry
      ∧ (State.handAction s index sub inst).larder = s.larder
      ∧ (State.handAction s index sub inst).cellar = s.cellar := by
  unfold State.handAction
  try dsimp only
  repeat' (first | (simp; done) | split)


@[simp] theorem State.handUnits_keeps (s : State) (a : ActiveLoad) (i : Nat) (t : ShardTarget) (n : Nat) :
    (State.handUnits s a i t n).pending = s.pending
      ∧ (State.handUnits s a i t n).part = s.part
      ∧ (State.handUnits s a i t n).mc = s.mc
      ∧ (State.handUnits s a i t n).vc = s.vc
      ∧ (State.handUnits s a i t n).ftq = s.ftq
      ∧ (State.handUnits s a i t n).pantry = s.pantry
      ∧ (State.handUnits s a i t n).larder = s.larder
      ∧ (State.handUnits s a i t n).cellar = s.cellar := by
  unfold State.handUnits
  try dsimp only
  repeat' (first | (simp; done) | split)


@[simp] theorem State.holdVcore_keeps (s : State) (h : HallId) (k : VHold) :
    (State.holdVcore s h k).pending = s.pending
      ∧ (State.holdVcore s h k).part = s.part
      ∧ (State.holdVcore s h k).mc = s.mc
      ∧ (State.holdVcore s h k).ftq = s.ftq
      ∧ (State.holdVcore s h k).pantry = s.pantry
      ∧ (State.holdVcore s h k).larder = s.larder
      ∧ (State.holdVcore s h k).cellar = s.cellar := by
  unfold State.holdVcore
  try dsimp only
  repeat' (first | (simp; done) | split)


@[simp] theorem State.i3cDict_keeps (s : State) (m : List Byte) :
    (State.i3cDict s m).pending = s.pending
      ∧ (State.i3cDict s m).part = s.part
      ∧ (State.i3cDict s m).mc = s.mc
      ∧ (State.i3cDict s m).vc = s.vc
      ∧ (State.i3cDict s m).ftq = s.ftq
      ∧ (State.i3cDict s m).pantry = s.pantry
      ∧ (State.i3cDict s m).larder = s.larder
      ∧ (State.i3cDict s m).cellar = s.cellar := by
  unfold State.i3cDict
  try dsimp only
  repeat' (first | (simp; done) | split)


@[simp] theorem State.i3cDrop_keeps (s : State) :
    (State.i3cDrop s).pending = s.pending
      ∧ (State.i3cDrop s).part = s.part
      ∧ (State.i3cDrop s).mc = s.mc
      ∧ (State.i3cDrop s).vc = s.vc
      ∧ (State.i3cDrop s).ftq = s.ftq
      ∧ (State.i3cDrop s).pantry = s.pantry
      ∧ (State.i3cDrop s).larder = s.larder
      ∧ (State.i3cDrop s).cellar = s.cellar := by
  unfold State.i3cDrop
  try dsimp only
  repeat' (first | (simp; done) | split)


@[simp] theorem State.i3cSend_keeps (s : State) (bs : List Byte) :
    (State.i3cSend s bs).pending = s.pending
      ∧ (State.i3cSend s bs).part = s.part
      ∧ (State.i3cSend s bs).mc = s.mc
      ∧ (State.i3cSend s bs).vc = s.vc
      ∧ (State.i3cSend s bs).ftq = s.ftq
      ∧ (State.i3cSend s bs).pantry = s.pantry
      ∧ (State.i3cSend s bs).larder = s.larder
      ∧ (State.i3cSend s bs).cellar = s.cellar := by
  unfold State.i3cSend
  try dsimp only
  repeat' (first | (simp; done) | split)


@[simp] theorem State.idle_keeps (s : State) :
    (State.idle s).pending = s.pending
      ∧ (State.idle s).part = s.part
      ∧ (State.idle s).ftq = s.ftq := by
  unfold State.idle
  try dsimp only
  repeat' (first | (simp; done) | split)


@[simp] theorem State.injectEntry_keeps (s : State) (g : Nat) (e : StageEntry) (b : Nat) :
    (State.injectEntry s g e b).pending = s.pending
      ∧ (State.injectEntry s g e b).part = s.part
      ∧ (State.injectEntry s g e b).ftq = s.ftq := by
  unfold State.injectEntry
  try dsimp only
  repeat' (first | (simp; done) | refine (foldl_pending _ _ _ fun _ _ => ?_).trans ?_ | refine (foldl_part _ _ _ fun _ _ => ?_).trans ?_ | refine (foldl_ftq _ _ _ fun _ _ => ?_).trans ?_ | refine (State.onBeat_pending _ _ _ ?_).trans ?_ | refine (State.onProgram_pending _ _ _ ?_).trans ?_ | refine (State.completeAt_pending _ _ _ _ _ ?_).trans ?_ | refine (State.onBeat_part _ _ _ ?_).trans ?_ | refine (State.onProgram_part _ _ _ ?_).trans ?_ | refine (State.completeAt_part _ _ _ _ _ ?_).trans ?_ | refine (State.onBeat_ftq _ _ _ ?_).trans ?_ | refine (State.onProgram_ftq _ _ _ ?_).trans ?_ | refine (State.completeAt_ftq _ _ _ _ _ ?_).trans ?_ | intro _ | split | refine And.intro ?_ ?_ | simp)


@[simp] theorem State.noteInjected_keeps (s : State) (k : Nat) (start : Nat) :
    (State.noteInjected s k start).pending = s.pending
      ∧ (State.noteInjected s k start).part = s.part
      ∧ (State.noteInjected s k start).mc = s.mc
      ∧ (State.noteInjected s k start).vc = s.vc
      ∧ (State.noteInjected s k start).ftq = s.ftq
      ∧ (State.noteInjected s k start).pantry = s.pantry
      ∧ (State.noteInjected s k start).larder = s.larder
      ∧ (State.noteInjected s k start).cellar = s.cellar := by
  unfold State.noteInjected
  try dsimp only
  repeat' (first | (simp; done) | split)


@[simp] theorem State.sendHeads_keeps (s : State) (cls : BitVec 3) (head : BitVec 1024) (x3 : List Nat) :
    (State.sendHeads s cls head x3).1.pending = s.pending
      ∧ (State.sendHeads s cls head x3).1.part = s.part
      ∧ (State.sendHeads s cls head x3).1.mc = s.mc
      ∧ (State.sendHeads s cls head x3).1.vc = s.vc
      ∧ (State.sendHeads s cls head x3).1.ftq = s.ftq
      ∧ (State.sendHeads s cls head x3).1.pantry = s.pantry
      ∧ (State.sendHeads s cls head x3).1.larder = s.larder
      ∧ (State.sendHeads s cls head x3).1.cellar = s.cellar := by
  induction x3 generalizing s with
  | nil => simp [State.sendHeads]
  | cons k ks ih =>
    unfold State.sendHeads
    dsimp only
    simp only [ih]
    simp


@[simp] theorem State.openHead_keeps (s : State) (k : Nat) (t : Transfer) (drank : BitVec 16) (cls : BitVec 3) (head : BitVec 1024) :
    (State.openHead s k t drank cls head).1.pending = s.pending
      ∧ (State.openHead s k t drank cls head).1.part = s.part
      ∧ (State.openHead s k t drank cls head).1.mc = s.mc
      ∧ (State.openHead s k t drank cls head).1.vc = s.vc
      ∧ (State.openHead s k t drank cls head).1.ftq = s.ftq
      ∧ (State.openHead s k t drank cls head).1.pantry = s.pantry
      ∧ (State.openHead s k t drank cls head).1.larder = s.larder
      ∧ (State.openHead s k t drank cls head).1.cellar = s.cellar := by
  unfold State.openHead
  try dsimp only
  repeat' (first | (simp; done) | refine (foldl_pending _ _ _ fun _ _ => ?_).trans ?_ | refine (foldl_part _ _ _ fun _ _ => ?_).trans ?_ | refine (foldl_mc _ _ _ fun _ _ => ?_).trans ?_ | refine (foldl_vc _ _ _ fun _ _ => ?_).trans ?_ | refine (foldl_ftq _ _ _ fun _ _ => ?_).trans ?_ | refine (foldl_pantry _ _ _ fun _ _ => ?_).trans ?_ | refine (foldl_larder _ _ _ fun _ _ => ?_).trans ?_ | refine (foldl_cellar _ _ _ fun _ _ => ?_).trans ?_ | refine (State.onBeat_pending _ _ _ ?_).trans ?_ | refine (State.onProgram_pending _ _ _ ?_).trans ?_ | refine (State.completeAt_pending _ _ _ _ _ ?_).trans ?_ | refine (State.onBeat_part _ _ _ ?_).trans ?_ | refine (State.onProgram_part _ _ _ ?_).trans ?_ | refine (State.completeAt_part _ _ _ _ _ ?_).trans ?_ | refine (State.onBeat_ftq _ _ _ ?_).trans ?_ | refine (State.onProgram_ftq _ _ _ ?_).trans ?_ | refine (State.completeAt_ftq _ _ _ _ _ ?_).trans ?_ | intro _ | split | refine And.intro ?_ ?_ | simp)


@[simp] theorem State.sendPacket_keeps (s : State) (k : Nat) (t : Transfer) (x : Nat) (cls : BitVec 3) :
    (State.sendPacket s k t x cls).pending = s.pending
      ∧ (State.sendPacket s k t x cls).part = s.part
      ∧ (State.sendPacket s k t x cls).mc = s.mc
      ∧ (State.sendPacket s k t x cls).vc = s.vc
      ∧ (State.sendPacket s k t x cls).ftq = s.ftq
      ∧ (State.sendPacket s k t x cls).pantry = s.pantry
      ∧ (State.sendPacket s k t x cls).larder = s.larder
      ∧ (State.sendPacket s k t x cls).cellar = s.cellar := by
  unfold State.sendPacket
  try dsimp only
  repeat' (first | (simp; done) | split)


@[simp] theorem State.injectFar_keeps (s : State) (k : Nat) (t : Transfer) (x : Nat) (plane : Nat) (b : Nat) :
    (State.injectFar s k t x plane b).pending = s.pending
      ∧ (State.injectFar s k t x plane b).part = s.part
      ∧ (State.injectFar s k t x plane b).ftq = s.ftq := by
  unfold State.injectFar
  try dsimp only
  repeat' (first | (simp; done) | refine (foldl_pending _ _ _ fun _ _ => ?_).trans ?_ | refine (foldl_part _ _ _ fun _ _ => ?_).trans ?_ | refine (foldl_ftq _ _ _ fun _ _ => ?_).trans ?_ | refine (State.onBeat_pending _ _ _ ?_).trans ?_ | refine (State.onProgram_pending _ _ _ ?_).trans ?_ | refine (State.completeAt_pending _ _ _ _ _ ?_).trans ?_ | refine (State.onBeat_part _ _ _ ?_).trans ?_ | refine (State.onProgram_part _ _ _ ?_).trans ?_ | refine (State.completeAt_part _ _ _ _ _ ?_).trans ?_ | refine (State.onBeat_ftq _ _ _ ?_).trans ?_ | refine (State.onProgram_ftq _ _ _ ?_).trans ?_ | refine (State.completeAt_ftq _ _ _ _ _ ?_).trans ?_ | intro _ | split | refine And.intro ?_ ?_ | simp)


@[simp] theorem State.injectNear_keeps (s : State) (k : Nat) (t : Transfer) (x : Nat) (plane : Nat) (b : Nat) :
    (State.injectNear s k t x plane b).pending = s.pending
      ∧ (State.injectNear s k t x plane b).part = s.part
      ∧ (State.injectNear s k t x plane b).ftq = s.ftq := by
  unfold State.injectNear
  try dsimp only
  repeat' (first | (simp; done) | refine (foldl_pending _ _ _ fun _ _ => ?_).trans ?_ | refine (foldl_part _ _ _ fun _ _ => ?_).trans ?_ | refine (foldl_ftq _ _ _ fun _ _ => ?_).trans ?_ | refine (State.onBeat_pending _ _ _ ?_).trans ?_ | refine (State.onProgram_pending _ _ _ ?_).trans ?_ | refine (State.completeAt_pending _ _ _ _ _ ?_).trans ?_ | refine (State.onBeat_part _ _ _ ?_).trans ?_ | refine (State.onProgram_part _ _ _ ?_).trans ?_ | refine (State.completeAt_part _ _ _ _ _ ?_).trans ?_ | refine (State.onBeat_ftq _ _ _ ?_).trans ?_ | refine (State.onProgram_ftq _ _ _ ?_).trans ?_ | refine (State.completeAt_ftq _ _ _ _ _ ?_).trans ?_ | intro _ | split | refine And.intro ?_ ?_ | simp)


@[simp] theorem State.sendRequest_keeps (s : State) (k : Nat) (t : Transfer) :
    (State.sendRequest s k t).1.pending = s.pending
      ∧ (State.sendRequest s k t).1.part = s.part
      ∧ (State.sendRequest s k t).1.mc = s.mc
      ∧ (State.sendRequest s k t).1.vc = s.vc
      ∧ (State.sendRequest s k t).1.ftq = s.ftq
      ∧ (State.sendRequest s k t).1.pantry = s.pantry
      ∧ (State.sendRequest s k t).1.larder = s.larder
      ∧ (State.sendRequest s k t).1.cellar = s.cellar := by
  unfold State.sendRequest
  try dsimp only
  repeat' (first | (simp; done) | split)


@[simp] theorem State.injectRequest_keeps (s : State) (k : Nat) (t : Transfer) (b : Nat) :
    (State.injectRequest s k t b).pending = s.pending
      ∧ (State.injectRequest s k t b).part = s.part
      ∧ (State.injectRequest s k t b).ftq = s.ftq := by
  unfold State.injectRequest
  try dsimp only
  repeat' (first | (simp; done) | refine (foldl_pending _ _ _ fun _ _ => ?_).trans ?_ | refine (foldl_part _ _ _ fun _ _ => ?_).trans ?_ | refine (foldl_ftq _ _ _ fun _ _ => ?_).trans ?_ | refine (State.onBeat_pending _ _ _ ?_).trans ?_ | refine (State.onProgram_pending _ _ _ ?_).trans ?_ | refine (State.completeAt_pending _ _ _ _ _ ?_).trans ?_ | refine (State.onBeat_part _ _ _ ?_).trans ?_ | refine (State.onProgram_part _ _ _ ?_).trans ?_ | refine (State.completeAt_part _ _ _ _ _ ?_).trans ?_ | refine (State.onBeat_ftq _ _ _ ?_).trans ?_ | refine (State.onProgram_ftq _ _ _ ?_).trans ?_ | refine (State.completeAt_ftq _ _ _ _ _ ?_).trans ?_ | intro _ | split | refine And.intro ?_ ?_ | simp)


@[simp] theorem State.injectPacket_keeps (s : State) (k : Nat) (t : Transfer) :
    (State.injectPacket s k t).pending = s.pending
      ∧ (State.injectPacket s k t).part = s.part
      ∧ (State.injectPacket s k t).ftq = s.ftq := by
  unfold State.injectPacket
  try dsimp only
  repeat' (first | (simp; done) | split)


@[simp] theorem State.kDeliver_keeps (s : State) (c : Nat) (k : KFrame) :
    (State.kDeliver s c k).pending = s.pending
      ∧ (State.kDeliver s c k).part = s.part
      ∧ (State.kDeliver s c k).mc = s.mc
      ∧ (State.kDeliver s c k).vc = s.vc
      ∧ (State.kDeliver s c k).ftq = s.ftq
      ∧ (State.kDeliver s c k).pantry = s.pantry
      ∧ (State.kDeliver s c k).larder = s.larder
      ∧ (State.kDeliver s c k).cellar = s.cellar := by
  unfold State.kDeliver
  try dsimp only
  repeat' (first | (simp; done) | split)


@[simp] theorem State.kDown_keeps (s : State) :
    (State.kDown s).pending = s.pending
      ∧ (State.kDown s).part = s.part
      ∧ (State.kDown s).mc = s.mc
      ∧ (State.kDown s).vc = s.vc
      ∧ (State.kDown s).ftq = s.ftq
      ∧ (State.kDown s).pantry = s.pantry
      ∧ (State.kDown s).larder = s.larder
      ∧ (State.kDown s).cellar = s.cellar := by
  unfold State.kDown
  try dsimp only
  repeat' (first | (simp; done) | split)


@[simp] theorem State.kFresh_keeps (s : State) (body : List Byte) :
    (State.kFresh s body).pending = s.pending
      ∧ (State.kFresh s body).part = s.part
      ∧ (State.kFresh s body).mc = s.mc
      ∧ (State.kFresh s body).vc = s.vc
      ∧ (State.kFresh s body).ftq = s.ftq
      ∧ (State.kFresh s body).pantry = s.pantry
      ∧ (State.kFresh s body).larder = s.larder
      ∧ (State.kFresh s body).cellar = s.cellar := by
  unfold State.kFresh
  try dsimp only
  repeat' (first | (simp; done) | refine (foldl_pending _ _ _ fun _ _ => ?_).trans ?_ | refine (foldl_part _ _ _ fun _ _ => ?_).trans ?_ | refine (foldl_mc _ _ _ fun _ _ => ?_).trans ?_ | refine (foldl_vc _ _ _ fun _ _ => ?_).trans ?_ | refine (foldl_ftq _ _ _ fun _ _ => ?_).trans ?_ | refine (foldl_pantry _ _ _ fun _ _ => ?_).trans ?_ | refine (foldl_larder _ _ _ fun _ _ => ?_).trans ?_ | refine (foldl_cellar _ _ _ fun _ _ => ?_).trans ?_ | refine (State.onBeat_pending _ _ _ ?_).trans ?_ | refine (State.onProgram_pending _ _ _ ?_).trans ?_ | refine (State.completeAt_pending _ _ _ _ _ ?_).trans ?_ | refine (State.onBeat_part _ _ _ ?_).trans ?_ | refine (State.onProgram_part _ _ _ ?_).trans ?_ | refine (State.completeAt_part _ _ _ _ _ ?_).trans ?_ | refine (State.onBeat_ftq _ _ _ ?_).trans ?_ | refine (State.onProgram_ftq _ _ _ ?_).trans ?_ | refine (State.completeAt_ftq _ _ _ _ _ ?_).trans ?_ | intro _ | split | refine And.intro ?_ ?_ | simp)


@[simp] theorem State.kReplay_keeps (s : State) (c : Nat) (seq : BitVec 32) :
    (State.kReplay s c seq).pending = s.pending
      ∧ (State.kReplay s c seq).part = s.part
      ∧ (State.kReplay s c seq).mc = s.mc
      ∧ (State.kReplay s c seq).vc = s.vc
      ∧ (State.kReplay s c seq).ftq = s.ftq
      ∧ (State.kReplay s c seq).pantry = s.pantry
      ∧ (State.kReplay s c seq).larder = s.larder
      ∧ (State.kReplay s c seq).cellar = s.cellar := by
  unfold State.kReplay
  try dsimp only
  repeat' (first | (simp; done) | split)


@[simp] theorem State.kTakeAck_keeps (s : State) (c : Nat) (aseq : BitVec 32) :
    (State.kTakeAck s c aseq).pending = s.pending
      ∧ (State.kTakeAck s c aseq).part = s.part
      ∧ (State.kTakeAck s c aseq).mc = s.mc
      ∧ (State.kTakeAck s c aseq).vc = s.vc
      ∧ (State.kTakeAck s c aseq).ftq = s.ftq
      ∧ (State.kTakeAck s c aseq).pantry = s.pantry
      ∧ (State.kTakeAck s c aseq).larder = s.larder
      ∧ (State.kTakeAck s c aseq).cellar = s.cellar := by
  unfold State.kTakeAck
  try dsimp only
  repeat' (first | (simp; done) | split)


@[simp] theorem State.sendEvents_keeps (s : State) (x1 : Nat) :
    (State.sendEvents s x1).pending = s.pending
      ∧ (State.sendEvents s x1).part = s.part
      ∧ (State.sendEvents s x1).mc = s.mc
      ∧ (State.sendEvents s x1).vc = s.vc
      ∧ (State.sendEvents s x1).ftq = s.ftq
      ∧ (State.sendEvents s x1).pantry = s.pantry
      ∧ (State.sendEvents s x1).larder = s.larder
      ∧ (State.sendEvents s x1).cellar = s.cellar := by
  induction x1 generalizing s with
  | zero => simp [State.sendEvents]
  | succ k ih =>
    unfold State.sendEvents
    dsimp only
    repeat' (first | (simp; done) | (simp [ih]; done) | split)


@[simp] theorem State.pumpEvents_keeps (s : State) :
    (State.pumpEvents s).pending = s.pending
      ∧ (State.pumpEvents s).part = s.part
      ∧ (State.pumpEvents s).mc = s.mc
      ∧ (State.pumpEvents s).vc = s.vc
      ∧ (State.pumpEvents s).ftq = s.ftq
      ∧ (State.pumpEvents s).pantry = s.pantry
      ∧ (State.pumpEvents s).larder = s.larder
      ∧ (State.pumpEvents s).cellar = s.cellar := by
  unfold State.pumpEvents
  try dsimp only
  repeat' (first | (simp; done) | split)


@[simp] theorem State.kNaked_keeps (s : State) (c : Nat) (seq : BitVec 32) :
    (State.kNaked s c seq).pending = s.pending
      ∧ (State.kNaked s c seq).part = s.part
      ∧ (State.kNaked s c seq).mc = s.mc
      ∧ (State.kNaked s c seq).vc = s.vc
      ∧ (State.kNaked s c seq).ftq = s.ftq
      ∧ (State.kNaked s c seq).pantry = s.pantry
      ∧ (State.kNaked s c seq).larder = s.larder
      ∧ (State.kNaked s c seq).cellar = s.cellar := by
  unfold State.kNaked
  try dsimp only
  repeat' (first | (simp; done) | split)


@[simp] theorem State.kPumpAll_keeps (s : State) :
    (State.kPumpAll s).pending = s.pending
      ∧ (State.kPumpAll s).part = s.part
      ∧ (State.kPumpAll s).mc = s.mc
      ∧ (State.kPumpAll s).vc = s.vc
      ∧ (State.kPumpAll s).ftq = s.ftq
      ∧ (State.kPumpAll s).pantry = s.pantry
      ∧ (State.kPumpAll s).larder = s.larder
      ∧ (State.kPumpAll s).cellar = s.cellar := by
  unfold State.kPumpAll
  try dsimp only
  repeat' (first | (simp; done) | split)


@[simp] theorem State.kTakeFreed_keeps (s : State) (c : Nat) (freed : BitVec 28) :
    (State.kTakeFreed s c freed).pending = s.pending
      ∧ (State.kTakeFreed s c freed).part = s.part
      ∧ (State.kTakeFreed s c freed).mc = s.mc
      ∧ (State.kTakeFreed s c freed).vc = s.vc
      ∧ (State.kTakeFreed s c freed).ftq = s.ftq
      ∧ (State.kTakeFreed s c freed).pantry = s.pantry
      ∧ (State.kTakeFreed s c freed).larder = s.larder
      ∧ (State.kTakeFreed s c freed).cellar = s.cellar := by
  unfold State.kTakeFreed
  try dsimp only
  repeat' (first | (simp; done) | split)


@[simp] theorem State.kReports_keeps (s : State) (k : KFrame) :
    (State.kReports s k).pending = s.pending
      ∧ (State.kReports s k).part = s.part
      ∧ (State.kReports s k).mc = s.mc
      ∧ (State.kReports s k).vc = s.vc
      ∧ (State.kReports s k).ftq = s.ftq
      ∧ (State.kReports s k).pantry = s.pantry
      ∧ (State.kReports s k).larder = s.larder
      ∧ (State.kReports s k).cellar = s.cellar := by
  unfold State.kReports
  try dsimp only
  repeat' (first | (simp; done) | split)


@[simp] theorem State.kResume_keeps (s : State) (body : List Byte) :
    (State.kResume s body).pending = s.pending
      ∧ (State.kResume s body).part = s.part
      ∧ (State.kResume s body).mc = s.mc
      ∧ (State.kResume s body).vc = s.vc
      ∧ (State.kResume s body).ftq = s.ftq
      ∧ (State.kResume s body).pantry = s.pantry
      ∧ (State.kResume s body).larder = s.larder
      ∧ (State.kResume s body).cellar = s.cellar := by
  unfold State.kResume
  try dsimp only
  repeat' (first | (simp; done) | split)


@[simp] theorem State.kSequence_keeps (s : State) (c : Nat) (k : KFrame) :
    (State.kSequence s c k).pending = s.pending
      ∧ (State.kSequence s c k).part = s.part
      ∧ (State.kSequence s c k).mc = s.mc
      ∧ (State.kSequence s c k).vc = s.vc
      ∧ (State.kSequence s c k).ftq = s.ftq
      ∧ (State.kSequence s c k).pantry = s.pantry
      ∧ (State.kSequence s c k).larder = s.larder
      ∧ (State.kSequence s c k).cellar = s.cellar := by
  unfold State.kSequence
  try dsimp only
  repeat' (first | (simp; done) | split)


@[simp] theorem State.landPacket_keeps (s : State) (k : Nat) (t : Transfer) (b : Nat) :
    (State.landPacket s k t b).pending = s.pending
      ∧ (State.landPacket s k t b).part = s.part
      ∧ (State.landPacket s k t b).mc = s.mc
      ∧ (State.landPacket s k t b).vc = s.vc
      ∧ (State.landPacket s k t b).ftq = s.ftq
      ∧ (State.landPacket s k t b).pantry = s.pantry
      ∧ (State.landPacket s k t b).larder = s.larder
      ∧ (State.landPacket s k t b).cellar = s.cellar := by
  unfold State.landPacket
  try dsimp only
  repeat' (first | (simp; done) | split)


@[simp] theorem State.landsLost_keeps (s : State) :
    (State.landsLost s).pending = s.pending
      ∧ (State.landsLost s).part = s.part
      ∧ (State.landsLost s).mc = s.mc
      ∧ (State.landsLost s).vc = s.vc
      ∧ (State.landsLost s).ftq = s.ftq
      ∧ (State.landsLost s).pantry = s.pantry
      ∧ (State.landsLost s).larder = s.larder
      ∧ (State.landsLost s).cellar = s.cellar := by
  unfold State.landsLost
  try dsimp only
  repeat' (first | (simp; done) | split)


@[simp] theorem State.reshape_keeps (s : State) (cause : Nat) (n : Nat) (cls : ErrClass) :
    (State.reshape s cause n cls).pending = s.pending
      ∧ (State.reshape s cause n cls).part = s.part
      ∧ (State.reshape s cause n cls).mc = s.mc
      ∧ (State.reshape s cause n cls).vc = s.vc
      ∧ (State.reshape s cause n cls).ftq = s.ftq
      ∧ (State.reshape s cause n cls).pantry = s.pantry
      ∧ (State.reshape s cause n cls).larder = s.larder
      ∧ (State.reshape s cause n cls).cellar = s.cellar := by
  unfold State.reshape
  try dsimp only
  repeat' (first | (simp; done) | split)

@[simp] theorem State.lossOf_keeps (s : State) (n : Nat) :
    (State.lossOf s n).pending = s.pending
      ∧ (State.lossOf s n).part = s.part
      ∧ (State.lossOf s n).mc = s.mc
      ∧ (State.lossOf s n).vc = s.vc
      ∧ (State.lossOf s n).ftq = s.ftq
      ∧ (State.lossOf s n).pantry = s.pantry
      ∧ (State.lossOf s n).larder = s.larder
      ∧ (State.lossOf s n).cellar = s.cellar := by
  unfold State.lossOf
  try dsimp only
  repeat' (first | (simp; done) | split)


@[simp] theorem State.portDown_keeps (s : State) (n : Nat) :
    (State.portDown s n).pending = s.pending
      ∧ (State.portDown s n).part = s.part
      ∧ (State.portDown s n).mc = s.mc
      ∧ (State.portDown s n).vc = s.vc
      ∧ (State.portDown s n).ftq = s.ftq
      ∧ (State.portDown s n).pantry = s.pantry
      ∧ (State.portDown s n).larder = s.larder
      ∧ (State.portDown s n).cellar = s.cellar := by
  unfold State.portDown
  try dsimp only
  repeat' (first | (simp; done) | split)


@[simp] theorem State.laneDown_keeps (s : State) (n : Nat) (lane : BitVec 2) :
    (State.laneDown s n lane).pending = s.pending
      ∧ (State.laneDown s n lane).part = s.part
      ∧ (State.laneDown s n lane).mc = s.mc
      ∧ (State.laneDown s n lane).vc = s.vc
      ∧ (State.laneDown s n lane).ftq = s.ftq
      ∧ (State.laneDown s n lane).pantry = s.pantry
      ∧ (State.laneDown s n lane).larder = s.larder
      ∧ (State.laneDown s n lane).cellar = s.cellar := by
  unfold State.laneDown
  try dsimp only
  repeat' (first | (simp; done) | split)


@[simp] theorem State.ledgerAdd_keeps (s : State) (c : Nat) (hdr : W64) (payload : Memory) :
    (State.ledgerAdd s c hdr payload).pending = s.pending
      ∧ (State.ledgerAdd s c hdr payload).part = s.part
      ∧ (State.ledgerAdd s c hdr payload).mc = s.mc
      ∧ (State.ledgerAdd s c hdr payload).vc = s.vc
      ∧ (State.ledgerAdd s c hdr payload).ftq = s.ftq
      ∧ (State.ledgerAdd s c hdr payload).pantry = s.pantry
      ∧ (State.ledgerAdd s c hdr payload).larder = s.larder
      ∧ (State.ledgerAdd s c hdr payload).cellar = s.cellar := by
  unfold State.ledgerAdd
  try dsimp only
  repeat' (first | (simp; done) | split)


@[simp] theorem State.loadBells_keeps (s : State) (halls : List Nat) :
    (State.loadBells s halls).pending = s.pending
      ∧ (State.loadBells s halls).part = s.part
      ∧ (State.loadBells s halls).mc = s.mc
      ∧ (State.loadBells s halls).vc = s.vc
      ∧ (State.loadBells s halls).ftq = s.ftq
      ∧ (State.loadBells s halls).pantry = s.pantry
      ∧ (State.loadBells s halls).larder = s.larder
      ∧ (State.loadBells s halls).cellar = s.cellar := by
  unfold State.loadBells
  try dsimp only
  repeat' (first | (simp; done) | split)


@[simp] theorem State.loadCore_keeps (s : State) (v : Variant) (i : Nat) (c : Nat) (h : Nat) :
    (State.loadCore s v i c h).pending = s.pending
      ∧ (State.loadCore s v i c h).part = s.part
      ∧ (State.loadCore s v i c h).mc = s.mc
      ∧ (State.loadCore s v i c h).vc = s.vc
      ∧ (State.loadCore s v i c h).ftq = s.ftq
      ∧ (State.loadCore s v i c h).larder = s.larder
      ∧ (State.loadCore s v i c h).cellar = s.cellar := by
  unfold State.loadCore
  try dsimp only
  repeat' (first | (simp; done) | split)


@[simp] theorem State.refuseLoad_keeps (s : State) (w : W64) :
    (State.refuseLoad s w).pending = s.pending
      ∧ (State.refuseLoad s w).part = s.part
      ∧ (State.refuseLoad s w).ftq = s.ftq
      ∧ (State.refuseLoad s w).pantry = s.pantry
      ∧ (State.refuseLoad s w).larder = s.larder
      ∧ (State.refuseLoad s w).cellar = s.cellar := by
  unfold State.refuseLoad
  try dsimp only
  repeat' (first | (simp; done) | split)


@[simp] theorem State.markRewritten_keeps (s : State) (k : Nat) (a : Nat) (n : Nat) :
    (State.markRewritten s k a n).pending = s.pending
      ∧ (State.markRewritten s k a n).part = s.part
      ∧ (State.markRewritten s k a n).mc = s.mc
      ∧ (State.markRewritten s k a n).vc = s.vc
      ∧ (State.markRewritten s k a n).ftq = s.ftq
      ∧ (State.markRewritten s k a n).pantry = s.pantry
      ∧ (State.markRewritten s k a n).larder = s.larder
      ∧ (State.markRewritten s k a n).cellar = s.cellar := by
  unfold State.markRewritten
  try dsimp only
  repeat' (first | (simp; done) | split)


@[simp] theorem State.zeroAdapters_keeps (s : State) :
    (State.zeroAdapters s).pending = s.pending
      ∧ (State.zeroAdapters s).part = s.part
      ∧ (State.zeroAdapters s).mc = s.mc
      ∧ (State.zeroAdapters s).vc = s.vc
      ∧ (State.zeroAdapters s).ftq = s.ftq
      ∧ (State.zeroAdapters s).pantry = s.pantry
      ∧ (State.zeroAdapters s).larder = s.larder := by
  unfold State.zeroAdapters
  try dsimp only
  repeat' (first | (simp; done) | split)


@[simp] theorem State.zeroRegion_keeps (s : State) (b : Binding) :
    (State.zeroRegion s b).pending = s.pending
      ∧ (State.zeroRegion s b).part = s.part
      ∧ (State.zeroRegion s b).mc = s.mc
      ∧ (State.zeroRegion s b).vc = s.vc
      ∧ (State.zeroRegion s b).ftq = s.ftq
      ∧ (State.zeroRegion s b).pantry = s.pantry
      ∧ (State.zeroRegion s b).cellar = s.cellar := by
  unfold State.zeroRegion
  try dsimp only
  repeat' (first | (simp; done) | refine (foldl_pending _ _ _ fun _ _ => ?_).trans ?_ | refine (foldl_part _ _ _ fun _ _ => ?_).trans ?_ | refine (foldl_mc _ _ _ fun _ _ => ?_).trans ?_ | refine (foldl_vc _ _ _ fun _ _ => ?_).trans ?_ | refine (foldl_ftq _ _ _ fun _ _ => ?_).trans ?_ | refine (foldl_pantry _ _ _ fun _ _ => ?_).trans ?_ | refine (foldl_larder _ _ _ fun _ _ => ?_).trans ?_ | refine (foldl_cellar _ _ _ fun _ _ => ?_).trans ?_ | refine (State.onBeat_pending _ _ _ ?_).trans ?_ | refine (State.onProgram_pending _ _ _ ?_).trans ?_ | refine (State.completeAt_pending _ _ _ _ _ ?_).trans ?_ | refine (State.onBeat_part _ _ _ ?_).trans ?_ | refine (State.onProgram_part _ _ _ ?_).trans ?_ | refine (State.completeAt_part _ _ _ _ _ ?_).trans ?_ | refine (State.onBeat_ftq _ _ _ ?_).trans ?_ | refine (State.onProgram_ftq _ _ _ ?_).trans ?_ | refine (State.completeAt_ftq _ _ _ _ _ ?_).trans ?_ | intro _ | split | refine And.intro ?_ ?_ | simp)


@[simp] theorem State.placeJob_keeps (s : State) (v : Variant) :
    (State.placeJob s v).pending = s.pending
      ∧ (State.placeJob s v).part = s.part
      ∧ (State.placeJob s v).ftq = s.ftq := by
  unfold State.placeJob
  try dsimp only
  repeat' (first | (simp; done) | split)


@[simp] theorem State.readStaging_keeps (s : State) (len : Nat) (r : StagingReads) :
    (State.readStaging s len r).pending = s.pending
      ∧ (State.readStaging s len r).part = s.part
      ∧ (State.readStaging s len r).mc = s.mc
      ∧ (State.readStaging s len r).vc = s.vc
      ∧ (State.readStaging s len r).ftq = s.ftq
      ∧ (State.readStaging s len r).pantry = s.pantry
      ∧ (State.readStaging s len r).larder = s.larder
      ∧ (State.readStaging s len r).cellar = s.cellar := by
  unfold State.readStaging
  try dsimp only
  repeat' (first | (simp; done) | split)


@[simp] theorem State.resetCounters_keeps (s : State) :
    (State.resetCounters s).pending = s.pending
      ∧ (State.resetCounters s).part = s.part
      ∧ (State.resetCounters s).mc = s.mc
      ∧ (State.resetCounters s).vc = s.vc
      ∧ (State.resetCounters s).ftq = s.ftq
      ∧ (State.resetCounters s).pantry = s.pantry
      ∧ (State.resetCounters s).larder = s.larder
      ∧ (State.resetCounters s).cellar = s.cellar := by
  unfold State.resetCounters
  try dsimp only
  repeat' (first | (simp; done) | split)


@[simp] theorem State.loadImage_keeps (s : State) (len : Nat) (fewest : BitVec 8) (reads : StagingReads) :
    (State.loadImage s len fewest reads).pending = s.pending
      ∧ (State.loadImage s len fewest reads).part = s.part
      ∧ (State.loadImage s len fewest reads).ftq = s.ftq := by
  unfold State.loadImage
  try dsimp only
  repeat' (first | (simp; done) | split)


@[simp] theorem State.repairEntries_keeps (s : State) :
    (State.repairEntries s).pending = s.pending
      ∧ (State.repairEntries s).part = s.part
      ∧ (State.repairEntries s).mc = s.mc
      ∧ (State.repairEntries s).vc = s.vc
      ∧ (State.repairEntries s).ftq = s.ftq
      ∧ (State.repairEntries s).pantry = s.pantry
      ∧ (State.repairEntries s).larder = s.larder
      ∧ (State.repairEntries s).cellar = s.cellar := by
  unfold State.repairEntries
  try dsimp only
  repeat' (first | (simp; done) | split)


@[simp] theorem State.restoreCores_keeps (s : State) (x : Snapshot) (d : Nat) (resume : Nat) :
    (State.restoreCores s x d resume).pending = s.pending
      ∧ (State.restoreCores s x d resume).part = s.part
      ∧ (State.restoreCores s x d resume).pantry = s.pantry
      ∧ (State.restoreCores s x d resume).larder = s.larder
      ∧ (State.restoreCores s x d resume).cellar = s.cellar := by
  unfold State.restoreCores
  try dsimp only
  repeat' (first | (simp; done) | split)


@[simp] theorem State.restoreDesk_keeps (s : State) (x : Snapshot) :
    (State.restoreDesk s x).pending = s.pending
      ∧ (State.restoreDesk s x).part = s.part
      ∧ (State.restoreDesk s x).mc = s.mc
      ∧ (State.restoreDesk s x).vc = s.vc
      ∧ (State.restoreDesk s x).ftq = s.ftq
      ∧ (State.restoreDesk s x).pantry = s.pantry
      ∧ (State.restoreDesk s x).larder = s.larder
      ∧ (State.restoreDesk s x).cellar = s.cellar := by
  unfold State.restoreDesk
  try dsimp only
  repeat' (first | (simp; done) | split)


@[simp] theorem State.restoreSnap_keeps (s : State) (x : Snapshot) (resume : Nat) :
    (State.restoreSnap s x resume).pending = s.pending
      ∧ (State.restoreSnap s x resume).part = s.part
      ∧ (State.restoreSnap s x resume).pantry = s.pantry
      ∧ (State.restoreSnap s x resume).larder = s.larder
      ∧ (State.restoreSnap s x resume).cellar = s.cellar := by
  unfold State.restoreSnap
  try dsimp only
  repeat' (first | (simp; done) | split)


@[simp] theorem State.localRewind_keeps (s : State) :
    (State.localRewind s).pending = s.pending
      ∧ (State.localRewind s).part = s.part
      ∧ (State.localRewind s).pantry = s.pantry
      ∧ (State.localRewind s).larder = s.larder
      ∧ (State.localRewind s).cellar = s.cellar := by
  unfold State.localRewind
  try dsimp only
  repeat' (first | (simp; done) | split)


@[simp] theorem State.lodgerMismatch_keeps (s : State) (i : Nat) :
    (State.lodgerMismatch s i).pending = s.pending
      ∧ (State.lodgerMismatch s i).part = s.part
      ∧ (State.lodgerMismatch s i).mc = s.mc
      ∧ (State.lodgerMismatch s i).vc = s.vc
      ∧ (State.lodgerMismatch s i).ftq = s.ftq
      ∧ (State.lodgerMismatch s i).pantry = s.pantry
      ∧ (State.lodgerMismatch s i).larder = s.larder
      ∧ (State.lodgerMismatch s i).cellar = s.cellar := by
  unfold State.lodgerMismatch
  try dsimp only
  repeat' (first | (simp; done) | split)


@[simp] theorem State.loseLane_keeps (s : State) (n : Nat) (lane : BitVec 2) :
    (State.loseLane s n lane).pending = s.pending
      ∧ (State.loseLane s n lane).part = s.part
      ∧ (State.loseLane s n lane).mc = s.mc
      ∧ (State.loseLane s n lane).vc = s.vc
      ∧ (State.loseLane s n lane).ftq = s.ftq
      ∧ (State.loseLane s n lane).pantry = s.pantry
      ∧ (State.loseLane s n lane).larder = s.larder
      ∧ (State.loseLane s n lane).cellar = s.cellar := by
  unfold State.loseLane
  try dsimp only
  repeat' (first | (simp; done) | split)


@[simp] theorem State.markBanks_keeps (s : State) (e : Endpoint) (h : Nat) (lo : Nat) (hi : Nat) (b : Nat) :
    (State.markBanks s e h lo hi b).pending = s.pending
      ∧ (State.markBanks s e h lo hi b).part = s.part
      ∧ (State.markBanks s e h lo hi b).ftq = s.ftq
      ∧ (State.markBanks s e h lo hi b).pantry = s.pantry
      ∧ (State.markBanks s e h lo hi b).larder = s.larder
      ∧ (State.markBanks s e h lo hi b).cellar = s.cellar := by
  unfold State.markBanks
  try dsimp only
  repeat' (first | (simp; done) | split)


@[simp] theorem State.mcDone_keeps (s : State) (c : MCoreId) (start : Nat) (m : MCore) :
    (State.mcDone s c start m).pending = s.pending
      ∧ (State.mcDone s c start m).part = s.part
      ∧ (State.mcDone s c start m).vc = s.vc
      ∧ (State.mcDone s c start m).ftq = s.ftq
      ∧ (State.mcDone s c start m).pantry = s.pantry
      ∧ (State.mcDone s c start m).larder = s.larder
      ∧ (State.mcDone s c start m).cellar = s.cellar := by
  unfold State.mcDone
  try dsimp only
  repeat' (first | (simp; done) | split)


@[simp] theorem State.mcResume_keeps (s : State) (c : MCoreId) (b : Nat) :
    (State.mcResume s c b).pending = s.pending
      ∧ (State.mcResume s c b).part = s.part
      ∧ (State.mcResume s c b).ftq = s.ftq := by
  unfold State.mcResume
  try dsimp only
  repeat' (first | (simp; done) | refine (foldl_pending _ _ _ fun _ _ => ?_).trans ?_ | refine (foldl_part _ _ _ fun _ _ => ?_).trans ?_ | refine (foldl_ftq _ _ _ fun _ _ => ?_).trans ?_ | refine (State.onBeat_pending _ _ _ ?_).trans ?_ | refine (State.onProgram_pending _ _ _ ?_).trans ?_ | refine (State.completeAt_pending _ _ _ _ _ ?_).trans ?_ | refine (State.onBeat_part _ _ _ ?_).trans ?_ | refine (State.onProgram_part _ _ _ ?_).trans ?_ | refine (State.completeAt_part _ _ _ _ _ ?_).trans ?_ | refine (State.onBeat_ftq _ _ _ ?_).trans ?_ | refine (State.onProgram_ftq _ _ _ ?_).trans ?_ | refine (State.completeAt_ftq _ _ _ _ _ ?_).trans ?_ | intro _ | split | refine And.intro ?_ ?_ | simp)


@[simp] theorem State.setEid_keeps (s : State) (head : BitVec 8) (op : BitVec 8) (eid : BitVec 8) :
    (State.setEid s head op eid).pending = s.pending
      ∧ (State.setEid s head op eid).part = s.part
      ∧ (State.setEid s head op eid).mc = s.mc
      ∧ (State.setEid s head op eid).vc = s.vc
      ∧ (State.setEid s head op eid).ftq = s.ftq
      ∧ (State.setEid s head op eid).pantry = s.pantry
      ∧ (State.setEid s head op eid).larder = s.larder
      ∧ (State.setEid s head op eid).cellar = s.cellar := by
  unfold State.setEid
  try dsimp only
  repeat' (first | (simp; done) | split)


@[simp] theorem State.mctpControl_keeps (s : State) (head : BitVec 8) (command : BitVec 8) (data : List Byte) :
    (State.mctpControl s head command data).pending = s.pending
      ∧ (State.mctpControl s head command data).part = s.part
      ∧ (State.mctpControl s head command data).mc = s.mc
      ∧ (State.mctpControl s head command data).vc = s.vc
      ∧ (State.mctpControl s head command data).ftq = s.ftq
      ∧ (State.mctpControl s head command data).pantry = s.pantry
      ∧ (State.mctpControl s head command data).larder = s.larder
      ∧ (State.mctpControl s head command data).cellar = s.cellar := by
  unfold State.mctpControl
  try dsimp only
  repeat' (first | (simp; done) | split)


@[simp] theorem State.memberAnswered_keeps (s : State) (rank : BitVec 16) (b : BitVec 960) :
    (State.memberAnswered s rank b).pending = s.pending
      ∧ (State.memberAnswered s rank b).part = s.part
      ∧ (State.memberAnswered s rank b).mc = s.mc
      ∧ (State.memberAnswered s rank b).vc = s.vc
      ∧ (State.memberAnswered s rank b).ftq = s.ftq
      ∧ (State.memberAnswered s rank b).pantry = s.pantry
      ∧ (State.memberAnswered s rank b).larder = s.larder
      ∧ (State.memberAnswered s rank b).cellar = s.cellar := by
  unfold State.memberAnswered
  try dsimp only
  repeat' (first | (simp; done) | split)


@[simp] theorem State.toProgram_keeps (s : State) (p : Nat) :
    (State.toProgram s p).pending = s.pending
      ∧ (State.toProgram s p).part = s.part
      ∧ (State.toProgram s p).ftq = s.ftq := by
  unfold State.toProgram
  try dsimp only
  repeat' (first | (simp; done) | split)


@[simp] theorem State.onProgram_pending (s : State) (p : Nat) (f : State → State)
    (hf : ∀ s, (f s).pending = s.pending) : (s.onProgram p f).pending = s.pending := by
  unfold State.onProgram
  dsimp only
  split
  · simp [hf]
  · simp

@[simp] theorem State.onProgram_part (s : State) (p : Nat) (f : State → State)
    (hf : ∀ s, (f s).part = s.part) : (s.onProgram p f).part = s.part := by
  unfold State.onProgram
  dsimp only
  split
  · simp [hf]
  · simp

@[simp] theorem State.onProgram_ftq (s : State) (p : Nat) (f : State → State)
    (hf : ∀ s, (f s).ftq = s.ftq) : (s.onProgram p f).ftq = s.ftq := by
  unfold State.onProgram
  dsimp only
  split
  · simp [hf]
  · simp



@[simp] theorem State.openDescriptor_keeps (s : State) (k : Nat) (hd : Handed) (b : Nat) : resKeeps s (State.openDescriptor s k hd b) := by
  unfold State.openDescriptor
  extract_lets p d s1 src t
  have h1 : s1.pending = s.pending := rfl
  have h2 : s1.part = s.part := rfl
  clear_value s1
  split
  · simp [h1, h2]
  · split
    · split
      · simp only [resKeeps_next]
        split <;> simp [h1, h2]
      · next h =>
        split at h
        · cases h
        · obtain ⟨h3, h4, _⟩ := State.checkEnds_keeps h
          simp [h1, h2, h3, h4]
      · simp
    · simp [h1, h2]


@[simp] theorem State.owe_keeps (s : State) (index : Nat) (sub : Nat) (w : DictWrite) :
    (State.owe s index sub w).pending = s.pending
      ∧ (State.owe s index sub w).part = s.part
      ∧ (State.owe s index sub w).mc = s.mc
      ∧ (State.owe s index sub w).vc = s.vc
      ∧ (State.owe s index sub w).ftq = s.ftq
      ∧ (State.owe s index sub w).pantry = s.pantry
      ∧ (State.owe s index sub w).larder = s.larder
      ∧ (State.owe s index sub w).cellar = s.cellar := by
  unfold State.owe
  try dsimp only
  repeat' (first | (simp; done) | split)


@[simp] theorem State.writeLines_keeps (s : State) (k : Nat) (t : Transfer) (h : Nat) (x : Nat) (b : Nat) (spans : List (Nat × Nat)) :
    (State.writeLines s k t h x b spans).pending = s.pending
      ∧ (State.writeLines s k t h x b spans).part = s.part
      ∧ (State.writeLines s k t h x b spans).ftq = s.ftq
      ∧ (State.writeLines s k t h x b spans).pantry = s.pantry
      ∧ (State.writeLines s k t h x b spans).larder = s.larder
      ∧ (State.writeLines s k t h x b spans).cellar = s.cellar := by
  unfold State.writeLines
  try dsimp only
  repeat' (first | (simp; done) | split)


@[simp] theorem State.writeStream_keeps (s : State) (k : Nat) (t : Transfer) :
    (State.writeStream s k t).pending = s.pending
      ∧ (State.writeStream s k t).part = s.part
      ∧ (State.writeStream s k t).mc = s.mc
      ∧ (State.writeStream s k t).vc = s.vc
      ∧ (State.writeStream s k t).ftq = s.ftq
      ∧ (State.writeStream s k t).pantry = s.pantry
      ∧ (State.writeStream s k t).larder = s.larder
      ∧ (State.writeStream s k t).cellar = s.cellar := by
  unfold State.writeStream
  try dsimp only
  repeat' (first | (simp; done) | split)


@[simp] theorem State.packetReaches_keeps (s : State) (k : Nat) (t : Transfer) (f : Flight) :
    (State.packetReaches s k t f).pending = s.pending
      ∧ (State.packetReaches s k t f).part = s.part
      ∧ (State.packetReaches s k t f).ftq = s.ftq
      ∧ (State.packetReaches s k t f).pantry = s.pantry
      ∧ (State.packetReaches s k t f).larder = s.larder
      ∧ (State.packetReaches s k t f).cellar = s.cellar := by
  unfold State.packetReaches
  try dsimp only
  repeat' (first | (simp; done) | split)


@[simp] theorem State.packetStored_keeps (s : State) (k : Nat) (t : Transfer) (f : Flight) (b : Nat) :
    (State.packetStored s k t f b).pending = s.pending
      ∧ (State.packetStored s k t f b).part = s.part
      ∧ (State.packetStored s k t f b).ftq = s.ftq := by
  unfold State.packetStored
  try dsimp only
  repeat' (first | (simp; done) | split)


@[simp] theorem State.packetArrives_keeps (s : State) (k : Nat) (t : Transfer) (f : Flight) :
    (State.packetArrives s k t f).pending = s.pending
      ∧ (State.packetArrives s k t f).part = s.part
      ∧ (State.packetArrives s k t f).ftq = s.ftq := by
  unfold State.packetArrives
  try dsimp only
  repeat' (first | (simp; done) | refine (foldl_pending _ _ _ fun _ _ => ?_).trans ?_ | refine (foldl_part _ _ _ fun _ _ => ?_).trans ?_ | refine (foldl_mc _ _ _ fun _ _ => ?_).trans ?_ | refine (foldl_vc _ _ _ fun _ _ => ?_).trans ?_ | refine (foldl_ftq _ _ _ fun _ _ => ?_).trans ?_ | refine (foldl_pantry _ _ _ fun _ _ => ?_).trans ?_ | refine (foldl_larder _ _ _ fun _ _ => ?_).trans ?_ | refine (foldl_cellar _ _ _ fun _ _ => ?_).trans ?_ | refine (State.onBeat_pending _ _ _ ?_).trans ?_ | refine (State.onProgram_pending _ _ _ ?_).trans ?_ | refine (State.completeAt_pending _ _ _ _ _ ?_).trans ?_ | refine (State.onBeat_part _ _ _ ?_).trans ?_ | refine (State.onProgram_part _ _ _ ?_).trans ?_ | refine (State.completeAt_part _ _ _ _ _ ?_).trans ?_ | refine (State.onBeat_ftq _ _ _ ?_).trans ?_ | refine (State.onProgram_ftq _ _ _ ?_).trans ?_ | refine (State.completeAt_ftq _ _ _ _ _ ?_).trans ?_ | intro _ | split | refine And.intro ?_ ?_ | simp)


@[simp] theorem State.passCommit_keeps (s : State) (atStart : Bool) :
    (State.passCommit s atStart).pending = s.pending
      ∧ (State.passCommit s atStart).part = s.part
      ∧ (State.passCommit s atStart).mc = s.mc
      ∧ (State.passCommit s atStart).vc = s.vc
      ∧ (State.passCommit s atStart).ftq = s.ftq
      ∧ (State.passCommit s atStart).pantry = s.pantry
      ∧ (State.passCommit s atStart).larder = s.larder
      ∧ (State.passCommit s atStart).cellar = s.cellar := by
  unfold State.passCommit
  try dsimp only
  repeat' (first | (simp; done) | split)


@[simp] theorem State.peerFrame_keeps (s : State) (a : ActiveLoad) (p : Nat) (b : BitVec 960) :
    (State.peerFrame s a p b).pending = s.pending
      ∧ (State.peerFrame s a p b).part = s.part
      ∧ (State.peerFrame s a p b).mc = s.mc
      ∧ (State.peerFrame s a p b).vc = s.vc
      ∧ (State.peerFrame s a p b).ftq = s.ftq
      ∧ (State.peerFrame s a p b).pantry = s.pantry
      ∧ (State.peerFrame s a p b).larder = s.larder
      ∧ (State.peerFrame s a p b).cellar = s.cellar := by
  unfold State.peerFrame
  try dsimp only
  repeat' (first | (simp; done) | split)


@[simp] theorem State.passFrame_keeps (s : State) (p : Nat) (b : BitVec 960) :
    (State.passFrame s p b).pending = s.pending
      ∧ (State.passFrame s p b).part = s.part
      ∧ (State.passFrame s p b).mc = s.mc
      ∧ (State.passFrame s p b).vc = s.vc
      ∧ (State.passFrame s p b).ftq = s.ftq
      ∧ (State.passFrame s p b).pantry = s.pantry
      ∧ (State.passFrame s p b).larder = s.larder
      ∧ (State.passFrame s p b).cellar = s.cellar := by
  unfold State.passFrame
  try dsimp only
  repeat' (first | (simp; done) | split)


@[simp] theorem State.passHalt_keeps (s : State) (n : Nat) (f : Flit) :
    (State.passHalt s n f).pending = s.pending
      ∧ (State.passHalt s n f).part = s.part
      ∧ (State.passHalt s n f).mc = s.mc
      ∧ (State.passHalt s n f).vc = s.vc
      ∧ (State.passHalt s n f).ftq = s.ftq
      ∧ (State.passHalt s n f).pantry = s.pantry
      ∧ (State.passHalt s n f).larder = s.larder
      ∧ (State.passHalt s n f).cellar = s.cellar := by
  unfold State.passHalt
  try dsimp only
  repeat' (first | (simp; done) | split)


@[simp] theorem State.trainSpare_keeps (s : State) (g : Nat) (peer : W64) :
    (State.trainSpare s g peer).pending = s.pending
      ∧ (State.trainSpare s g peer).part = s.part
      ∧ (State.trainSpare s g peer).mc = s.mc
      ∧ (State.trainSpare s g peer).vc = s.vc
      ∧ (State.trainSpare s g peer).ftq = s.ftq
      ∧ (State.trainSpare s g peer).pantry = s.pantry
      ∧ (State.trainSpare s g peer).larder = s.larder
      ∧ (State.trainSpare s g peer).cellar = s.cellar := by
  unfold State.trainSpare
  try dsimp only
  repeat' (first | (simp; done) | split)


@[simp] theorem State.portUp_keeps (s : State) (n : Nat) (i : InitInfo) :
    (State.portUp s n i).pending = s.pending
      ∧ (State.portUp s n i).part = s.part
      ∧ (State.portUp s n i).mc = s.mc
      ∧ (State.portUp s n i).vc = s.vc
      ∧ (State.portUp s n i).ftq = s.ftq
      ∧ (State.portUp s n i).pantry = s.pantry
      ∧ (State.portUp s n i).larder = s.larder
      ∧ (State.portUp s n i).cellar = s.cellar := by
  unfold State.portUp
  try dsimp only
  repeat' (first | (simp; done) | split)


@[simp] theorem State.postOutcome_keeps (s : State) (g : Nat) (r : PostReturn) :
    (State.postOutcome s g r).pending = s.pending
      ∧ (State.postOutcome s g r).part = s.part
      ∧ (State.postOutcome s g r).ftq = s.ftq := by
  unfold State.postOutcome
  try dsimp only
  repeat' (first | (simp; done) | refine (foldl_pending _ _ _ fun _ _ => ?_).trans ?_ | refine (foldl_part _ _ _ fun _ _ => ?_).trans ?_ | refine (foldl_ftq _ _ _ fun _ _ => ?_).trans ?_ | refine (State.onBeat_pending _ _ _ ?_).trans ?_ | refine (State.onProgram_pending _ _ _ ?_).trans ?_ | refine (State.completeAt_pending _ _ _ _ _ ?_).trans ?_ | refine (State.onBeat_part _ _ _ ?_).trans ?_ | refine (State.onProgram_part _ _ _ ?_).trans ?_ | refine (State.completeAt_part _ _ _ _ _ ?_).trans ?_ | refine (State.onBeat_ftq _ _ _ ?_).trans ?_ | refine (State.onProgram_ftq _ _ _ ?_).trans ?_ | refine (State.completeAt_ftq _ _ _ _ _ ?_).trans ?_ | intro _ | split | refine And.intro ?_ ?_ | simp)


@[simp] theorem State.receiveDesc_keeps (s : State) (k : Nat) (hd : Handed) :
    (State.receiveDesc s k hd).pending = s.pending
      ∧ (State.receiveDesc s k hd).part = s.part
      ∧ (State.receiveDesc s k hd).ftq = s.ftq := by
  unfold State.receiveDesc
  try dsimp only
  repeat' (first | (simp; done) | split)


@[simp] theorem State.releaseRecord_keeps (s : State) (r : Release) :
    (State.releaseRecord s r).pending = s.pending
      ∧ (State.releaseRecord s r).part = s.part
      ∧ (State.releaseRecord s r).mc = s.mc
      ∧ (State.releaseRecord s r).vc = s.vc
      ∧ (State.releaseRecord s r).ftq = s.ftq
      ∧ (State.releaseRecord s r).pantry = s.pantry
      ∧ (State.releaseRecord s r).larder = s.larder
      ∧ (State.releaseRecord s r).cellar = s.cellar := by
  unfold State.releaseRecord
  try dsimp only
  repeat' (first | (simp; done) | split)


@[simp] theorem State.releaseCommit_keeps (s : State) (p : Nat) :
    (State.releaseCommit s p).pending = s.pending
      ∧ (State.releaseCommit s p).part = s.part
      ∧ (State.releaseCommit s p).mc = s.mc
      ∧ (State.releaseCommit s p).vc = s.vc
      ∧ (State.releaseCommit s p).ftq = s.ftq
      ∧ (State.releaseCommit s p).pantry = s.pantry
      ∧ (State.releaseCommit s p).larder = s.larder
      ∧ (State.releaseCommit s p).cellar = s.cellar := by
  unfold State.releaseCommit
  try dsimp only
  repeat' (first | (simp; done) | refine (foldl_pending _ _ _ fun _ _ => ?_).trans ?_ | refine (foldl_part _ _ _ fun _ _ => ?_).trans ?_ | refine (foldl_mc _ _ _ fun _ _ => ?_).trans ?_ | refine (foldl_vc _ _ _ fun _ _ => ?_).trans ?_ | refine (foldl_ftq _ _ _ fun _ _ => ?_).trans ?_ | refine (foldl_pantry _ _ _ fun _ _ => ?_).trans ?_ | refine (foldl_larder _ _ _ fun _ _ => ?_).trans ?_ | refine (foldl_cellar _ _ _ fun _ _ => ?_).trans ?_ | refine (State.onBeat_pending _ _ _ ?_).trans ?_ | refine (State.onProgram_pending _ _ _ ?_).trans ?_ | refine (State.completeAt_pending _ _ _ _ _ ?_).trans ?_ | refine (State.onBeat_part _ _ _ ?_).trans ?_ | refine (State.onProgram_part _ _ _ ?_).trans ?_ | refine (State.completeAt_part _ _ _ _ _ ?_).trans ?_ | refine (State.onBeat_ftq _ _ _ ?_).trans ?_ | refine (State.onProgram_ftq _ _ _ ?_).trans ?_ | refine (State.completeAt_ftq _ _ _ _ _ ?_).trans ?_ | intro _ | split | refine And.intro ?_ ?_ | simp)


@[simp] theorem State.replayFrom_keeps (s : State) (n : Nat) (seq : BitVec 10) :
    (State.replayFrom s n seq).pending = s.pending
      ∧ (State.replayFrom s n seq).part = s.part
      ∧ (State.replayFrom s n seq).mc = s.mc
      ∧ (State.replayFrom s n seq).vc = s.vc
      ∧ (State.replayFrom s n seq).ftq = s.ftq
      ∧ (State.replayFrom s n seq).pantry = s.pantry
      ∧ (State.replayFrom s n seq).larder = s.larder
      ∧ (State.replayFrom s n seq).cellar = s.cellar := by
  unfold State.replayFrom
  try dsimp only
  repeat' (first | (simp; done) | split)


@[simp] theorem State.reportMargin_keeps (s : State) (r : Nat) (codes : BitVec 32) :
    (State.reportMargin s r codes).pending = s.pending
      ∧ (State.reportMargin s r codes).part = s.part
      ∧ (State.reportMargin s r codes).mc = s.mc
      ∧ (State.reportMargin s r codes).vc = s.vc
      ∧ (State.reportMargin s r codes).ftq = s.ftq
      ∧ (State.reportMargin s r codes).pantry = s.pantry
      ∧ (State.reportMargin s r codes).larder = s.larder
      ∧ (State.reportMargin s r codes).cellar = s.cellar := by
  unfold State.reportMargin
  try dsimp only
  repeat' (first | (simp; done) | split)


@[simp] theorem State.resumeMatrix_keeps (s : State) (c : MCoreId) :
    (State.resumeMatrix s c).pending = s.pending
      ∧ (State.resumeMatrix s c).part = s.part
      ∧ (State.resumeMatrix s c).ftq = s.ftq := by
  unfold State.resumeMatrix
  try dsimp only
  repeat' (first | (simp; done) | refine (foldl_pending _ _ _ fun _ _ => ?_).trans ?_ | refine (foldl_part _ _ _ fun _ _ => ?_).trans ?_ | refine (foldl_ftq _ _ _ fun _ _ => ?_).trans ?_ | refine (State.onBeat_pending _ _ _ ?_).trans ?_ | refine (State.onProgram_pending _ _ _ ?_).trans ?_ | refine (State.completeAt_pending _ _ _ _ _ ?_).trans ?_ | refine (State.onBeat_part _ _ _ ?_).trans ?_ | refine (State.onProgram_part _ _ _ ?_).trans ?_ | refine (State.completeAt_part _ _ _ _ _ ?_).trans ?_ | refine (State.onBeat_ftq _ _ _ ?_).trans ?_ | refine (State.onProgram_ftq _ _ _ ?_).trans ?_ | refine (State.completeAt_ftq _ _ _ _ _ ?_).trans ?_ | intro _ | split | refine And.intro ?_ ?_ | simp)


@[simp] theorem State.resumeVector_keeps (s : State) (h : HallId) :
    (State.resumeVector s h).pending = s.pending
      ∧ (State.resumeVector s h).part = s.part
      ∧ (State.resumeVector s h).ftq = s.ftq := by
  unfold State.resumeVector
  try dsimp only
  repeat' (first | (simp; done) | refine (foldl_pending _ _ _ fun _ _ => ?_).trans ?_ | refine (foldl_part _ _ _ fun _ _ => ?_).trans ?_ | refine (foldl_ftq _ _ _ fun _ _ => ?_).trans ?_ | refine (State.onBeat_pending _ _ _ ?_).trans ?_ | refine (State.onProgram_pending _ _ _ ?_).trans ?_ | refine (State.completeAt_pending _ _ _ _ _ ?_).trans ?_ | refine (State.onBeat_part _ _ _ ?_).trans ?_ | refine (State.onProgram_part _ _ _ ?_).trans ?_ | refine (State.completeAt_part _ _ _ _ _ ?_).trans ?_ | refine (State.onBeat_ftq _ _ _ ?_).trans ?_ | refine (State.onProgram_ftq _ _ _ ?_).trans ?_ | refine (State.completeAt_ftq _ _ _ _ _ ?_).trans ?_ | intro _ | split | refine And.intro ?_ ?_ | simp)


@[simp] theorem State.resyncDown_keeps (s : State) (frac : BitVec 4) :
    (State.resyncDown s frac).pending = s.pending
      ∧ (State.resyncDown s frac).part = s.part
      ∧ (State.resyncDown s frac).mc = s.mc
      ∧ (State.resyncDown s frac).vc = s.vc
      ∧ (State.resyncDown s frac).ftq = s.ftq
      ∧ (State.resyncDown s frac).pantry = s.pantry
      ∧ (State.resyncDown s frac).larder = s.larder
      ∧ (State.resyncDown s frac).cellar = s.cellar := by
  unfold State.resyncDown
  try dsimp only
  repeat' (first | (simp; done) | split)


@[simp] theorem State.rowRun_keeps (s : State) (h : HallId) (a : MArgs) (owner : RunOwner) (due : Nat) (o : Nat) (b : Nat) (acts : List Act) (sink : Sink) :
    (State.rowRun s h a owner due o b acts sink).1.pending = s.pending
      ∧ (State.rowRun s h a owner due o b acts sink).1.part = s.part
      ∧ (State.rowRun s h a owner due o b acts sink).1.ftq = s.ftq
      ∧ (State.rowRun s h a owner due o b acts sink).1.pantry = s.pantry
      ∧ (State.rowRun s h a owner due o b acts sink).1.larder = s.larder
      ∧ (State.rowRun s h a owner due o b acts sink).1.cellar = s.cellar := by
  unfold State.rowRun
  try dsimp only
  repeat' (first | (simp; done) | split)


@[simp] theorem State.sawHot_keeps (s : State) :
    (State.sawHot s).pending = s.pending
      ∧ (State.sawHot s).part = s.part
      ∧ (State.sawHot s).mc = s.mc
      ∧ (State.sawHot s).vc = s.vc
      ∧ (State.sawHot s).ftq = s.ftq
      ∧ (State.sawHot s).pantry = s.pantry
      ∧ (State.sawHot s).larder = s.larder
      ∧ (State.sawHot s).cellar = s.cellar := by
  unfold State.sawHot
  try dsimp only
  repeat' (first | (simp; done) | split)


@[simp] theorem State.seeEntry_keeps (s : State) (c : MCoreId) (at_ : Nat) :
    (State.seeEntry s c at_).pending = s.pending
      ∧ (State.seeEntry s c at_).part = s.part
      ∧ (State.seeEntry s c at_).vc = s.vc
      ∧ (State.seeEntry s c at_).pantry = s.pantry
      ∧ (State.seeEntry s c at_).larder = s.larder
      ∧ (State.seeEntry s c at_).cellar = s.cellar := by
  unfold State.seeEntry
  try dsimp only
  repeat' (first | (simp; done) | split)


@[simp] theorem State.sendComplete_keeps (s : State) (o : Owed) (ok : Bool) :
    (State.sendComplete s o ok).pending = s.pending
      ∧ (State.sendComplete s o ok).part = s.part
      ∧ (State.sendComplete s o ok).mc = s.mc
      ∧ (State.sendComplete s o ok).vc = s.vc
      ∧ (State.sendComplete s o ok).ftq = s.ftq
      ∧ (State.sendComplete s o ok).pantry = s.pantry
      ∧ (State.sendComplete s o ok).larder = s.larder
      ∧ (State.sendComplete s o ok).cellar = s.cellar := by
  unfold State.sendComplete
  try dsimp only
  repeat' (first | (simp; done) | split)


@[simp] theorem State.sendInit_keeps (s : State) :
    (State.sendInit s).pending = s.pending
      ∧ (State.sendInit s).part = s.part
      ∧ (State.sendInit s).mc = s.mc
      ∧ (State.sendInit s).vc = s.vc
      ∧ (State.sendInit s).ftq = s.ftq
      ∧ (State.sendInit s).pantry = s.pantry
      ∧ (State.sendInit s).larder = s.larder
      ∧ (State.sendInit s).cellar = s.cellar := by
  unfold State.sendInit
  try dsimp only
  repeat' (first | (simp; done) | split)


@[simp] theorem State.sendPart_keeps (s : State) (a : ActiveLoad) :
    (State.sendPart s a).pending = s.pending
      ∧ (State.sendPart s a).part = s.part
      ∧ (State.sendPart s a).mc = s.mc
      ∧ (State.sendPart s a).vc = s.vc
      ∧ (State.sendPart s a).ftq = s.ftq
      ∧ (State.sendPart s a).pantry = s.pantry
      ∧ (State.sendPart s a).larder = s.larder
      ∧ (State.sendPart s a).cellar = s.cellar := by
  unfold State.sendPart
  try dsimp only
  repeat' (first | (simp; done) | split)


@[simp] theorem State.sendRecords_keeps (s : State) (d : Decision) :
    (State.sendRecords s d).pending = s.pending
      ∧ (State.sendRecords s d).part = s.part
      ∧ (State.sendRecords s d).mc = s.mc
      ∧ (State.sendRecords s d).vc = s.vc
      ∧ (State.sendRecords s d).ftq = s.ftq
      ∧ (State.sendRecords s d).pantry = s.pantry
      ∧ (State.sendRecords s d).larder = s.larder
      ∧ (State.sendRecords s d).cellar = s.cellar := by
  unfold State.sendRecords
  try dsimp only
  repeat' (first | (simp; done) | split)

@[simp] theorem State.storeReply_keeps (s : State) (r : DictReply) :
    (State.storeReply s r).pending = s.pending
      ∧ (State.storeReply s r).part = s.part
      ∧ (State.storeReply s r).mc = s.mc
      ∧ (State.storeReply s r).vc = s.vc
      ∧ (State.storeReply s r).ftq = s.ftq
      ∧ (State.storeReply s r).pantry = s.pantry
      ∧ (State.storeReply s r).larder = s.larder
      ∧ (State.storeReply s r).cellar = s.cellar := by
  unfold State.storeReply
  try dsimp only
  repeat' (first | (simp; done) | split)


@[simp] theorem State.serveAsk_keeps (s : State) (reply : BitVec 8) (opcode : BitVec 8) (a : DictAsk) (value : List Byte) (answer : State → BitVec 8 × List Byte) :
    (State.serveAsk s reply opcode a value answer).pending = s.pending
      ∧ (State.serveAsk s reply opcode a value answer).part = s.part
      ∧ (State.serveAsk s reply opcode a value answer).mc = s.mc
      ∧ (State.serveAsk s reply opcode a value answer).vc = s.vc
      ∧ (State.serveAsk s reply opcode a value answer).ftq = s.ftq
      ∧ (State.serveAsk s reply opcode a value answer).pantry = s.pantry
      ∧ (State.serveAsk s reply opcode a value answer).larder = s.larder
      ∧ (State.serveAsk s reply opcode a value answer).cellar = s.cellar := by
  unfold State.serveAsk
  try dsimp only
  repeat' (first | (simp; done) | split)


@[simp] theorem State.serveWrite_pending (s : State) (index sub : Nat) (w : DictWrite) (rule : WriteRule) (pending : Bool) (apply : State → Nat → State)
    (h : ∀ s i, (apply s i).pending = s.pending) :
    (s.serveWrite index sub w rule pending apply).pending = s.pending := by
  unfold State.serveWrite
  dsimp only
  repeat' (first | (simp [h]; done) | refine (foldl_pending _ _ _ fun _ _ => ?_).trans ?_ | split | exact h _ _ | simp)

@[simp] theorem State.serveWrite_part (s : State) (index sub : Nat) (w : DictWrite) (rule : WriteRule) (pending : Bool) (apply : State → Nat → State)
    (h : ∀ s i, (apply s i).part = s.part) :
    (s.serveWrite index sub w rule pending apply).part = s.part := by
  unfold State.serveWrite
  dsimp only
  repeat' (first | (simp [h]; done) | refine (foldl_part _ _ _ fun _ _ => ?_).trans ?_ | split | exact h _ _ | simp)

@[simp] theorem State.serveWrite_mc (s : State) (index sub : Nat) (w : DictWrite) (rule : WriteRule) (pending : Bool) (apply : State → Nat → State)
    (h : ∀ s i, (apply s i).mc = s.mc) :
    (s.serveWrite index sub w rule pending apply).mc = s.mc := by
  unfold State.serveWrite
  dsimp only
  repeat' (first | (simp [h]; done) | refine (foldl_mc _ _ _ fun _ _ => ?_).trans ?_ | split | exact h _ _ | simp)

@[simp] theorem State.serveWrite_vc (s : State) (index sub : Nat) (w : DictWrite) (rule : WriteRule) (pending : Bool) (apply : State → Nat → State)
    (h : ∀ s i, (apply s i).vc = s.vc) :
    (s.serveWrite index sub w rule pending apply).vc = s.vc := by
  unfold State.serveWrite
  dsimp only
  repeat' (first | (simp [h]; done) | refine (foldl_vc _ _ _ fun _ _ => ?_).trans ?_ | split | exact h _ _ | simp)

@[simp] theorem State.serveWrite_ftq (s : State) (index sub : Nat) (w : DictWrite) (rule : WriteRule) (pending : Bool) (apply : State → Nat → State)
    (h : ∀ s i, (apply s i).ftq = s.ftq) :
    (s.serveWrite index sub w rule pending apply).ftq = s.ftq := by
  unfold State.serveWrite
  dsimp only
  repeat' (first | (simp [h]; done) | refine (foldl_ftq _ _ _ fun _ _ => ?_).trans ?_ | split | exact h _ _ | simp)

@[simp] theorem State.serveWrite_pantry (s : State) (index sub : Nat) (w : DictWrite) (rule : WriteRule) (pending : Bool) (apply : State → Nat → State)
    (h : ∀ s i, (apply s i).pantry = s.pantry) :
    (s.serveWrite index sub w rule pending apply).pantry = s.pantry := by
  unfold State.serveWrite
  dsimp only
  repeat' (first | (simp [h]; done) | refine (foldl_pantry _ _ _ fun _ _ => ?_).trans ?_ | split | exact h _ _ | simp)

@[simp] theorem State.serveWrite_larder (s : State) (index sub : Nat) (w : DictWrite) (rule : WriteRule) (pending : Bool) (apply : State → Nat → State)
    (h : ∀ s i, (apply s i).larder = s.larder) :
    (s.serveWrite index sub w rule pending apply).larder = s.larder := by
  unfold State.serveWrite
  dsimp only
  repeat' (first | (simp [h]; done) | refine (foldl_larder _ _ _ fun _ _ => ?_).trans ?_ | split | exact h _ _ | simp)

@[simp] theorem State.serveWrite_cellar (s : State) (index sub : Nat) (w : DictWrite) (rule : WriteRule) (pending : Bool) (apply : State → Nat → State)
    (h : ∀ s i, (apply s i).cellar = s.cellar) :
    (s.serveWrite index sub w rule pending apply).cellar = s.cellar := by
  unfold State.serveWrite
  dsimp only
  repeat' (first | (simp [h]; done) | refine (foldl_cellar _ _ _ fun _ _ => ?_).trans ?_ | split | exact h _ _ | simp)



@[simp] theorem State.serveDesk_pending (s : State) (index sub : Nat) (w : DictWrite) (rule : WriteRule) (pending : Bool) (apply : State → Nat → State)
    (h : ∀ s i, (apply s i).pending = s.pending) :
    (s.serveDesk index sub w rule pending apply).pending = s.pending := by
  unfold State.serveDesk
  dsimp only
  repeat' (first | (simp [h]; done) | refine (foldl_pending _ _ _ fun _ _ => ?_).trans ?_ | split | exact h _ _ | simp)

@[simp] theorem State.serveDesk_part (s : State) (index sub : Nat) (w : DictWrite) (rule : WriteRule) (pending : Bool) (apply : State → Nat → State)
    (h : ∀ s i, (apply s i).part = s.part) :
    (s.serveDesk index sub w rule pending apply).part = s.part := by
  unfold State.serveDesk
  dsimp only
  repeat' (first | (simp [h]; done) | refine (foldl_part _ _ _ fun _ _ => ?_).trans ?_ | split | exact h _ _ | simp)

@[simp] theorem State.serveDesk_mc (s : State) (index sub : Nat) (w : DictWrite) (rule : WriteRule) (pending : Bool) (apply : State → Nat → State)
    (h : ∀ s i, (apply s i).mc = s.mc) :
    (s.serveDesk index sub w rule pending apply).mc = s.mc := by
  unfold State.serveDesk
  dsimp only
  repeat' (first | (simp [h]; done) | refine (foldl_mc _ _ _ fun _ _ => ?_).trans ?_ | split | exact h _ _ | simp)

@[simp] theorem State.serveDesk_vc (s : State) (index sub : Nat) (w : DictWrite) (rule : WriteRule) (pending : Bool) (apply : State → Nat → State)
    (h : ∀ s i, (apply s i).vc = s.vc) :
    (s.serveDesk index sub w rule pending apply).vc = s.vc := by
  unfold State.serveDesk
  dsimp only
  repeat' (first | (simp [h]; done) | refine (foldl_vc _ _ _ fun _ _ => ?_).trans ?_ | split | exact h _ _ | simp)

@[simp] theorem State.serveDesk_ftq (s : State) (index sub : Nat) (w : DictWrite) (rule : WriteRule) (pending : Bool) (apply : State → Nat → State)
    (h : ∀ s i, (apply s i).ftq = s.ftq) :
    (s.serveDesk index sub w rule pending apply).ftq = s.ftq := by
  unfold State.serveDesk
  dsimp only
  repeat' (first | (simp [h]; done) | refine (foldl_ftq _ _ _ fun _ _ => ?_).trans ?_ | split | exact h _ _ | simp)

@[simp] theorem State.serveDesk_pantry (s : State) (index sub : Nat) (w : DictWrite) (rule : WriteRule) (pending : Bool) (apply : State → Nat → State)
    (h : ∀ s i, (apply s i).pantry = s.pantry) :
    (s.serveDesk index sub w rule pending apply).pantry = s.pantry := by
  unfold State.serveDesk
  dsimp only
  repeat' (first | (simp [h]; done) | refine (foldl_pantry _ _ _ fun _ _ => ?_).trans ?_ | split | exact h _ _ | simp)

@[simp] theorem State.serveDesk_larder (s : State) (index sub : Nat) (w : DictWrite) (rule : WriteRule) (pending : Bool) (apply : State → Nat → State)
    (h : ∀ s i, (apply s i).larder = s.larder) :
    (s.serveDesk index sub w rule pending apply).larder = s.larder := by
  unfold State.serveDesk
  dsimp only
  repeat' (first | (simp [h]; done) | refine (foldl_larder _ _ _ fun _ _ => ?_).trans ?_ | split | exact h _ _ | simp)

@[simp] theorem State.serveDesk_cellar (s : State) (index sub : Nat) (w : DictWrite) (rule : WriteRule) (pending : Bool) (apply : State → Nat → State)
    (h : ∀ s i, (apply s i).cellar = s.cellar) :
    (s.serveDesk index sub w rule pending apply).cellar = s.cellar := by
  unfold State.serveDesk
  dsimp only
  repeat' (first | (simp [h]; done) | refine (foldl_cellar _ _ _ fun _ _ => ?_).trans ?_ | split | exact h _ _ | simp)



@[simp] theorem State.setInbox_keeps (s : State) (l : List (Nat × MgtFrame)) :
    (State.setInbox s l).pending = s.pending
      ∧ (State.setInbox s l).part = s.part
      ∧ (State.setInbox s l).mc = s.mc
      ∧ (State.setInbox s l).vc = s.vc
      ∧ (State.setInbox s l).ftq = s.ftq
      ∧ (State.setInbox s l).pantry = s.pantry
      ∧ (State.setInbox s l).larder = s.larder
      ∧ (State.setInbox s l).cellar = s.cellar := by
  unfold State.setInbox
  try dsimp only
  repeat' (first | (simp; done) | split)


@[simp] theorem State.setStretch_keeps (s : State) (r : Nat) (own : Bool) :
    (State.setStretch s r own).pending = s.pending
      ∧ (State.setStretch s r own).part = s.part
      ∧ (State.setStretch s r own).mc = s.mc
      ∧ (State.setStretch s r own).vc = s.vc
      ∧ (State.setStretch s r own).ftq = s.ftq
      ∧ (State.setStretch s r own).pantry = s.pantry
      ∧ (State.setStretch s r own).larder = s.larder
      ∧ (State.setStretch s r own).cellar = s.cellar := by
  unfold State.setStretch
  try dsimp only
  repeat' (first | (simp; done) | split)


@[simp] theorem State.sourceAccess_keeps (s : State) (k : Nat) (t : Transfer) :
    (State.sourceAccess s k t).pending = s.pending
      ∧ (State.sourceAccess s k t).part = s.part
      ∧ (State.sourceAccess s k t).ftq = s.ftq := by
  unfold State.sourceAccess
  try dsimp only
  repeat' (first | (simp; done) | (obtain ⟨h1, h2, h3, h4, h5, h6, h7, h8⟩ := State.rowsFault_keeps ‹_›; simp_all; done) | refine (foldl_pending _ _ _ fun _ _ => ?_).trans ?_ | refine (foldl_part _ _ _ fun _ _ => ?_).trans ?_ | refine (foldl_mc _ _ _ fun _ _ => ?_).trans ?_ | refine (foldl_vc _ _ _ fun _ _ => ?_).trans ?_ | refine (foldl_ftq _ _ _ fun _ _ => ?_).trans ?_ | refine (foldl_pantry _ _ _ fun _ _ => ?_).trans ?_ | refine (foldl_larder _ _ _ fun _ _ => ?_).trans ?_ | refine (foldl_cellar _ _ _ fun _ _ => ?_).trans ?_ | refine (State.onBeat_pending _ _ _ ?_).trans ?_ | refine (State.onProgram_pending _ _ _ ?_).trans ?_ | refine (State.completeAt_pending _ _ _ _ _ ?_).trans ?_ | refine (State.onBeat_part _ _ _ ?_).trans ?_ | refine (State.onProgram_part _ _ _ ?_).trans ?_ | refine (State.completeAt_part _ _ _ _ _ ?_).trans ?_ | refine (State.onBeat_ftq _ _ _ ?_).trans ?_ | refine (State.onProgram_ftq _ _ _ ?_).trans ?_ | refine (State.completeAt_ftq _ _ _ _ _ ?_).trans ?_ | intro _ | split | refine And.intro ?_ ?_ | simp)


@[simp] theorem State.stackLimit_keeps (s : State) (k : Nat) (temp : BitVec 32) :
    (State.stackLimit s k temp).pending = s.pending
      ∧ (State.stackLimit s k temp).part = s.part
      ∧ (State.stackLimit s k temp).mc = s.mc
      ∧ (State.stackLimit s k temp).vc = s.vc
      ∧ (State.stackLimit s k temp).ftq = s.ftq
      ∧ (State.stackLimit s k temp).pantry = s.pantry
      ∧ (State.stackLimit s k temp).larder = s.larder
      ∧ (State.stackLimit s k temp).cellar = s.cellar := by
  unfold State.stackLimit
  try dsimp only
  repeat' (first | (simp; done) | split)


@[simp] theorem State.startCores_keeps (s : State) (b : Nat) :
    (State.startCores s b).pending = s.pending
      ∧ (State.startCores s b).part = s.part
      ∧ (State.startCores s b).pantry = s.pantry
      ∧ (State.startCores s b).larder = s.larder
      ∧ (State.startCores s b).cellar = s.cellar := by
  unfold State.startCores
  try dsimp only
  repeat' (first | (simp; done) | split)


@[simp] theorem State.startDescriptor_keeps (s : State) (k : Nat) (hd : Handed) (b : Nat) : resKeeps s (State.startDescriptor s k hd b) := by
  unfold State.startDescriptor
  dsimp only
  split
  · exact resKeeps_congr (by simp) (by simp) (State.openDescriptor_keeps ..)
  · simp


@[simp] theorem State.startProgram_keeps (s : State) :
    (State.startProgram s).pending = s.pending
      ∧ (State.startProgram s).part = s.part
      ∧ (State.startProgram s).pantry = s.pantry
      ∧ (State.startProgram s).larder = s.larder
      ∧ (State.startProgram s).cellar = s.cellar := by
  unfold State.startProgram
  try dsimp only
  repeat' (first | (simp; done) | split)


@[simp] theorem State.stepCount_keeps (s : State) (d : Int) :
    (State.stepCount s d).pending = s.pending
      ∧ (State.stepCount s d).part = s.part
      ∧ (State.stepCount s d).mc = s.mc
      ∧ (State.stepCount s d).vc = s.vc
      ∧ (State.stepCount s d).ftq = s.ftq
      ∧ (State.stepCount s d).pantry = s.pantry
      ∧ (State.stepCount s d).larder = s.larder
      ∧ (State.stepCount s d).cellar = s.cellar := by
  unfold State.stepCount
  try dsimp only
  repeat' (first | (simp; done) | split)


@[simp] theorem State.stopJob_keeps (s : State) :
    (State.stopJob s).pending = s.pending
      ∧ (State.stopJob s).part = s.part
      ∧ (State.stopJob s).mc = s.mc
      ∧ (State.stopJob s).vc = s.vc
      ∧ (State.stopJob s).ftq = s.ftq
      ∧ (State.stopJob s).pantry = s.pantry
      ∧ (State.stopJob s).larder = s.larder
      ∧ (State.stopJob s).cellar = s.cellar := by
  unfold State.stopJob
  try dsimp only
  repeat' (first | (simp; done) | split)


@[simp] theorem State.storeStack_keeps (s : State) (k : Nat) (a : Nat) (bs : List Byte) (x4 : Nat) :
    (State.storeStack s k a bs x4).pending = s.pending
      ∧ (State.storeStack s k a bs x4).part = s.part
      ∧ (State.storeStack s k a bs x4).mc = s.mc
      ∧ (State.storeStack s k a bs x4).vc = s.vc
      ∧ (State.storeStack s k a bs x4).ftq = s.ftq
      ∧ (State.storeStack s k a bs x4).pantry = s.pantry
      ∧ (State.storeStack s k a bs x4).larder = s.larder := by
  induction x4 generalizing s a bs with
  | zero => simp [State.storeStack]
  | succ n ih =>
    unfold State.storeStack
    dsimp only
    split
    · simp
    · simp [ih]


@[simp] theorem State.streamArrives_keeps (s : State) (k : Nat) (c : CellarStream) :
    (State.streamArrives s k c).pending = s.pending
      ∧ (State.streamArrives s k c).part = s.part
      ∧ (State.streamArrives s k c).mc = s.mc
      ∧ (State.streamArrives s k c).vc = s.vc
      ∧ (State.streamArrives s k c).ftq = s.ftq
      ∧ (State.streamArrives s k c).pantry = s.pantry
      ∧ (State.streamArrives s k c).larder = s.larder
      ∧ (State.streamArrives s k c).cellar = s.cellar := by
  unfold State.streamArrives
  try dsimp only
  repeat' (first | (simp; done) | split)


@[simp] theorem State.takeAck_keeps (s : State) (n : Nat) (ack : BitVec 10) :
    (State.takeAck s n ack).pending = s.pending
      ∧ (State.takeAck s n ack).part = s.part
      ∧ (State.takeAck s n ack).mc = s.mc
      ∧ (State.takeAck s n ack).vc = s.vc
      ∧ (State.takeAck s n ack).ftq = s.ftq
      ∧ (State.takeAck s n ack).pantry = s.pantry
      ∧ (State.takeAck s n ack).larder = s.larder
      ∧ (State.takeAck s n ack).cellar = s.cellar := by
  unfold State.takeAck
  try dsimp only
  repeat' (first | (simp; done) | split)


@[simp] theorem State.takeCommit_keeps (s : State) (p : Nat) (atStart : Bool) :
    (State.takeCommit s p atStart).pending = s.pending
      ∧ (State.takeCommit s p atStart).part = s.part
      ∧ (State.takeCommit s p atStart).mc = s.mc
      ∧ (State.takeCommit s p atStart).vc = s.vc
      ∧ (State.takeCommit s p atStart).ftq = s.ftq
      ∧ (State.takeCommit s p atStart).pantry = s.pantry
      ∧ (State.takeCommit s p atStart).larder = s.larder
      ∧ (State.takeCommit s p atStart).cellar = s.cellar := by
  unfold State.takeCommit
  try dsimp only
  repeat' (first | (simp; done) | split)


@[simp] theorem State.takeDict_keeps (s : State) (rank : BitVec 16) (b : BitVec 960) :
    (State.takeDict s rank b).pending = s.pending
      ∧ (State.takeDict s rank b).part = s.part
      ∧ (State.takeDict s rank b).mc = s.mc
      ∧ (State.takeDict s rank b).vc = s.vc
      ∧ (State.takeDict s rank b).ftq = s.ftq
      ∧ (State.takeDict s rank b).pantry = s.pantry
      ∧ (State.takeDict s rank b).larder = s.larder
      ∧ (State.takeDict s rank b).cellar = s.cellar := by
  unfold State.takeDict
  try dsimp only
  repeat' (first | (simp; done) | split)


@[simp] theorem State.takeFirmware_keeps (s : State) (g : List Byte) :
    (State.takeFirmware s g).pending = s.pending
      ∧ (State.takeFirmware s g).part = s.part
      ∧ (State.takeFirmware s g).mc = s.mc
      ∧ (State.takeFirmware s g).vc = s.vc
      ∧ (State.takeFirmware s g).ftq = s.ftq
      ∧ (State.takeFirmware s g).pantry = s.pantry
      ∧ (State.takeFirmware s g).larder = s.larder
      ∧ (State.takeFirmware s g).cellar = s.cellar := by
  unfold State.takeFirmware
  try dsimp only
  repeat' (first | (simp; done) | split)


theorem State.takeHalt_keeps {s t : State} {stop : Bool} {p : Nat} {f : Flit}
    (hn : State.takeHalt s stop = some (p, f, t)) :
    t.pending = s.pending ∧ t.part = s.part ∧ t.mc = s.mc ∧ t.vc = s.vc ∧ t.ftq = s.ftq ∧ t.pantry = s.pantry ∧ t.larder = s.larder ∧ t.cellar = s.cellar := by
  unfold State.takeHalt at hn
  split at hn
  · cases hn
  · cases hn; simp


@[simp] theorem State.takeSwap_keeps (s : State) (n : Nat) (lane : BitVec 2) :
    (State.takeSwap s n lane).pending = s.pending
      ∧ (State.takeSwap s n lane).part = s.part
      ∧ (State.takeSwap s n lane).mc = s.mc
      ∧ (State.takeSwap s n lane).vc = s.vc
      ∧ (State.takeSwap s n lane).ftq = s.ftq
      ∧ (State.takeSwap s n lane).pantry = s.pantry
      ∧ (State.takeSwap s n lane).larder = s.larder
      ∧ (State.takeSwap s n lane).cellar = s.cellar := by
  unfold State.takeSwap
  try dsimp only
  repeat' (first | (simp; done) | split)


@[simp] theorem State.takeSwitch_keeps (s : State) (d : Decision) :
    (State.takeSwitch s d).pending = s.pending
      ∧ (State.takeSwitch s d).part = s.part
      ∧ (State.takeSwitch s d).mc = s.mc
      ∧ (State.takeSwitch s d).vc = s.vc
      ∧ (State.takeSwitch s d).ftq = s.ftq
      ∧ (State.takeSwitch s d).pantry = s.pantry
      ∧ (State.takeSwitch s d).larder = s.larder
      ∧ (State.takeSwitch s d).cellar = s.cellar := by
  unfold State.takeSwitch
  try dsimp only
  repeat' (first | (simp; done) | split)


@[simp] theorem State.toWall_keeps (s : State) (w : Nat) :
    (State.toWall s w).pending = s.pending
      ∧ (State.toWall s w).part = s.part
      ∧ (State.toWall s w).ftq = s.ftq := by
  unfold State.toWall
  try dsimp only
  repeat' (first | (simp; done) | split)


@[simp] theorem State.tryStart_keeps (s : State) (k : Nat) (hd : Handed) (b : Nat) : resKeeps s (State.tryStart s k hd b) := by
  unfold State.tryStart
  dsimp only
  split
  · simp
  · split
    · simp
    · split
      · exact resKeeps_congr (by simp) (by simp) (State.openDescriptor_keeps ..)
      · simp


@[simp] theorem State.vcResume_keeps (s : State) (h : HallId) (t : VTiming) (b : Nat) :
    (State.vcResume s h t b).pending = s.pending
      ∧ (State.vcResume s h t b).part = s.part
      ∧ (State.vcResume s h t b).ftq = s.ftq := by
  unfold State.vcResume
  try dsimp only
  repeat' (first | (simp; done) | refine (foldl_pending _ _ _ fun _ _ => ?_).trans ?_ | refine (foldl_part _ _ _ fun _ _ => ?_).trans ?_ | refine (foldl_ftq _ _ _ fun _ _ => ?_).trans ?_ | refine (State.onBeat_pending _ _ _ ?_).trans ?_ | refine (State.onProgram_pending _ _ _ ?_).trans ?_ | refine (State.completeAt_pending _ _ _ _ _ ?_).trans ?_ | refine (State.onBeat_part _ _ _ ?_).trans ?_ | refine (State.onProgram_part _ _ _ ?_).trans ?_ | refine (State.completeAt_part _ _ _ _ _ ?_).trans ?_ | refine (State.onBeat_ftq _ _ _ ?_).trans ?_ | refine (State.onProgram_ftq _ _ _ ?_).trans ?_ | refine (State.completeAt_ftq _ _ _ _ _ ?_).trans ?_ | intro _ | split | refine And.intro ?_ ?_ | simp)


@[simp] theorem State.writeDeskSetting_keeps (s : State) (key : Nat) (n : Nat) :
    (State.writeDeskSetting s key n).pending = s.pending
      ∧ (State.writeDeskSetting s key n).part = s.part
      ∧ (State.writeDeskSetting s key n).mc = s.mc
      ∧ (State.writeDeskSetting s key n).vc = s.vc
      ∧ (State.writeDeskSetting s key n).ftq = s.ftq
      ∧ (State.writeDeskSetting s key n).pantry = s.pantry
      ∧ (State.writeDeskSetting s key n).larder = s.larder
      ∧ (State.writeDeskSetting s key n).cellar = s.cellar := by
  unfold State.writeDeskSetting
  try dsimp only
  repeat' (first | (simp; done) | split)


@[simp] theorem State.writeLoaderSetting_keeps (s : State) (key : Nat) (n : Nat) :
    (State.writeLoaderSetting s key n).pending = s.pending
      ∧ (State.writeLoaderSetting s key n).part = s.part
      ∧ (State.writeLoaderSetting s key n).mc = s.mc
      ∧ (State.writeLoaderSetting s key n).vc = s.vc
      ∧ (State.writeLoaderSetting s key n).ftq = s.ftq
      ∧ (State.writeLoaderSetting s key n).pantry = s.pantry
      ∧ (State.writeLoaderSetting s key n).larder = s.larder
      ∧ (State.writeLoaderSetting s key n).cellar = s.cellar := by
  unfold State.writeLoaderSetting
  try dsimp only
  repeat' (first | (simp; done) | split)


@[simp] theorem State.writePending_keeps (s : State) (t : Nat) (c : SampleCol) (tok : Option Nat) :
    (State.writePending s t c tok).pending = s.pending
      ∧ (State.writePending s t c tok).part = s.part
      ∧ (State.writePending s t c tok).mc = s.mc
      ∧ (State.writePending s t c tok).vc = s.vc
      ∧ (State.writePending s t c tok).ftq = s.ftq
      ∧ (State.writePending s t c tok).pantry = s.pantry
      ∧ (State.writePending s t c tok).larder = s.larder
      ∧ (State.writePending s t c tok).cellar = s.cellar := by
  unfold State.writePending
  try dsimp only
  repeat' (first | (simp; done) | split)


@[simp] theorem State.writePiece_keeps (s : State) (c : MCoreId) (p : DrainPiece) (rest : List DrainPiece) (b : Nat) :
    (State.writePiece s c p rest b).pending = s.pending
      ∧ (State.writePiece s c p rest b).part = s.part
      ∧ (State.writePiece s c p rest b).vc = s.vc
      ∧ (State.writePiece s c p rest b).pantry = s.pantry
      ∧ (State.writePiece s c p rest b).larder = s.larder
      ∧ (State.writePiece s c p rest b).cellar = s.cellar := by
  unfold State.writePiece
  try dsimp only
  repeat' (first | (simp; done) | split)


@[simp] theorem State.writePortSetting_keeps (s : State) (key : Nat) (n : Nat) (i : Nat) :
    (State.writePortSetting s key n i).pending = s.pending
      ∧ (State.writePortSetting s key n i).part = s.part
      ∧ (State.writePortSetting s key n i).mc = s.mc
      ∧ (State.writePortSetting s key n i).vc = s.vc
      ∧ (State.writePortSetting s key n i).ftq = s.ftq
      ∧ (State.writePortSetting s key n i).pantry = s.pantry
      ∧ (State.writePortSetting s key n i).larder = s.larder
      ∧ (State.writePortSetting s key n i).cellar = s.cellar := by
  unfold State.writePortSetting
  try dsimp only
  repeat' (first | (simp; done) | split)


@[simp] theorem State.writeShapeSetting_keeps (s : State) (key : Nat) (n : Nat) :
    (State.writeShapeSetting s key n).pending = s.pending
      ∧ (State.writeShapeSetting s key n).part = s.part
      ∧ (State.writeShapeSetting s key n).mc = s.mc
      ∧ (State.writeShapeSetting s key n).vc = s.vc
      ∧ (State.writeShapeSetting s key n).ftq = s.ftq
      ∧ (State.writeShapeSetting s key n).pantry = s.pantry
      ∧ (State.writeShapeSetting s key n).larder = s.larder
      ∧ (State.writeShapeSetting s key n).cellar = s.cellar := by
  unfold State.writeShapeSetting
  try dsimp only
  repeat' (first | (simp; done) | split)


@[simp] theorem State.writeSetting_keeps (s : State) (key : Nat) (n : Nat) (i : Nat) :
    (State.writeSetting s key n i).pending = s.pending
      ∧ (State.writeSetting s key n i).part = s.part
      ∧ (State.writeSetting s key n i).mc = s.mc
      ∧ (State.writeSetting s key n i).vc = s.vc
      ∧ (State.writeSetting s key n i).ftq = s.ftq
      ∧ (State.writeSetting s key n i).pantry = s.pantry
      ∧ (State.writeSetting s key n i).larder = s.larder
      ∧ (State.writeSetting s key n i).cellar = s.cellar := by
  unfold State.writeSetting
  try dsimp only
  repeat' (first | (simp; done) | split)


@[simp] theorem execAdapterLoad_keeps (w : DictWrite) (s : State) : resKeeps s (execAdapterLoad w s) := by
  unfold execAdapterLoad
  try dsimp only
  repeat' (first | (simp; done) | refine (State.serveWrite_pending _ _ _ _ _ _ _ fun _ _ => ?_).trans ?_ | refine (State.serveWrite_part _ _ _ _ _ _ _ fun _ _ => ?_).trans ?_ | refine (State.serveDesk_pending _ _ _ _ _ _ _ fun _ _ => ?_).trans ?_ | refine (State.serveDesk_part _ _ _ _ _ _ _ fun _ _ => ?_).trans ?_ | refine (foldl_pending _ _ _ fun _ _ => ?_).trans ?_ | refine (foldl_part _ _ _ fun _ _ => ?_).trans ?_ | refine (State.onBeat_pending _ _ _ ?_).trans ?_ | refine (State.onProgram_pending _ _ _ ?_).trans ?_ | refine (State.completeAt_pending _ _ _ _ _ ?_).trans ?_ | refine (State.onBeat_part _ _ _ ?_).trans ?_ | refine (State.onProgram_part _ _ _ ?_).trans ?_ | refine (State.completeAt_part _ _ _ _ _ ?_).trans ?_ | intro _ | split | refine And.intro ?_ ?_ | simp)


@[simp] theorem execAnnounce_keeps (s : State) : resKeeps s (execAnnounce s) := by
  unfold execAnnounce
  try dsimp only
  repeat' (first | (simp; done) | split)


@[simp] theorem execAttestNonce_keeps (w : DictWrite) (s : State) : resKeeps s (execAttestNonce w s) := by
  unfold execAttestNonce
  try dsimp only
  repeat' (first | (simp; done) | split)


@[simp] theorem execAttestReportDone_keeps (s : State) : resKeeps s (execAttestReportDone s) := by
  unfold execAttestReportDone
  try dsimp only
  repeat' (first | (simp; done) | split)


@[simp] theorem execBarrierClose_keeps (w : DictWrite) (s : State) : resKeeps s (execBarrierClose w s) := by
  unfold execBarrierClose
  try dsimp only
  repeat' (first | (simp; done) | split)


@[simp] theorem execBarrierOpen_keeps (w : DictWrite) (s : State) : resKeeps s (execBarrierOpen w s) := by
  unfold execBarrierOpen
  try dsimp only
  repeat' (first | (simp; done) | split)


@[simp] theorem execBellHandAdd_keeps (w : DictWrite) (s : State) : resKeeps s (execBellHandAdd w s) := by
  unfold execBellHandAdd
  try dsimp only
  repeat' (first | (simp; done) | split)


theorem vcRun_keeps {h : HallId} {i : Instr} {tm : VTiming} {s : State} {f : State → VCore → Nat → State}
    (hf : ∀ s v b, (f s v b).pending = s.pending ∧ (f s v b).part = s.part) : resKeeps s (vcRun h i tm s f) := by
  unfold vcRun
  dsimp only
  split
  · split
    · simp [hf]
    · simp
  · simp


@[simp] theorem execBr_keeps (h : HallId) (a : BArgs) (s : State) : resKeeps s (execBr h a s) := by
  unfold execBr
  refine vcRun_keeps (fun _ _ _ => ?_)
  try dsimp only
  repeat' (first | (simp; done) | split)


@[simp] theorem execBringupEnd_keeps (us : BitVec 32) (f0 : F0Init) (f1 : F0Init) (s : State) : resKeeps s (execBringupEnd us f0 f1 s) := by
  unfold execBringupEnd
  try dsimp only
  repeat' (first | (simp; done) | split)


@[simp] theorem execBringupFailure_keeps (stack : Bool) (s : State) : resKeeps s (execBringupFailure stack s) := by
  unfold execBringupFailure
  try dsimp only
  repeat' (first | (simp; done) | split)


@[simp] theorem execBrp_keeps (h : HallId) (a : BArgs) (s : State) : resKeeps s (execBrp h a s) := by
  unfold execBrp
  refine vcRun_keeps (fun _ _ _ => ?_)
  try dsimp only
  repeat' (first | (simp; done) | split)


@[simp] theorem execBulkFirmware_keeps (s : State) : resKeeps s (execBulkFirmware s) := by
  unfold execBulkFirmware
  try dsimp only
  repeat' (first | (simp; done) | split)


@[simp] theorem execBulkFlashFlush_keeps (s : State) : resKeeps s (execBulkFlashFlush s) := by
  unfold execBulkFlashFlush
  refine State.bulkKind_keeps fun _ _ => ?_
  try dsimp only
  repeat' (first | (simp; done) | refine (foldl_pending _ _ _ fun _ _ => ?_).trans ?_ | refine (foldl_part _ _ _ fun _ _ => ?_).trans ?_ | refine (State.onBeat_pending _ _ _ ?_).trans ?_ | refine (State.onProgram_pending _ _ _ ?_).trans ?_ | refine (State.completeAt_pending _ _ _ _ _ ?_).trans ?_ | refine (State.onBeat_part _ _ _ ?_).trans ?_ | refine (State.onProgram_part _ _ _ ?_).trans ?_ | refine (State.completeAt_part _ _ _ _ _ ?_).trans ?_ | intro _ | split | refine And.intro ?_ ?_ | simp)

end Sys2Proof.Machine
end

