-- ==== Sys2Proof/Laws/Commands.lean ====
section
/-! SUPPORT. What the meaning of each command leaves alone, and the cold boots apart: the queue and the fused part. -/

namespace Sys2Proof.Machine

@[simp] theorem execBulkFlashWrite_keeps (s : State) : resKeeps s (execBulkFlashWrite s) := by
  unfold execBulkFlashWrite
  refine State.bulkKind_keeps fun _ _ => ?_
  try dsimp only
  repeat' (first | (simp; done) | refine (foldl_pending _ _ _ fun _ _ => ?_).trans ?_ | refine (foldl_part _ _ _ fun _ _ => ?_).trans ?_ | refine (State.onBeat_pending _ _ _ ?_).trans ?_ | refine (State.onProgram_pending _ _ _ ?_).trans ?_ | refine (State.completeAt_pending _ _ _ _ _ ?_).trans ?_ | refine (State.onBeat_part _ _ _ ?_).trans ?_ | refine (State.onProgram_part _ _ _ ?_).trans ?_ | refine (State.completeAt_part _ _ _ _ _ ?_).trans ?_ | intro _ | split | refine And.intro ?_ ?_ | simp)


@[simp] theorem execBulkReserved_keeps (s : State) : resKeeps s (execBulkReserved s) := by
  unfold execBulkReserved
  try dsimp only
  repeat' (first | (simp; done) | refine (foldl_pending _ _ _ fun _ _ => ?_).trans ?_ | refine (foldl_part _ _ _ fun _ _ => ?_).trans ?_ | refine (State.onBeat_pending _ _ _ ?_).trans ?_ | refine (State.onProgram_pending _ _ _ ?_).trans ?_ | refine (State.completeAt_pending _ _ _ _ _ ?_).trans ?_ | refine (State.onBeat_part _ _ _ ?_).trans ?_ | refine (State.onProgram_part _ _ _ ?_).trans ?_ | refine (State.completeAt_part _ _ _ _ _ ?_).trans ?_ | intro _ | split | refine And.intro ?_ ?_ | simp)


@[simp] theorem execBulkStaging_keeps (s : State) : resKeeps s (execBulkStaging s) := by
  unfold execBulkStaging
  refine State.bulkKind_keeps fun _ _ => ?_
  try dsimp only
  repeat' (first | (simp; done) | refine (foldl_pending _ _ _ fun _ _ => ?_).trans ?_ | refine (foldl_part _ _ _ fun _ _ => ?_).trans ?_ | refine (State.onBeat_pending _ _ _ ?_).trans ?_ | refine (State.onProgram_pending _ _ _ ?_).trans ?_ | refine (State.completeAt_pending _ _ _ _ _ ?_).trans ?_ | refine (State.onBeat_part _ _ _ ?_).trans ?_ | refine (State.onProgram_part _ _ _ ?_).trans ?_ | refine (State.completeAt_part _ _ _ _ _ ?_).trans ?_ | intro _ | split | refine And.intro ?_ ?_ | simp)


@[simp] theorem execBulkWeightStream_keeps (s : State) : resKeeps s (execBulkWeightStream s) := by
  unfold execBulkWeightStream
  refine State.bulkKind_keeps fun _ _ => ?_
  try dsimp only
  repeat' (first | (simp; done) | refine (foldl_pending _ _ _ fun _ _ => ?_).trans ?_ | refine (foldl_part _ _ _ fun _ _ => ?_).trans ?_ | refine (State.onBeat_pending _ _ _ ?_).trans ?_ | refine (State.onProgram_pending _ _ _ ?_).trans ?_ | refine (State.completeAt_pending _ _ _ _ _ ?_).trans ?_ | refine (State.onBeat_part _ _ _ ?_).trans ?_ | refine (State.onProgram_part _ _ _ ?_).trans ?_ | refine (State.completeAt_part _ _ _ _ _ ?_).trans ?_ | intro _ | split | refine And.intro ?_ ?_ | simp)


@[simp] theorem execCellarBlockStart_keeps (stack : Fin 24) (s : State) : resKeeps s (execCellarBlockStart stack s) := by
  unfold execCellarBlockStart
  try dsimp only
  repeat' (first | (simp; done) | refine (foldl_pending _ _ _ fun _ _ => ?_).trans ?_ | refine (foldl_part _ _ _ fun _ _ => ?_).trans ?_ | refine (State.onBeat_pending _ _ _ ?_).trans ?_ | refine (State.onProgram_pending _ _ _ ?_).trans ?_ | refine (State.completeAt_pending _ _ _ _ _ ?_).trans ?_ | refine (State.onBeat_part _ _ _ ?_).trans ?_ | refine (State.onProgram_part _ _ _ ?_).trans ?_ | refine (State.completeAt_part _ _ _ _ _ ?_).trans ?_ | intro _ | split | refine And.intro ?_ ?_ | simp)


@[simp] theorem execCellarReadDone_keeps (stack : Fin 24) (ecc : Ecc) (s : State) : resKeeps s (execCellarReadDone stack ecc s) := by
  unfold execCellarReadDone
  try dsimp only
  repeat' (first | (simp; done) | refine (foldl_pending _ _ _ fun _ _ => ?_).trans ?_ | refine (foldl_part _ _ _ fun _ _ => ?_).trans ?_ | refine (State.onBeat_pending _ _ _ ?_).trans ?_ | refine (State.onProgram_pending _ _ _ ?_).trans ?_ | refine (State.completeAt_pending _ _ _ _ _ ?_).trans ?_ | refine (State.onBeat_part _ _ _ ?_).trans ?_ | refine (State.onProgram_part _ _ _ ?_).trans ?_ | refine (State.completeAt_part _ _ _ _ _ ?_).trans ?_ | intro _ | split | refine And.intro ?_ ?_ | simp)


@[simp] theorem execCellarStreamArrive_keeps (stack : Fin 24) (s : State) : resKeeps s (execCellarStreamArrive stack s) := by
  unfold execCellarStreamArrive
  try dsimp only
  repeat' (first | (simp; done) | refine (foldl_pending _ _ _ fun _ _ => ?_).trans ?_ | refine (foldl_part _ _ _ fun _ _ => ?_).trans ?_ | refine (State.onBeat_pending _ _ _ ?_).trans ?_ | refine (State.onProgram_pending _ _ _ ?_).trans ?_ | refine (State.completeAt_pending _ _ _ _ _ ?_).trans ?_ | refine (State.onBeat_part _ _ _ ?_).trans ?_ | refine (State.onProgram_part _ _ _ ?_).trans ?_ | refine (State.completeAt_part _ _ _ _ _ ?_).trans ?_ | intro _ | split | refine And.intro ?_ ?_ | simp)


@[simp] theorem execCellarWriteVisible_keeps (stack : Fin 24) (s : State) : resKeeps s (execCellarWriteVisible stack s) := by
  unfold execCellarWriteVisible
  try dsimp only
  repeat' (first | (simp; done) | refine (foldl_pending _ _ _ fun _ _ => ?_).trans ?_ | refine (foldl_part _ _ _ fun _ _ => ?_).trans ?_ | refine (State.onBeat_pending _ _ _ ?_).trans ?_ | refine (State.onProgram_pending _ _ _ ?_).trans ?_ | refine (State.completeAt_pending _ _ _ _ _ ?_).trans ?_ | refine (State.onBeat_part _ _ _ ?_).trans ?_ | refine (State.onProgram_part _ _ _ ?_).trans ?_ | refine (State.completeAt_part _ _ _ _ _ ?_).trans ?_ | intro _ | split | refine And.intro ?_ ?_ | simp)


@[simp] theorem execChainFetch_keeps (p : Fin 256) (s : State) : resKeeps s (execChainFetch p s) := by
  unfold execChainFetch
  try dsimp only
  repeat' (first | (simp; done) | split)


@[simp] theorem execCircuitForward_keeps (port : PortId) (flit : Flit) (fec : Fec) (s : State) : resKeeps s (execCircuitForward port flit fec s) := by
  unfold execCircuitForward
  try dsimp only
  repeat' (first | (simp; done) | split)


@[simp] theorem execClockSlip_keeps (a : Fin 144) (b : Fin 144) (s : State) : resKeeps s (execClockSlip a b s) := by
  unfold execClockSlip
  try dsimp only
  repeat' (first | (simp; done) | split)


@[simp] theorem execCommitConfirm_keeps (s : State) : resKeeps s (execCommitConfirm s) := by
  unfold execCommitConfirm
  try dsimp only
  repeat' (first | (simp; done) | split)


@[simp] theorem execCommitPoint_keeps (s : State) : resKeeps s (execCommitPoint s) := by
  unfold execCommitPoint
  try dsimp only
  repeat' (first | (simp; done) | refine (foldl_pending _ _ _ fun _ _ => ?_).trans ?_ | refine (foldl_part _ _ _ fun _ _ => ?_).trans ?_ | refine (State.onBeat_pending _ _ _ ?_).trans ?_ | refine (State.onProgram_pending _ _ _ ?_).trans ?_ | refine (State.completeAt_pending _ _ _ _ _ ?_).trans ?_ | refine (State.onBeat_part _ _ _ ?_).trans ?_ | refine (State.onProgram_part _ _ _ ?_).trans ?_ | refine (State.completeAt_part _ _ _ _ _ ?_).trans ?_ | intro _ | split | refine And.intro ?_ ?_ | simp)


@[simp] theorem execComplete_keeps (s : State) : resKeeps s (execComplete s) := by
  unfold execComplete
  try dsimp only
  repeat' (first | (simp; done) | split)


@[simp] theorem execCredit_keeps (port : PortId) (s : State) : resKeeps s (execCredit port s) := by
  unfold execCredit
  try dsimp only
  repeat' (first | (simp; done) | split)


@[simp] theorem execCreditReceive_keeps (port : PortId) (s : State) : resKeeps s (execCreditReceive port s) := by
  unfold execCreditReceive
  extract_lets n p
  split
  · simp
  · extract_lets seen s1 s2
    have h1 : s2.pending = s.pending := foldl_pending _ _ _ fun _ _ => rfl
    have h2 : s2.part = s.part := foldl_part _ _ _ fun _ _ => rfl
    clear_value s2
    simp [h1, h2]


@[simp] theorem vcReg_keeps (h : HallId) (i : Instr) (tm : VTiming) (s : State) (f : VCore → VCore) :
    resKeeps s (vcReg h i tm s f) := by
  unfold vcReg
  exact vcRun_keeps fun s v b => by simp


@[simp] theorem execCvt8f_keeps (h : HallId) (a : RArgs) (s : State) : resKeeps s (execCvt8f h a s) := by
  unfold execCvt8f vcWiden
  exact vcReg_keeps ..


@[simp] theorem execCvtbf_keeps (h : HallId) (a : RArgs) (s : State) : resKeeps s (execCvtbf h a s) := by
  unfold execCvtbf vcWiden
  exact vcReg_keeps ..


@[simp] theorem execCvtf8_keeps (h : HallId) (a : RArgs) (s : State) : resKeeps s (execCvtf8 h a s) := by
  unfold execCvtf8
  exact vcReg_keeps ..


@[simp] theorem execCvtfb_keeps (h : HallId) (a : RArgs) (s : State) : resKeeps s (execCvtfb h a s) := by
  unfold execCvtfb vcNarrow16
  exact vcReg_keeps ..


@[simp] theorem execCvtfh_keeps (h : HallId) (a : RArgs) (s : State) : resKeeps s (execCvtfh h a s) := by
  unfold execCvtfh vcNarrow16
  exact vcReg_keeps ..


@[simp] theorem execCvtfi_keeps (h : HallId) (a : RArgs) (s : State) : resKeeps s (execCvtfi h a s) := by
  unfold execCvtfi vcLaneC
  exact vcReg_keeps ..


@[simp] theorem execCvthf_keeps (h : HallId) (a : RArgs) (s : State) : resKeeps s (execCvthf h a s) := by
  unfold execCvthf vcWiden
  exact vcReg_keeps ..


@[simp] theorem execCvtif_keeps (h : HallId) (a : RArgs) (s : State) : resKeeps s (execCvtif h a s) := by
  unfold execCvtif vcLane1
  exact vcReg_keeps ..


@[simp] theorem execDesc_keeps (h : HallId) (a : CArgs) (s : State) : resKeeps s (execDesc h a s) := by
  unfold execDesc
  refine vcRun_keeps (fun _ _ _ => ?_)
  try dsimp only
  repeat' (first | (simp; done) | split)


@[simp] theorem execDescReceive_keeps (p : Fin 256) (s : State) : resKeeps s (execDescReceive p s) := by
  unfold execDescReceive
  try dsimp only
  repeat' (first | (simp; done) | refine (foldl_pending _ _ _ fun _ _ => ?_).trans ?_ | refine (foldl_part _ _ _ fun _ _ => ?_).trans ?_ | refine (State.onBeat_pending _ _ _ ?_).trans ?_ | refine (State.onProgram_pending _ _ _ ?_).trans ?_ | refine (State.completeAt_pending _ _ _ _ _ ?_).trans ?_ | refine (State.onBeat_part _ _ _ ?_).trans ?_ | refine (State.onProgram_part _ _ _ ?_).trans ?_ | refine (State.completeAt_part _ _ _ _ _ ?_).trans ?_ | intro _ | split | refine And.intro ?_ ?_ | simp)


@[simp] theorem execDescriptorComplete_keeps (m : Mover) (s : State) : resKeeps s (execDescriptorComplete m s) := by
  unfold execDescriptorComplete
  try dsimp only
  repeat' (first | (simp; done) | refine (foldl_pending _ _ _ fun _ _ => ?_).trans ?_ | refine (foldl_part _ _ _ fun _ _ => ?_).trans ?_ | refine (State.onBeat_pending _ _ _ ?_).trans ?_ | refine (State.onProgram_pending _ _ _ ?_).trans ?_ | refine (State.completeAt_pending _ _ _ _ _ ?_).trans ?_ | refine (State.onBeat_part _ _ _ ?_).trans ?_ | refine (State.onProgram_part _ _ _ ?_).trans ?_ | refine (State.completeAt_part _ _ _ _ _ ?_).trans ?_ | intro _ | split | refine And.intro ?_ ?_ | simp)


@[simp] theorem execDescriptorStart_keeps (p : Fin 256) (s : State) : resKeeps s (execDescriptorStart p s) := by
  unfold execDescriptorStart
  try dsimp only
  repeat' (first | (simp; done) | (refine resKeeps_congr ?_ ?_ (State.startDescriptor_keeps ..)) | refine (foldl_pending _ _ _ fun _ _ => ?_).trans ?_ | refine (foldl_part _ _ _ fun _ _ => ?_).trans ?_ | refine (State.onBeat_pending _ _ _ ?_).trans ?_ | refine (State.onProgram_pending _ _ _ ?_).trans ?_ | refine (State.completeAt_pending _ _ _ _ _ ?_).trans ?_ | refine (State.onBeat_part _ _ _ ?_).trans ?_ | refine (State.onProgram_part _ _ _ ?_).trans ?_ | refine (State.completeAt_part _ _ _ _ _ ?_).trans ?_ | intro _ | split | refine And.intro ?_ ?_ | simp)


@[simp] theorem execDescriptorWaitMet_keeps (p : Fin 256) (s : State) : resKeeps s (execDescriptorWaitMet p s) := by
  unfold execDescriptorWaitMet
  try dsimp only
  repeat' (first | (simp; done) | split)


@[simp] theorem execDictInfo_keeps (a : DictAsk) (s : State) : resKeeps s (execDictInfo a s) := by
  unfold execDictInfo
  try dsimp only
  repeat' (first | (simp; done) | split)


@[simp] theorem execDictRead_keeps (a : DictAsk) (s : State) : resKeeps s (execDictRead a s) := by
  unfold execDictRead
  try dsimp only
  repeat' (first | (simp; done) | split)


@[simp] theorem execDictReservedOpcode_keeps (opcode : BitVec 8) (a : DictAsk) (value : List (BitVec 8)) (s : State) : resKeeps s (execDictReservedOpcode opcode a value s) := by
  unfold execDictReservedOpcode
  try dsimp only
  repeat' (first | (simp; done) | split)


@[simp] theorem execDictWrite_keeps (index : BitVec 16) (sub : BitVec 8) (w : DictWrite) (s : State) : resKeeps s (execDictWrite index sub w s) := by
  unfold execDictWrite
  try dsimp only
  repeat' (first | (simp; done) | split)


@[simp] theorem execDictionaryOpen_keeps (failed : BitVec 192) (s : State) : resKeeps s (execDictionaryOpen failed s) := by
  unfold execDictionaryOpen
  try dsimp only
  repeat' (first | (simp; done) | split)


@[simp] theorem execDieTrip_keeps (temp : BitVec 32) (s : State) : resKeeps s (execDieTrip temp s) := by
  unfold execDieTrip
  try dsimp only
  repeat' (first | (simp; done) | split)


@[simp] theorem execDrainQueueResume_keeps (c : MCoreId) (s : State) : resKeeps s (execDrainQueueResume c s) := by
  unfold execDrainQueueResume
  try dsimp only
  repeat' (first | (simp; done) | refine (foldl_pending _ _ _ fun _ _ => ?_).trans ?_ | refine (foldl_part _ _ _ fun _ _ => ?_).trans ?_ | refine (State.onBeat_pending _ _ _ ?_).trans ?_ | refine (State.onProgram_pending _ _ _ ?_).trans ?_ | refine (State.completeAt_pending _ _ _ _ _ ?_).trans ?_ | refine (State.onBeat_part _ _ _ ?_).trans ?_ | refine (State.onProgram_part _ _ _ ?_).trans ?_ | refine (State.completeAt_part _ _ _ _ _ ?_).trans ?_ | intro _ | split | refine And.intro ?_ ?_ | simp)


@[simp] theorem execEmergencyStep_keeps (temp : BitVec 32) (power : BitVec 32) (s : State) : resKeeps s (execEmergencyStep temp power s) := by
  unfold execEmergencyStep
  try dsimp only
  repeat' (first | (simp; done) | split)


@[simp] theorem execEotharDictRepeat_keeps (s : State) : resKeeps s (execEotharDictRepeat s) := by
  unfold execEotharDictRepeat
  try dsimp only
  repeat' (first | (simp; done) | split)


@[simp] theorem execEvent_keeps (s : State) : resKeeps s (execEvent s) := by
  unfold execEvent
  try dsimp only
  repeat' (first | (simp; done) | split)


@[simp] theorem execExp2_keeps (h : HallId) (a : RArgs) (s : State) : resKeeps s (execExp2 h a s) := by
  unfold execExp2 vcLane1
  exact vcReg_keeps ..


@[simp] theorem execF0LinkDown_keeps (ctrl : Bool) (next : Option F0Init) (s : State) : resKeeps s (execF0LinkDown ctrl next s) := by
  unfold execF0LinkDown
  try dsimp only
  repeat' (first | (simp; done) | split)


@[simp] theorem execFabs_keeps (h : HallId) (a : RArgs) (s : State) : resKeeps s (execFabs h a s) := by
  unfold execFabs vcLane1
  exact vcReg_keeps ..


@[simp] theorem execFadd_keeps (h : HallId) (a : RArgs) (s : State) : resKeeps s (execFadd h a s) := by
  unfold execFadd vcLane2
  exact vcReg_keeps ..


@[simp] theorem execFaultRaise_keeps (found : Found) (s : State) : resKeeps s (execFaultRaise found s) := by
  unfold execFaultRaise
  try dsimp only
  repeat' (first | (simp; done) | split)


@[simp] theorem execFcmp_keeps (h : HallId) (a : RArgs) (s : State) : resKeeps s (execFcmp h a s) := by
  unfold execFcmp
  exact vcReg_keeps ..


@[simp] theorem execFlashReadComplete_keeps (read : Fin 16) (ok : Bool) (data : List (BitVec 8)) (s : State) : resKeeps s (execFlashReadComplete read ok data s) := by
  unfold execFlashReadComplete
  try dsimp only
  repeat' (first | (simp; done) | split)


@[simp] theorem execFlashWriteComplete_keeps (command : Fin 256) (ok : Bool) (s : State) : resKeeps s (execFlashWriteComplete command ok s) := by
  unfold execFlashWriteComplete
  try dsimp only
  repeat' (first | (simp; done) | split)


@[simp] theorem execFlitReceive_keeps (port : PortId) (flit : Flit) (fec : Fec) (frac : BitVec 4) (s : State) : resKeeps s (execFlitReceive port flit fec frac s) := by
  unfold execFlitReceive
  dsimp only
  split
  · simp
  · split
    · simp
    · split
      · simp
      · split
        · simp
        · split
          · simp
          · split
            · simp
            · split
              · simp
              · simp
              · split
                · simp
                · split
                  · next h =>
                    obtain ⟨h5, h6⟩ := resKeeps_of_eq (State.accepted_keeps ..) h
                    simp [h5, h6]
                  · exact resKeeps_congr (by simp) (by simp) (State.accepted_keeps ..)


@[simp] theorem execFlowDeclared_keeps (w : DictWrite) (s : State) : resKeeps s (execFlowDeclared w s) := by
  unfold execFlowDeclared
  try dsimp only
  repeat' (first | (simp; done) | split)


@[simp] theorem execFma_keeps (h : HallId) (a : RArgs) (s : State) : resKeeps s (execFma h a s) := by
  unfold execFma vcLane3
  exact vcReg_keeps ..


@[simp] theorem execFmax_keeps (h : HallId) (a : RArgs) (s : State) : resKeeps s (execFmax h a s) := by
  unfold execFmax vcLane2
  exact vcReg_keeps ..


@[simp] theorem execFmin_keeps (h : HallId) (a : RArgs) (s : State) : resKeeps s (execFmin h a s) := by
  unfold execFmin vcLane2
  exact vcReg_keeps ..


@[simp] theorem execFmul_keeps (h : HallId) (a : RArgs) (s : State) : resKeeps s (execFmul h a s) := by
  unfold execFmul vcLane2
  exact vcReg_keeps ..


@[simp] theorem execFneg_keeps (h : HallId) (a : RArgs) (s : State) : resKeeps s (execFneg h a s) := by
  unfold execFneg vcLane1
  exact vcReg_keeps ..


@[simp] theorem execFnms_keeps (h : HallId) (a : RArgs) (s : State) : resKeeps s (execFnms h a s) := by
  unfold execFnms vcLane3
  exact vcReg_keeps ..


@[simp] theorem execFollowerLaunch_keeps (s : State) : resKeeps s (execFollowerLaunch s) := by
  unfold execFollowerLaunch
  extract_lets p e bs w2 at1 tb s1 w dk l
  have h1 : s1.pending = s.pending := rfl
  have h2 : s1.part = s.part := rfl
  clear_value l dk w s1 at1 w2 tb bs e p
  split
  · exact ⟨rfl, rfl⟩
  · split
    · simp
    · split
      · exact ⟨rfl, rfl⟩
      · split
        · simp
        · split
          · simp
          · split
            · exact ⟨((State.raiseError_keeps ..).1).trans h1, ((State.raiseError_keeps ..).2.1).trans h2⟩
            · exact ⟨h1, h2⟩


@[simp] theorem execForceGuarded_keeps (w : DictWrite) (s : State) : resKeeps s (execForceGuarded w s) := by
  unfold execForceGuarded
  try dsimp only
  repeat' (first | (simp; done) | split)


@[simp] theorem execFredmax_keeps (h : HallId) (a : RArgs) (s : State) : resKeeps s (execFredmax h a s) := by
  unfold execFredmax vcReduce
  exact vcReg_keeps ..


@[simp] theorem execFredmin_keeps (h : HallId) (a : RArgs) (s : State) : resKeeps s (execFredmin h a s) := by
  unfold execFredmin vcReduce
  exact vcReg_keeps ..

@[simp] theorem execFrint_keeps (h : HallId) (a : RArgs) (s : State) : resKeeps s (execFrint h a s) := by
  unfold execFrint vcLane1
  exact vcReg_keeps ..


@[simp] theorem execFscale_keeps (h : HallId) (a : RArgs) (s : State) : resKeeps s (execFscale h a s) := by
  unfold execFscale vcLane2
  exact vcReg_keeps ..


@[simp] theorem execFsub_keeps (h : HallId) (a : RArgs) (s : State) : resKeeps s (execFsub h a s) := by
  unfold execFsub vcLane2
  exact vcReg_keeps ..


@[simp] theorem execFtqEntryVisible_keeps (c : MCoreId) (s : State) : resKeeps s (execFtqEntryVisible c s) := by
  unfold execFtqEntryVisible
  try dsimp only
  repeat' (first | (simp; done) | refine (foldl_pending _ _ _ fun _ _ => ?_).trans ?_ | refine (foldl_part _ _ _ fun _ _ => ?_).trans ?_ | refine (State.onBeat_pending _ _ _ ?_).trans ?_ | refine (State.onProgram_pending _ _ _ ?_).trans ?_ | refine (State.completeAt_pending _ _ _ _ _ ?_).trans ?_ | refine (State.onBeat_part _ _ _ ?_).trans ?_ | refine (State.onProgram_part _ _ _ ?_).trans ?_ | refine (State.completeAt_part _ _ _ _ _ ?_).trans ?_ | intro _ | split | refine And.intro ?_ ?_ | simp)


@[simp] theorem execFuseBlowDebugClose_keeps (w : DictWrite) (s : State) : resKeeps s (execFuseBlowDebugClose w s) := by
  unfold execFuseBlowDebugClose
  try dsimp only
  repeat' (first | (simp; done) | split)


@[simp] theorem execFuseBlowTestClose_keeps (w : DictWrite) (s : State) : resKeeps s (execFuseBlowTestClose w s) := by
  unfold execFuseBlowTestClose
  try dsimp only
  repeat' (first | (simp; done) | split)


theorem execFuseProgrammed_keeps (s : State) : ∀ t, execFuseProgrammed s = .next t → t.pending = s.pending
    ∧ (s.part.debugClose = true → t.part.debugClose = true) ∧ (s.part.testClose = true → t.part.testClose = true) := by
  unfold execFuseProgrammed
  intro t hn
  dsimp only at hn
  repeat' (first | (cases hn; simp_all; done) | split at hn)


@[simp] theorem execGateClasses_keeps (w : DictWrite) (s : State) : resKeeps s (execGateClasses w s) := by
  unfold execGateClasses
  try dsimp only
  repeat' (first | (simp; done) | split)


@[simp] theorem execGateClose_keeps (s : State) : resKeeps s (execGateClose s) := by
  unfold execGateClose
  try dsimp only
  repeat' (first | (simp; done) | split)


@[simp] theorem execGateDrained_keeps (s : State) : resKeeps s (execGateDrained s) := by
  unfold execGateDrained
  try dsimp only
  repeat' (first | (simp; done) | split)


@[simp] theorem execGateOpen_keeps (s : State) : resKeeps s (execGateOpen s) := by
  unfold execGateOpen
  try dsimp only
  repeat' (first | (simp; done) | split)


@[simp] theorem execGateReport_keeps (s : State) : resKeeps s (execGateReport s) := by
  unfold execGateReport
  try dsimp only
  repeat' (first | (simp; done) | split)


@[simp] theorem execGovernorWindow_keeps (m : GovInputs) (s : State) : resKeeps s (execGovernorWindow m s) := by
  unfold execGovernorWindow
  split
  · simp
  · extract_lets d s1 c n full sum p100 steady draw setpoint g r k spent spent' share target want req held off unr short wants s2 s3 s4
    have h1 : s2.pending = s.pending := by
      show s1.pending = s.pending
      simp [s1, d]
    have h2 : s2.part = s.part := by
      show s1.part = s.part
      simp [s1, d]
    clear_value s2
    have h3 : s3.pending = s.pending := by simp only [s3]; split <;> simp [h1]
    have h4 : s3.part = s.part := by simp only [s3]; split <;> simp [h2]
    clear_value s3
    have h5 : s4.pending = s.pending := by simp only [s4]; split <;> simp [h3]
    have h6 : s4.part = s.part := by simp only [s4]; split <;> simp [h4]
    clear_value s4
    simp [h5, h6]


@[simp] theorem execHallsOff_keeps (w : DictWrite) (s : State) : resKeeps s (execHallsOff w s) := by
  unfold execHallsOff
  try dsimp only
  repeat' (first | (simp; done) | split)


@[simp] theorem execHalt_keeps (again : Bool) (s : State) : resKeeps s (execHalt again s) := by
  unfold execHalt
  split
  · simp
  · next h =>
    obtain ⟨h1, h2, _⟩ := State.takeHalt_keeps h
    extract_lets f s2 ig restart s3 s4
    have h3 : s2.pending = s.pending := by simp [s2, h1]
    have h4 : s2.part = s.part := by simp [s2, h2]
    clear_value ig restart
    have h5 : s4.pending = s.pending := by simp only [s4]; split <;> simp [s3, h3]
    have h6 : s4.part = s.part := by simp only [s4]; split <;> simp [s3, h4]
    clear_value s2 s4
    split
    · exact ⟨h1, h2⟩
    · split
      · exact ⟨h3, h4⟩
      · split <;> simp [h5, h6]


@[simp] theorem execHello_keeps (port : PortId) (s : State) : resKeeps s (execHello port s) := by
  unfold execHello
  try dsimp only
  repeat' (first | (simp; done) | split)


@[simp] theorem execHelloReceive_keeps (s : State) : resKeeps s (execHelloReceive s) := by
  unfold execHelloReceive
  split
  · simp
  · extract_lets b p news s1 ok s2 s3
    have h1 : s1.pending = s.pending := rfl
    have h2 : s1.part = s.part := rfl
    have h3 : s2.pending = s1.pending := foldl_pending _ _ _ fun _ _ => rfl
    have h4 : s2.part = s1.part := foldl_part _ _ _ fun _ _ => rfl
    have h5 : s3.pending = s2.pending := by simp [s3]
    have h6 : s3.part = s2.part := by simp [s3]
    clear_value s1 s2 s3 news
    simp only [resKeeps_next]
    split <;> simp [h1, h2, h3, h4, h5, h6]


@[simp] theorem execI3cDynamicAddress_keeps (address : BitVec 7) (s : State) : resKeeps s (execI3cDynamicAddress address s) := by
  unfold execI3cDynamicAddress
  try dsimp only
  repeat' (first | (simp; done) | split)


@[simp] theorem execIabs_keeps (h : HallId) (a : RArgs) (s : State) : resKeeps s (execIabs h a s) := by
  unfold execIabs vcLane1
  exact vcReg_keeps ..


@[simp] theorem execIadd_keeps (h : HallId) (a : RArgs) (s : State) : resKeeps s (execIadd h a s) := by
  unfold execIadd vcInt
  exact vcReg_keeps ..


@[simp] theorem execIadds_keeps (h : HallId) (a : RArgs) (s : State) : resKeeps s (execIadds h a s) := by
  unfold execIadds vcInt
  exact vcReg_keeps ..


@[simp] theorem execIaddu_keeps (h : HallId) (a : RArgs) (s : State) : resKeeps s (execIaddu h a s) := by
  unfold execIaddu vcInt
  exact vcReg_keeps ..


@[simp] theorem execIcmp_keeps (h : HallId) (a : RArgs) (s : State) : resKeeps s (execIcmp h a s) := by
  unfold execIcmp
  exact vcReg_keeps ..


@[simp] theorem execIdentityDerive_keeps (s : State) : resKeeps s (execIdentityDerive s) := by
  unfold execIdentityDerive
  try dsimp only
  repeat' (first | (simp; done) | split)


@[simp] theorem execIdleInsert_keeps (port : PortId) (s : State) : resKeeps s (execIdleInsert port s) := by
  unfold execIdleInsert
  try dsimp only
  repeat' (first | (simp; done) | split)


@[simp] theorem execImax_keeps (h : HallId) (a : RArgs) (s : State) : resKeeps s (execImax h a s) := by
  unfold execImax vcInt
  exact vcReg_keeps ..


@[simp] theorem execImin_keeps (h : HallId) (a : RArgs) (s : State) : resKeeps s (execImin h a s) := by
  unfold execImin vcInt
  exact vcReg_keeps ..


@[simp] theorem execImul_keeps (h : HallId) (a : RArgs) (s : State) : resKeeps s (execImul h a s) := by
  unfold execImul vcInt
  exact vcReg_keeps ..


@[simp] theorem execImulh_keeps (h : HallId) (a : RArgs) (s : State) : resKeeps s (execImulh h a s) := by
  unfold execImulh vcInt
  exact vcReg_keeps ..


@[simp] theorem execInarrow_keeps (h : HallId) (a : RArgs) (s : State) : resKeeps s (execInarrow h a s) := by
  unfold execInarrow
  exact vcReg_keeps ..


@[simp] theorem execInboxRecord_keeps (s : State) : resKeeps s (execInboxRecord s) := by
  unfold execInboxRecord
  try dsimp only
  repeat' (first | (simp; done) | split)


@[simp] theorem execIshl_keeps (h : HallId) (a : RArgs) (s : State) : resKeeps s (execIshl h a s) := by
  unfold execIshl vcInt
  exact vcReg_keeps ..


@[simp] theorem execIshr_keeps (h : HallId) (a : RArgs) (s : State) : resKeeps s (execIshr h a s) := by
  unfold execIshr vcInt
  exact vcReg_keeps ..


@[simp] theorem execIsra_keeps (h : HallId) (a : RArgs) (s : State) : resKeeps s (execIsra h a s) := by
  unfold execIsra vcInt
  exact vcReg_keeps ..


@[simp] theorem execIsub_keeps (h : HallId) (a : RArgs) (s : State) : resKeeps s (execIsub h a s) := by
  unfold execIsub vcInt
  exact vcReg_keeps ..


@[simp] theorem execIsubs_keeps (h : HallId) (a : RArgs) (s : State) : resKeeps s (execIsubs h a s) := by
  unfold execIsubs vcInt
  exact vcReg_keeps ..


@[simp] theorem execIsubu_keeps (h : HallId) (a : RArgs) (s : State) : resKeeps s (execIsubu h a s) := by
  unfold execIsubu vcInt
  exact vcReg_keeps ..


@[simp] theorem execIwiden_keeps (h : HallId) (a : RArgs) (s : State) : resKeeps s (execIwiden h a s) := by
  unfold execIwiden
  exact vcReg_keeps ..


@[simp] theorem execJobFatalStop_keeps (s : State) : resKeeps s (execJobFatalStop s) := by
  unfold execJobFatalStop
  try dsimp only
  repeat' (first | (simp; done) | split)


@[simp] theorem execJobGate_keeps (w : DictWrite) (s : State) : resKeeps s (execJobGate w s) := by
  unfold execJobGate
  try dsimp only
  repeat' (first | (simp; done) | split)


@[simp] theorem execJobStopReceive_keeps (s : State) : resKeeps s (execJobStopReceive s) := by
  unfold execJobStopReceive
  try dsimp only
  repeat' (first | (simp; done) | (obtain ⟨h1, h2, h3, h4, h5, h6, h7, h8⟩ := State.takeHalt_keeps ‹_›; simp_all; done) | refine (foldl_pending _ _ _ fun _ _ => ?_).trans ?_ | refine (foldl_part _ _ _ fun _ _ => ?_).trans ?_ | refine (State.onBeat_pending _ _ _ ?_).trans ?_ | refine (State.onProgram_pending _ _ _ ?_).trans ?_ | refine (State.completeAt_pending _ _ _ _ _ ?_).trans ?_ | refine (State.onBeat_part _ _ _ ?_).trans ?_ | refine (State.onProgram_part _ _ _ ?_).trans ?_ | refine (State.completeAt_part _ _ _ _ _ ?_).trans ?_ | intro _ | split | refine And.intro ?_ ?_ | simp)


@[simp] theorem execKloderFrameReceive_keeps (frame : KloderFrame) (fec : Fec) (s : State) : resKeeps s (execKloderFrameReceive frame fec s) := by
  unfold execKloderFrameReceive
  try dsimp only
  repeat' (first | (simp; done) | split)


@[simp] theorem execKloderGroupLoss_keeps (group : Bool) (s : State) : resKeeps s (execKloderGroupLoss group s) := by
  unfold execKloderGroupLoss
  try dsimp only
  repeat' (first | (simp; done) | split)


@[simp] theorem execKloderInit_keeps (groups : BitVec 2) (body : List (BitVec 8)) (s : State) : resKeeps s (execKloderInit groups body s) := by
  unfold execKloderInit
  try dsimp only
  repeat' (first | (simp; done) | split)


@[simp] theorem execKloderNak_keeps (channel : KloderChannel) (seq : BitVec 32) (s : State) : resKeeps s (execKloderNak channel seq s) := by
  unfold execKloderNak
  try dsimp only
  repeat' (first | (simp; done) | split)


@[simp] theorem execKloderNakRepeat_keeps (channel : KloderChannel) (s : State) : resKeeps s (execKloderNakRepeat channel s) := by
  unfold execKloderNakRepeat
  try dsimp only
  repeat' (first | (simp; done) | split)


@[simp] theorem execKloderReplayTimeout_keeps (channel : KloderChannel) (s : State) : resKeeps s (execKloderReplayTimeout channel s) := by
  unfold execKloderReplayTimeout
  try dsimp only
  repeat' (first | (simp; done) | split)


@[simp] theorem execKloderRetrain_keeps (s : State) : resKeeps s (execKloderRetrain s) := by
  unfold execKloderRetrain
  try dsimp only
  repeat' (first | (simp; done) | split)


@[simp] theorem execLandingDeliver_keeps (s : State) : resKeeps s (execLandingDeliver s) := by
  unfold execLandingDeliver
  try dsimp only
  repeat' (first | (simp; done) | refine (foldl_pending _ _ _ fun _ _ => ?_).trans ?_ | refine (foldl_part _ _ _ fun _ _ => ?_).trans ?_ | refine (State.onBeat_pending _ _ _ ?_).trans ?_ | refine (State.onProgram_pending _ _ _ ?_).trans ?_ | refine (State.completeAt_pending _ _ _ _ _ ?_).trans ?_ | refine (State.onBeat_part _ _ _ ?_).trans ?_ | refine (State.onProgram_part _ _ _ ?_).trans ?_ | refine (State.completeAt_part _ _ _ _ _ ?_).trans ?_ | intro _ | split | refine And.intro ?_ ?_ | simp)


@[simp] theorem execLaneLost_keeps (port : PortId) (lane : Option (BitVec 2)) (s : State) : resKeeps s (execLaneLost port lane s) := by
  unfold execLaneLost
  try dsimp only
  repeat' (first | (simp; done) | split)


@[simp] theorem execLaunch_keeps (s : State) : resKeeps s (execLaunch s) := by
  unfold execLaunch
  try dsimp only
  repeat' (first | (simp; done) | split)


@[simp] theorem execLaunchDecision_keeps (s : State) : resKeeps s (execLaunchDecision s) := by
  unfold execLaunchDecision
  try dsimp only
  repeat' (first | (simp; done) | refine (foldl_pending _ _ _ fun _ _ => ?_).trans ?_ | refine (foldl_part _ _ _ fun _ _ => ?_).trans ?_ | refine (State.onBeat_pending _ _ _ ?_).trans ?_ | refine (State.onProgram_pending _ _ _ ?_).trans ?_ | refine (State.completeAt_pending _ _ _ _ _ ?_).trans ?_ | refine (State.onBeat_part _ _ _ ?_).trans ?_ | refine (State.onProgram_part _ _ _ ?_).trans ?_ | refine (State.completeAt_part _ _ _ _ _ ?_).trans ?_ | intro _ | split | refine And.intro ?_ ?_ | simp)


@[simp] theorem execLld_keeps (h : HallId) (a : MArgs) (s : State) : resKeeps s (execLld h a s) := by
  unfold execLld
  refine vcRun_keeps (fun _ _ _ => ?_)
  try dsimp only
  repeat' (first | (simp; done) | refine (foldl_pending _ _ _ fun _ _ => ?_).trans ?_ | refine (foldl_part _ _ _ fun _ _ => ?_).trans ?_ | refine (State.onBeat_pending _ _ _ ?_).trans ?_ | refine (State.onProgram_pending _ _ _ ?_).trans ?_ | refine (State.completeAt_pending _ _ _ _ _ ?_).trans ?_ | refine (State.onBeat_part _ _ _ ?_).trans ?_ | refine (State.onProgram_part _ _ _ ?_).trans ?_ | refine (State.completeAt_part _ _ _ _ _ ?_).trans ?_ | intro _ | split | refine And.intro ?_ ?_ | simp)


@[simp] theorem execLoad_keeps (fewest : BitVec 8) (reads : StagingReads) (w : DictWrite) (s : State) : resKeeps s (execLoad fewest reads w s) := by
  unfold execLoad
  try dsimp only
  repeat' (first | (simp; done) | split)


@[simp] theorem execLoaderRequestStart_keeps (s : State) : resKeeps s (execLoaderRequestStart s) := by
  unfold execLoaderRequestStart
  try dsimp only
  repeat' (first | (simp; done) | split)


@[simp] theorem execLoaderTargetWrite_keeps (s : State) : resKeeps s (execLoaderTargetWrite s) := by
  unfold execLoaderTargetWrite
  try dsimp only
  repeat' (first | (simp; done) | refine (foldl_pending _ _ _ fun _ _ => ?_).trans ?_ | refine (foldl_part _ _ _ fun _ _ => ?_).trans ?_ | refine (State.onBeat_pending _ _ _ ?_).trans ?_ | refine (State.onProgram_pending _ _ _ ?_).trans ?_ | refine (State.completeAt_pending _ _ _ _ _ ?_).trans ?_ | refine (State.onBeat_part _ _ _ ?_).trans ?_ | refine (State.onProgram_part _ _ _ ?_).trans ?_ | refine (State.completeAt_part _ _ _ _ _ ?_).trans ?_ | intro _ | split | refine And.intro ?_ ?_ | simp)


@[simp] theorem execLog2_keeps (h : HallId) (a : RArgs) (s : State) : resKeeps s (execLog2 h a s) := by
  unfold execLog2 vcLane1
  exact vcReg_keeps ..


@[simp] theorem execLst_keeps (h : HallId) (a : MArgs) (s : State) : resKeeps s (execLst h a s) := by
  unfold execLst
  refine vcRun_keeps (fun _ _ _ => ?_)
  try dsimp only
  repeat' (first | (simp; done) | refine (foldl_pending _ _ _ fun _ _ => ?_).trans ?_ | refine (foldl_part _ _ _ fun _ _ => ?_).trans ?_ | refine (State.onBeat_pending _ _ _ ?_).trans ?_ | refine (State.onProgram_pending _ _ _ ?_).trans ?_ | refine (State.completeAt_pending _ _ _ _ _ ?_).trans ?_ | refine (State.onBeat_part _ _ _ ?_).trans ?_ | refine (State.onProgram_part _ _ _ ?_).trans ?_ | refine (State.completeAt_part _ _ _ _ _ ?_).trans ?_ | intro _ | split | refine And.intro ?_ ?_ | simp)


@[simp] theorem execMark_keeps (h : HallId) (a : CArgs) (s : State) : resKeeps s (execMark h a s) := by
  unfold execMark
  refine vcRun_keeps (fun _ _ _ => ?_)
  try dsimp only
  repeat' (first | (simp; done) | split)


theorem mcRun_keeps {c : MCoreId} {i : Instr} {s : State} {b : Nat} {f : State → MCore → State}
    (hf : ∀ s m, (f s m).pending = s.pending ∧ (f s m).part = s.part) : resKeeps s (mcRun c i s b f) := by
  unfold mcRun
  split
  · split
    · simp [hf]
    · simp
  · simp

@[simp] theorem execMcAcc_keeps (c : MCoreId) (a : AccArgs) (s : State) : resKeeps s (execMcAcc c a s) := by
  unfold execMcAcc
  refine mcRun_keeps (fun _ _ => ?_)
  try dsimp only
  repeat' (first | (simp; done) | split)


@[simp] theorem execMcClear_keeps (c : MCoreId) (bank : BitVec 2) (s : State) : resKeeps s (execMcClear c bank s) := by
  unfold execMcClear
  refine mcRun_keeps (fun _ _ => ?_)
  try dsimp only
  repeat' (first | (simp; done) | split)


@[simp] theorem execMcDrain_keeps (c : MCoreId) (a : DrainArgs) (s : State) : resKeeps s (execMcDrain c a s) := by
  unfold execMcDrain
  refine mcRun_keeps (fun _ _ => ?_)
  try dsimp only
  repeat' (first | (simp; done) | split)


@[simp] theorem execMcEnd_keeps (c : MCoreId) (s : State) : resKeeps s (execMcEnd c s) := by
  unfold execMcEnd
  refine mcRun_keeps (fun _ _ => ?_)
  try dsimp only
  repeat' (first | (simp; done) | split)


@[simp] theorem execMcLoadw_keeps (c : MCoreId) (a : LoadwArgs) (s : State) : resKeeps s (execMcLoadw c a s) := by
  unfold execMcLoadw
  refine mcRun_keeps (fun _ _ => ?_)
  try dsimp only
  repeat' (first | (simp; done) | refine (foldl_pending _ _ _ fun _ _ => ?_).trans ?_ | refine (foldl_part _ _ _ fun _ _ => ?_).trans ?_ | refine (State.onBeat_pending _ _ _ ?_).trans ?_ | refine (State.onProgram_pending _ _ _ ?_).trans ?_ | refine (State.completeAt_pending _ _ _ _ _ ?_).trans ?_ | refine (State.onBeat_part _ _ _ ?_).trans ?_ | refine (State.onProgram_part _ _ _ ?_).trans ?_ | refine (State.completeAt_part _ _ _ _ _ ?_).trans ?_ | intro _ | split | refine And.intro ?_ ?_ | simp)


@[simp] theorem execMcLoop_keeps (c : MCoreId) (a : LoopArgs) (s : State) : resKeeps s (execMcLoop c a s) := by
  unfold execMcLoop
  refine mcRun_keeps (fun _ _ => ?_)
  try dsimp only
  repeat' (first | (simp; done) | split)


@[simp] theorem execMcNop_keeps (c : MCoreId) (s : State) : resKeeps s (execMcNop c s) := by
  unfold execMcNop
  refine mcRun_keeps (fun _ _ => ?_)
  try dsimp only
  repeat' (first | (simp; done) | split)


@[simp] theorem execMcReservedOpcode_keeps (c : MCoreId) (op : BitVec 6) (s : State) : resKeeps s (execMcReservedOpcode c op s) := by
  unfold execMcReservedOpcode
  refine mcRun_keeps (fun _ _ => ?_)
  try dsimp only
  repeat' (first | (simp; done) | split)


@[simp] theorem execMcSeta_keeps (c : MCoreId) (a : SetaArgs) (s : State) : resKeeps s (execMcSeta c a s) := by
  unfold execMcSeta
  refine mcRun_keeps (fun _ _ => ?_)
  try dsimp only
  repeat' (first | (simp; done) | split)


@[simp] theorem execMcSetkeys_keeps (c : MCoreId) (a : SetkeysArgs) (s : State) : resKeeps s (execMcSetkeys c a s) := by
  unfold execMcSetkeys
  refine mcRun_keeps (fun _ _ => ?_)
  try dsimp only
  repeat' (first | (simp; done) | split)


@[simp] theorem execMcSetr_keeps (c : MCoreId) (a : SetrArgs) (s : State) : resKeeps s (execMcSetr c a s) := by
  unfold execMcSetr
  refine mcRun_keeps (fun _ _ => ?_)
  try dsimp only
  repeat' (first | (simp; done) | split)


@[simp] theorem execMcSetw_keeps (c : MCoreId) (a : SetwArgs) (s : State) : resKeeps s (execMcSetw c a s) := by
  unfold execMcSetw
  refine mcRun_keeps (fun _ _ => ?_)
  try dsimp only
  repeat' (first | (simp; done) | split)


@[simp] theorem execMcSignal_keeps (c : MCoreId) (a : MSignalArgs) (s : State) : resKeeps s (execMcSignal c a s) := by
  unfold execMcSignal
  refine mcRun_keeps (fun _ _ => ?_)
  try dsimp only
  repeat' (first | (simp; done) | split)


@[simp] theorem execMcSignalBellChange_keeps (c : MCoreId) (s : State) : resKeeps s (execMcSignalBellChange c s) := by
  unfold execMcSignalBellChange
  try dsimp only
  repeat' (first | (simp; done) | refine (foldl_pending _ _ _ fun _ _ => ?_).trans ?_ | refine (foldl_part _ _ _ fun _ _ => ?_).trans ?_ | refine (State.onBeat_pending _ _ _ ?_).trans ?_ | refine (State.onProgram_pending _ _ _ ?_).trans ?_ | refine (State.completeAt_pending _ _ _ _ _ ?_).trans ?_ | refine (State.onBeat_part _ _ _ ?_).trans ?_ | refine (State.onProgram_part _ _ _ ?_).trans ?_ | refine (State.completeAt_part _ _ _ _ _ ?_).trans ?_ | intro _ | split | refine And.intro ?_ ?_ | simp)


@[simp] theorem execMcStatus_keeps (c : MCoreId) (clrmask : BitVec 8) (s : State) : resKeeps s (execMcStatus c clrmask s) := by
  unfold execMcStatus
  refine mcRun_keeps (fun _ _ => ?_)
  try dsimp only
  repeat' (first | (simp; done) | split)


@[simp] theorem execMcWait_keeps (c : MCoreId) (a : MWaitArgs) (s : State) : resKeeps s (execMcWait c a s) := by
  unfold execMcWait
  refine mcRun_keeps (fun _ _ => ?_)
  try dsimp only
  repeat' (first | (simp; done) | refine (foldl_pending _ _ _ fun _ _ => ?_).trans ?_ | refine (foldl_part _ _ _ fun _ _ => ?_).trans ?_ | refine (State.onBeat_pending _ _ _ ?_).trans ?_ | refine (State.onProgram_pending _ _ _ ?_).trans ?_ | refine (State.completeAt_pending _ _ _ _ _ ?_).trans ?_ | refine (State.onBeat_part _ _ _ ?_).trans ?_ | refine (State.onProgram_part _ _ _ ?_).trans ?_ | refine (State.completeAt_part _ _ _ _ _ ?_).trans ?_ | intro _ | split | refine And.intro ?_ ?_ | simp)


@[simp] theorem execMcWaitResume_keeps (c : MCoreId) (s : State) : resKeeps s (execMcWaitResume c s) := by
  unfold execMcWaitResume
  try dsimp only
  repeat' (first | (simp; done) | split)


@[simp] theorem execMctpControlCommand_keeps (type : BitVec 8) (data : List (BitVec 8)) (s : State) : resKeeps s (execMctpControlCommand type data s) := by
  unfold execMctpControlCommand
  try dsimp only
  repeat' (first | (simp; done) | split)


@[simp] theorem execModuleFatal_keeps (index : BitVec 24) (s : State) : resKeeps s (execModuleFatal index s) := by
  unfold execModuleFatal
  try dsimp only
  repeat' (first | (simp; done) | split)


@[simp] theorem execMxpack_keeps (h : HallId) (a : RArgs) (s : State) : resKeeps s (execMxpack h a s) := by
  unfold execMxpack
  exact vcReg_keeps ..


@[simp] theorem execMxunpk_keeps (h : HallId) (a : RArgs) (s : State) : resKeeps s (execMxunpk h a s) := by
  unfold execMxunpk
  exact vcReg_keeps ..


@[simp] theorem execNak_keeps (port : PortId) (seq : BitVec 10) (s : State) : resKeeps s (execNak port seq s) := by
  unfold execNak
  try dsimp only
  repeat' (first | (simp; done) | split)


@[simp] theorem execNakRepeat_keeps (port : PortId) (s : State) : resKeeps s (execNakRepeat port s) := by
  unfold execNakRepeat
  try dsimp only
  repeat' (first | (simp; done) | split)


@[simp] theorem execOpCeiling_keeps (w : DictWrite) (s : State) : resKeeps s (execOpCeiling w s) := by
  unfold execOpCeiling
  try dsimp only
  repeat' (first | (simp; done) | split)


@[simp] theorem execOpChange_keeps (lowest : BitVec 4) (later : BitVec 32) (s : State) : resKeeps s (execOpChange lowest later s) := by
  unfold execOpChange
  try dsimp only
  repeat' (first | (simp; done) | split)


@[simp] theorem execOutboundSend_keeps (s : State) : resKeeps s (execOutboundSend s) := by
  unfold execOutboundSend
  try dsimp only
  repeat' (first | (simp; done) | split)


@[simp] theorem execPace_keeps (h : HallId) (a : CArgs) (s : State) : resKeeps s (execPace h a s) := by
  unfold execPace
  refine vcRun_keeps (fun _ _ _ => ?_)
  try dsimp only
  repeat' (first | (simp; done) | refine (foldl_pending _ _ _ fun _ _ => ?_).trans ?_ | refine (foldl_part _ _ _ fun _ _ => ?_).trans ?_ | refine (State.onBeat_pending _ _ _ ?_).trans ?_ | refine (State.onProgram_pending _ _ _ ?_).trans ?_ | refine (State.completeAt_pending _ _ _ _ _ ?_).trans ?_ | refine (State.onBeat_part _ _ _ ?_).trans ?_ | refine (State.onProgram_part _ _ _ ?_).trans ?_ | refine (State.completeAt_part _ _ _ _ _ ?_).trans ?_ | intro _ | split | refine And.intro ?_ ?_ | simp)


@[simp] theorem execPaceRelease_keeps (h : HallId) (s : State) : resKeeps s (execPaceRelease h s) := by
  unfold execPaceRelease
  try dsimp only
  repeat' (first | (simp; done) | split)


@[simp] theorem execPacketInject_keeps (m : Mover) (s : State) : resKeeps s (execPacketInject m s) := by
  unfold execPacketInject
  try dsimp only
  repeat' (first | (simp; done) | split)


@[simp] theorem execPacketWrite_keeps (m : Mover) (s : State) : resKeeps s (execPacketWrite m s) := by
  unfold execPacketWrite
  try dsimp only
  repeat' (first | (simp; done) | split)


@[simp] theorem execPand_keeps (h : HallId) (a : RArgs) (s : State) : resKeeps s (execPand h a s) := by
  unfold execPand vcPred
  exact vcReg_keeps ..


@[simp] theorem execPassAlong_keeps (s : State) : resKeeps s (execPassAlong s) := by
  unfold execPassAlong
  split
  · split <;> simp
  · split
    · simp
    · split <;> simp


@[simp] theorem execPcieInboundRequest_keeps (req : PcieRequest) (s : State) : resKeeps s (execPcieInboundRequest req s) := by
  unfold execPcieInboundRequest
  try dsimp only
  repeat' (first | (simp; done) | split)


@[simp] theorem execPcnt_keeps (h : HallId) (a : RArgs) (s : State) : resKeeps s (execPcnt h a s) := by
  unfold execPcnt
  exact vcReg_keeps ..


@[simp] theorem execPfirst_keeps (h : HallId) (a : RArgs) (s : State) : resKeeps s (execPfirst h a s) := by
  unfold execPfirst
  exact vcReg_keeps ..


@[simp] theorem execPnot_keeps (h : HallId) (a : RArgs) (s : State) : resKeeps s (execPnot h a s) := by
  unfold execPnot vcPred
  exact vcReg_keeps ..


@[simp] theorem execPor_keeps (h : HallId) (a : RArgs) (s : State) : resKeeps s (execPor h a s) := by
  unfold execPor vcPred
  exact vcReg_keeps ..


@[simp] theorem execPortDown_keeps (port : PortId) (s : State) : resKeeps s (execPortDown port s) := by
  unfold execPortDown
  try dsimp only
  repeat' (first | (simp; done) | split)


@[simp] theorem execPortTrain_keeps (port : PortId) (init : Option InitInfo) (s : State) : resKeeps s (execPortTrain port init s) := by
  unfold execPortTrain
  try dsimp only
  repeat' (first | (simp; done) | split)


@[simp] theorem execPorterSignal_keeps (m : Mover) (s : State) : resKeeps s (execPorterSignal m s) := by
  unfold execPorterSignal
  try dsimp only
  repeat' (first | (simp; done) | refine (foldl_pending _ _ _ fun _ _ => ?_).trans ?_ | refine (foldl_part _ _ _ fun _ _ => ?_).trans ?_ | refine (State.onBeat_pending _ _ _ ?_).trans ?_ | refine (State.onProgram_pending _ _ _ ?_).trans ?_ | refine (State.completeAt_pending _ _ _ _ _ ?_).trans ?_ | refine (State.onBeat_part _ _ _ ?_).trans ?_ | refine (State.onProgram_part _ _ _ ?_).trans ?_ | refine (State.completeAt_part _ _ _ _ _ ?_).trans ?_ | intro _ | split | refine And.intro ?_ ?_ | simp)


@[simp] theorem execPorterSourceAccess_keeps (m : Mover) (s : State) : resKeeps s (execPorterSourceAccess m s) := by
  unfold execPorterSourceAccess
  try dsimp only
  repeat' (first | (simp; done) | refine (foldl_pending _ _ _ fun _ _ => ?_).trans ?_ | refine (foldl_part _ _ _ fun _ _ => ?_).trans ?_ | refine (State.onBeat_pending _ _ _ ?_).trans ?_ | refine (State.onProgram_pending _ _ _ ?_).trans ?_ | refine (State.completeAt_pending _ _ _ _ _ ?_).trans ?_ | refine (State.onBeat_part _ _ _ ?_).trans ?_ | refine (State.onProgram_part _ _ _ ?_).trans ?_ | refine (State.completeAt_part _ _ _ _ _ ?_).trans ?_ | intro _ | split | refine And.intro ?_ ?_ | simp)


@[simp] theorem execPostArrival_keeps (post : Fin 18432) (s : State) : resKeeps s (execPostArrival post s) := by
  unfold execPostArrival
  try dsimp only
  repeat' (first | (simp; done) | split)


@[simp] theorem execPostDiscardHead_keeps (w : DictWrite) (s : State) : resKeeps s (execPostDiscardHead w s) := by
  unfold execPostDiscardHead
  try dsimp only
  repeat' (first | (simp; done) | refine (State.serveWrite_pending _ _ _ _ _ _ _ fun _ _ => ?_).trans ?_ | refine (State.serveWrite_part _ _ _ _ _ _ _ fun _ _ => ?_).trans ?_ | refine (State.serveDesk_pending _ _ _ _ _ _ _ fun _ _ => ?_).trans ?_ | refine (State.serveDesk_part _ _ _ _ _ _ _ fun _ _ => ?_).trans ?_ | refine (foldl_pending _ _ _ fun _ _ => ?_).trans ?_ | refine (foldl_part _ _ _ fun _ _ => ?_).trans ?_ | refine (State.onBeat_pending _ _ _ ?_).trans ?_ | refine (State.onProgram_pending _ _ _ ?_).trans ?_ | refine (State.completeAt_pending _ _ _ _ _ ?_).trans ?_ | refine (State.onBeat_part _ _ _ ?_).trans ?_ | refine (State.onProgram_part _ _ _ ?_).trans ?_ | refine (State.completeAt_part _ _ _ _ _ ?_).trans ?_ | intro _ | split | refine And.intro ?_ ?_ | simp)


@[simp] theorem execPostInputAccept_keeps (post : Fin 18432) (s : State) : resKeeps s (execPostInputAccept post s) := by
  unfold execPostInputAccept
  try dsimp only
  repeat' (first | (simp; done) | split)


@[simp] theorem execPostOutcome_keeps (stage : Fin 193) (s : State) : resKeeps s (execPostOutcome stage s) := by
  unfold execPostOutcome
  try dsimp only
  repeat' (first | (simp; done) | split)


@[simp] theorem execPowerLimitW_keeps (w : DictWrite) (s : State) : resKeeps s (execPowerLimitW w s) := by
  unfold execPowerLimitW
  try dsimp only
  repeat' (first | (simp; done) | split)


@[simp] theorem execPowerMode_keeps (w : DictWrite) (s : State) : resKeeps s (execPowerMode w s) := by
  unfold execPowerMode
  try dsimp only
  repeat' (first | (simp; done) | split)


@[simp] theorem execPowerOnResetRelease_keeps (good : PowerGood) (s : State) : resKeeps s (execPowerOnResetRelease good s) := by
  unfold execPowerOnResetRelease
  try dsimp only
  repeat' (first | (simp; done) | split)


@[simp] theorem execPrecv_keeps (h : HallId) (a : CArgs) (s : State) : resKeeps s (execPrecv h a s) := by
  unfold execPrecv
  refine vcRun_keeps (fun _ _ _ => ?_)
  try dsimp only
  repeat' (first | (simp; done) | split)


@[simp] theorem execPrecvResume_keeps (h : HallId) (s : State) : resKeeps s (execPrecvResume h s) := by
  unfold execPrecvResume
  try dsimp only
  repeat' (first | (simp; done) | split)


@[simp] theorem execProgramKey_keeps (w : DictWrite) (s : State) : resKeeps s (execProgramKey w s) := by
  unfold execProgramKey
  try dsimp only
  repeat' (first | (simp; done) | split)


@[simp] theorem execProgramStart_keeps (start : BitVec 64) (reports : List MemberReport) (s : State) : resKeeps s (execProgramStart start reports s) := by
  unfold execProgramStart
  try dsimp only
  repeat' (first | (simp; done) | split)


@[simp] theorem execPsend_keeps (h : HallId) (a : CArgs) (s : State) : resKeeps s (execPsend h a s) := by
  unfold execPsend
  refine vcRun_keeps (fun _ _ _ => ?_)
  try dsimp only
  repeat' (first | (simp; done) | split)


@[simp] theorem execPxor_keeps (h : HallId) (a : RArgs) (s : State) : resKeeps s (execPxor h a s) := by
  unfold execPxor vcPred
  exact vcReg_keeps ..


@[simp] theorem execRcp_keeps (h : HallId) (a : RArgs) (s : State) : resKeeps s (execRcp h a s) := by
  unfold execRcp vcLane1
  exact vcReg_keeps ..


@[simp] theorem execReaderReset_keeps (h : HallId) (s : State) : resKeeps s (execReaderReset h s) := by
  unfold execReaderReset
  try dsimp only
  repeat' (first | (simp; done) | split)


@[simp] theorem execReckonerColumnDone_keeps (tower : Fin 4) (s : State) : resKeeps s (execReckonerColumnDone tower s) := by
  unfold execReckonerColumnDone
  try dsimp only
  repeat' (first | (simp; done) | refine (foldl_pending _ _ _ fun _ _ => ?_).trans ?_ | refine (foldl_part _ _ _ fun _ _ => ?_).trans ?_ | refine (State.onBeat_pending _ _ _ ?_).trans ?_ | refine (State.onProgram_pending _ _ _ ?_).trans ?_ | refine (State.completeAt_pending _ _ _ _ _ ?_).trans ?_ | refine (State.onBeat_part _ _ _ ?_).trans ?_ | refine (State.onProgram_part _ _ _ ?_).trans ?_ | refine (State.completeAt_part _ _ _ _ _ ?_).trans ?_ | intro _ | split | refine And.intro ?_ ?_ | simp)


@[simp] theorem execReckonerStart_keeps (tower : Fin 4) (s : State) : resKeeps s (execReckonerStart tower s) := by
  unfold execReckonerStart
  try dsimp only
  repeat' (first | (simp; done) | split)


@[simp] theorem execReferenceLost_keeps (s : State) : resKeeps s (execReferenceLost s) := by
  unfold execReferenceLost
  try dsimp only
  repeat' (first | (simp; done) | split)


@[simp] theorem execRefreshWindow_keeps (stack : Fin 24) (corrected : BitVec 16) (bad : BitVec 16) (s : State) : resKeeps s (execRefreshWindow stack corrected bad s) := by
  unfold execRefreshWindow
  try dsimp only
  repeat' (first | (simp; done) | split)

@[simp] theorem execRefusalReinject_keeps (stage : Fin 193) (s : State) : resKeeps s (execRefusalReinject stage s) := by
  unfold execRefusalReinject
  try dsimp only
  repeat' (first | (simp; done) | split)


@[simp] theorem execReplayTimeout_keeps (port : PortId) (s : State) : resKeeps s (execReplayTimeout port s) := by
  unfold execReplayTimeout
  try dsimp only
  repeat' (first | (simp; done) | split)


@[simp] theorem execReqReinject_keeps (p : Fin 256) (s : State) : resKeeps s (execReqReinject p s) := by
  unfold execReqReinject
  try dsimp only
  repeat' (first | (simp; done) | refine (foldl_pending _ _ _ fun _ _ => ?_).trans ?_ | refine (foldl_part _ _ _ fun _ _ => ?_).trans ?_ | refine (State.onBeat_pending _ _ _ ?_).trans ?_ | refine (State.onProgram_pending _ _ _ ?_).trans ?_ | refine (State.completeAt_pending _ _ _ _ _ ?_).trans ?_ | refine (State.onBeat_part _ _ _ ?_).trans ?_ | refine (State.onProgram_part _ _ _ ?_).trans ?_ | refine (State.completeAt_part _ _ _ _ _ ?_).trans ?_ | intro _ | split | refine And.intro ?_ ?_ | simp)


@[simp] theorem execRetryDefeated_keeps (port : PortId) (realigned : Bool) (s : State) : resKeeps s (execRetryDefeated port realigned s) := by
  unfold execRetryDefeated
  try dsimp only
  repeat' (first | (simp; done) | split)


@[simp] theorem execRewindResume_keeps (s : State) : resKeeps s (execRewindResume s) := by
  unfold execRewindResume
  try dsimp only
  repeat' (first | (simp; done) | split)


@[simp] theorem execRsqrt_keeps (h : HallId) (a : RArgs) (s : State) : resKeeps s (execRsqrt h a s) := by
  unfold execRsqrt vcLane1
  exact vcReg_keeps ..


@[simp] theorem execSadd_keeps (h : HallId) (a : SArgs) (s : State) : resKeeps s (execSadd h a s) := by
  unfold execSadd
  exact vcReg_keeps ..


@[simp] theorem execSand_keeps (h : HallId) (a : SArgs) (s : State) : resKeeps s (execSand h a s) := by
  unfold execSand
  exact vcReg_keeps ..


@[simp] theorem execSetpointW_keeps (w : DictWrite) (s : State) : resKeeps s (execSetpointW w s) := by
  unfold execSetpointW
  try dsimp only
  repeat' (first | (simp; done) | split)


@[simp] theorem execShapeEntryResume_keeps (vector : Bool) (c : MCoreId) (s : State) : resKeeps s (execShapeEntryResume vector c s) := by
  unfold execShapeEntryResume
  try dsimp only
  repeat' (first | (simp; done) | split)


@[simp] theorem execShardLanded_keeps (s : State) : resKeeps s (execShardLanded s) := by
  unfold execShardLanded
  try dsimp only
  repeat' (first | (simp; done) | split)


@[simp] theorem execShardRequest_keeps (image : Option PeerImage) (s : State) : resKeeps s (execShardRequest image s) := by
  unfold execShardRequest
  try dsimp only
  repeat' (first | (simp; done) | split)


@[simp] theorem execShardTimeout_keeps (s : State) : resKeeps s (execShardTimeout s) := by
  unfold execShardTimeout
  try dsimp only
  repeat' (first | (simp; done) | split)


@[simp] theorem execSigm_keeps (h : HallId) (a : RArgs) (s : State) : resKeeps s (execSigm h a s) := by
  unfold execSigm vcLane1
  exact vcReg_keeps ..


@[simp] theorem execSignpost_keeps (entry : Fin 4096) (w : DictWrite) (s : State) : resKeeps s (execSignpost entry w s) := by
  unfold execSignpost
  try dsimp only
  repeat' (first | (simp; done) | split)


@[simp] theorem execSld_keeps (h : HallId) (a : MArgs) (s : State) : resKeeps s (execSld h a s) := by
  unfold execSld
  refine vcRun_keeps (fun _ _ _ => ?_)
  try dsimp only
  repeat' (first | (simp; done) | split)


@[simp] theorem execSli_keeps (h : HallId) (a : SArgs) (s : State) : resKeeps s (execSli h a s) := by
  unfold execSli
  exact vcReg_keeps ..


@[simp] theorem execSlih_keeps (h : HallId) (a : SArgs) (s : State) : resKeeps s (execSlih h a s) := by
  unfold execSlih
  exact vcReg_keeps ..


@[simp] theorem execSmul_keeps (h : HallId) (a : SArgs) (s : State) : resKeeps s (execSmul h a s) := by
  unfold execSmul
  exact vcReg_keeps ..


@[simp] theorem execSor_keeps (h : HallId) (a : SArgs) (s : State) : resKeeps s (execSor h a s) := by
  unfold execSor
  exact vcReg_keeps ..


@[simp] theorem execSpareRelock_keeps (port : PortId) (locked : Bool) (s : State) : resKeeps s (execSpareRelock port locked s) := by
  unfold execSpareRelock
  try dsimp only
  repeat' (first | (simp; done) | refine (foldl_pending _ _ _ fun _ _ => ?_).trans ?_ | refine (foldl_part _ _ _ fun _ _ => ?_).trans ?_ | refine (State.onBeat_pending _ _ _ ?_).trans ?_ | refine (State.onProgram_pending _ _ _ ?_).trans ?_ | refine (State.completeAt_pending _ _ _ _ _ ?_).trans ?_ | refine (State.onBeat_part _ _ _ ?_).trans ?_ | refine (State.onProgram_part _ _ _ ?_).trans ?_ | refine (State.completeAt_part _ _ _ _ _ ?_).trans ?_ | intro _ | split | refine And.intro ?_ ?_ | simp)


@[simp] theorem execSshl_keeps (h : HallId) (a : SArgs) (s : State) : resKeeps s (execSshl h a s) := by
  unfold execSshl
  exact vcReg_keeps ..


@[simp] theorem execSshr_keeps (h : HallId) (a : SArgs) (s : State) : resKeeps s (execSshr h a s) := by
  unfold execSshr
  exact vcReg_keeps ..


@[simp] theorem execSsra_keeps (h : HallId) (a : SArgs) (s : State) : resKeeps s (execSsra h a s) := by
  unfold execSsra
  exact vcReg_keeps ..


@[simp] theorem execSst_keeps (h : HallId) (a : MArgs) (s : State) : resKeeps s (execSst h a s) := by
  unfold execSst
  refine vcRun_keeps (fun _ _ _ => ?_)
  try dsimp only
  repeat' (first | (simp; done) | split)


@[simp] theorem execSsub_keeps (h : HallId) (a : SArgs) (s : State) : resKeeps s (execSsub h a s) := by
  unfold execSsub
  exact vcReg_keeps ..


@[simp] theorem execStackHot_keeps (stack : Fin 24) (temp : BitVec 32) (s : State) : resKeeps s (execStackHot stack temp s) := by
  unfold execStackHot
  try dsimp only
  repeat' (first | (simp; done) | split)


@[simp] theorem execStackLimit_keeps (stack : Fin 24) (temp : BitVec 32) (s : State) : resKeeps s (execStackLimit stack temp s) := by
  unfold execStackLimit
  try dsimp only
  repeat' (first | (simp; done) | split)


@[simp] theorem execStageInject_keeps (stage : Fin 193) (s : State) : resKeeps s (execStageInject stage s) := by
  unfold execStageInject
  try dsimp only
  repeat' (first | (simp; done) | split)


@[simp] theorem execStepBoundary_keeps (s : State) : resKeeps s (execStepBoundary s) := by
  unfold execStepBoundary
  try dsimp only
  repeat' (first | (simp; done) | refine (foldl_pending _ _ _ fun _ _ => ?_).trans ?_ | refine (foldl_part _ _ _ fun _ _ => ?_).trans ?_ | refine (State.onBeat_pending _ _ _ ?_).trans ?_ | refine (State.onProgram_pending _ _ _ ?_).trans ?_ | refine (State.completeAt_pending _ _ _ _ _ ?_).trans ?_ | refine (State.onBeat_part _ _ _ ?_).trans ?_ | refine (State.onProgram_part _ _ _ ?_).trans ?_ | refine (State.completeAt_part _ _ _ _ _ ?_).trans ?_ | intro _ | split | refine And.intro ?_ ?_ | simp)


@[simp] theorem execStewardMgtTake_keeps (port : PortId) (s : State) : resKeeps s (execStewardMgtTake port s) := by
  unfold execStewardMgtTake
  try dsimp only
  repeat' (first | (simp; done) | split)


@[simp] theorem execStretchEnd_keeps (region : Fin 144) (codes : BitVec 32) (s : State) : resKeeps s (execStretchEnd region codes s) := by
  unfold execStretchEnd
  try dsimp only
  repeat' (first | (simp; done) | split)


@[simp] theorem execStretchStart_keeps (region : Fin 144) (codes : BitVec 32) (s : State) : resKeeps s (execStretchStart region codes s) := by
  unfold execStretchStart
  try dsimp only
  repeat' (first | (simp; done) | split)


@[simp] theorem execSwap_keeps (port : PortId) (lane : BitVec 2) (s : State) : resKeeps s (execSwap port lane s) := by
  unfold execSwap
  try dsimp only
  repeat' (first | (simp; done) | split)


@[simp] theorem execSwapAck_keeps (port : PortId) (lane : BitVec 2) (s : State) : resKeeps s (execSwapAck port lane s) := by
  unfold execSwapAck
  try dsimp only
  repeat' (first | (simp; done) | split)


@[simp] theorem execSwapRequest_keeps (w : DictWrite) (s : State) : resKeeps s (execSwapRequest w s) := by
  unfold execSwapRequest
  try dsimp only
  repeat' (first | (simp; done) | refine (State.serveWrite_pending _ _ _ _ _ _ _ fun _ _ => ?_).trans ?_ | refine (State.serveWrite_part _ _ _ _ _ _ _ fun _ _ => ?_).trans ?_ | refine (State.serveDesk_pending _ _ _ _ _ _ _ fun _ _ => ?_).trans ?_ | refine (State.serveDesk_part _ _ _ _ _ _ _ fun _ _ => ?_).trans ?_ | refine (foldl_pending _ _ _ fun _ _ => ?_).trans ?_ | refine (foldl_part _ _ _ fun _ _ => ?_).trans ?_ | refine (State.onBeat_pending _ _ _ ?_).trans ?_ | refine (State.onProgram_pending _ _ _ ?_).trans ?_ | refine (State.completeAt_pending _ _ _ _ _ ?_).trans ?_ | refine (State.onBeat_part _ _ _ ?_).trans ?_ | refine (State.onProgram_part _ _ _ ?_).trans ?_ | refine (State.completeAt_part _ _ _ _ _ ?_).trans ?_ | intro _ | split | refine And.intro ?_ ?_ | simp)


@[simp] theorem execSwitch_keeps (w : DictWrite) (s : State) : resKeeps s (execSwitch w s) := by
  unfold execSwitch
  try dsimp only
  repeat' (first | (simp; done) | refine (State.serveWrite_pending _ _ _ _ _ _ _ fun _ _ => ?_).trans ?_ | refine (State.serveWrite_part _ _ _ _ _ _ _ fun _ _ => ?_).trans ?_ | refine (State.serveDesk_pending _ _ _ _ _ _ _ fun _ _ => ?_).trans ?_ | refine (State.serveDesk_part _ _ _ _ _ _ _ fun _ _ => ?_).trans ?_ | refine (foldl_pending _ _ _ fun _ _ => ?_).trans ?_ | refine (foldl_part _ _ _ fun _ _ => ?_).trans ?_ | refine (State.onBeat_pending _ _ _ ?_).trans ?_ | refine (State.onProgram_pending _ _ _ ?_).trans ?_ | refine (State.completeAt_pending _ _ _ _ _ ?_).trans ?_ | refine (State.onBeat_part _ _ _ ?_).trans ?_ | refine (State.onProgram_part _ _ _ ?_).trans ?_ | refine (State.completeAt_part _ _ _ _ _ ?_).trans ?_ | intro _ | split | refine And.intro ?_ ?_ | simp)


@[simp] theorem execSxor_keeps (h : HallId) (a : SArgs) (s : State) : resKeeps s (execSxor h a s) := by
  unfold execSxor
  exact vcReg_keeps ..


@[simp] theorem execTanh_keeps (h : HallId) (a : RArgs) (s : State) : resKeeps s (execTanh h a s) := by
  unfold execTanh vcLane1
  exact vcReg_keeps ..


@[simp] theorem execTimeLock_keeps (w : DictWrite) (s : State) : resKeeps s (execTimeLock w s) := by
  unfold execTimeLock
  try dsimp only
  repeat' (first | (simp; done) | refine (State.serveWrite_pending _ _ _ _ _ _ _ fun _ _ => ?_).trans ?_ | refine (State.serveWrite_part _ _ _ _ _ _ _ fun _ _ => ?_).trans ?_ | refine (State.serveDesk_pending _ _ _ _ _ _ _ fun _ _ => ?_).trans ?_ | refine (State.serveDesk_part _ _ _ _ _ _ _ fun _ _ => ?_).trans ?_ | refine (foldl_pending _ _ _ fun _ _ => ?_).trans ?_ | refine (foldl_part _ _ _ fun _ _ => ?_).trans ?_ | refine (State.onBeat_pending _ _ _ ?_).trans ?_ | refine (State.onProgram_pending _ _ _ ?_).trans ?_ | refine (State.completeAt_pending _ _ _ _ _ ?_).trans ?_ | refine (State.onBeat_part _ _ _ ?_).trans ?_ | refine (State.onProgram_part _ _ _ ?_).trans ?_ | refine (State.completeAt_part _ _ _ _ _ ?_).trans ?_ | intro _ | split | refine And.intro ?_ ?_ | simp)


@[simp] theorem execTimeRequest_keeps (frac : BitVec 4) (s : State) : resKeeps s (execTimeRequest frac s) := by
  unfold execTimeRequest
  try dsimp only
  repeat' (first | (simp; done) | split)


@[simp] theorem execTimeResponse_keeps (frac : BitVec 4) (s : State) : resKeeps s (execTimeResponse frac s) := by
  unfold execTimeResponse
  try dsimp only
  repeat' (first | (simp; done) | split)


@[simp] theorem execTimeResponseReceive_keeps (s : State) : resKeeps s (execTimeResponseReceive s) := by
  unfold execTimeResponseReceive
  try dsimp only
  repeat' (first | (simp; done) | split)


@[simp] theorem execTimeResync_keeps (frac : BitVec 4) (s : State) : resKeeps s (execTimeResync frac s) := by
  unfold execTimeResync
  try dsimp only
  repeat' (first | (simp; done) | split)


@[simp] theorem execTimeStep_keeps (s : State) : resKeeps s (execTimeStep s) := by
  unfold execTimeStep
  try dsimp only
  repeat' (first | (simp; done) | split)


@[simp] theorem execTld_keeps (h : HallId) (a : MArgs) (s : State) : resKeeps s (execTld h a s) := by
  unfold execTld
  refine vcRun_keeps (fun _ _ _ => ?_)
  try dsimp only
  repeat' (first | (simp; done) | split)


@[simp] theorem execTrel_keeps (h : HallId) (a : CArgs) (s : State) : resKeeps s (execTrel h a s) := by
  unfold execTrel
  refine vcRun_keeps (fun _ _ _ => ?_)
  try dsimp only
  repeat' (first | (simp; done) | split)


@[simp] theorem execTwait_keeps (h : HallId) (a : CArgs) (s : State) : resKeeps s (execTwait h a s) := by
  unfold execTwait
  refine vcRun_keeps (fun _ _ _ => ?_)
  try dsimp only
  repeat' (first | (simp; done) | split)


@[simp] theorem execTwaitResume_keeps (h : HallId) (s : State) : resKeeps s (execTwaitResume h s) := by
  unfold execTwaitResume
  try dsimp only
  repeat' (first | (simp; done) | split)


@[simp] theorem execUnload_keeps (w : DictWrite) (s : State) : resKeeps s (execUnload w s) := by
  unfold execUnload
  try dsimp only
  repeat' (first | (simp; done) | refine (State.serveWrite_pending _ _ _ _ _ _ _ fun _ _ => ?_).trans ?_ | refine (State.serveWrite_part _ _ _ _ _ _ _ fun _ _ => ?_).trans ?_ | refine (State.serveDesk_pending _ _ _ _ _ _ _ fun _ _ => ?_).trans ?_ | refine (State.serveDesk_part _ _ _ _ _ _ _ fun _ _ => ?_).trans ?_ | refine (foldl_pending _ _ _ fun _ _ => ?_).trans ?_ | refine (foldl_part _ _ _ fun _ _ => ?_).trans ?_ | refine (State.onBeat_pending _ _ _ ?_).trans ?_ | refine (State.onProgram_pending _ _ _ ?_).trans ?_ | refine (State.completeAt_pending _ _ _ _ _ ?_).trans ?_ | refine (State.onBeat_part _ _ _ ?_).trans ?_ | refine (State.onProgram_part _ _ _ ?_).trans ?_ | refine (State.completeAt_part _ _ _ _ _ ?_).trans ?_ | intro _ | split | refine And.intro ?_ ?_ | simp)


@[simp] theorem execUnloadDone_keeps (s : State) : resKeeps s (execUnloadDone s) := by
  unfold execUnloadDone
  try dsimp only
  repeat' (first | (simp; done) | split)


@[simp] theorem execVand_keeps (h : HallId) (a : RArgs) (s : State) : resKeeps s (execVand h a s) := by
  unfold execVand vcLane2
  exact vcReg_keeps ..


@[simp] theorem execVbcs_keeps (h : HallId) (a : RArgs) (s : State) : resKeeps s (execVbcs h a s) := by
  unfold execVbcs
  exact vcReg_keeps ..


@[simp] theorem execVcEnd_keeps (h : HallId) (s : State) : resKeeps s (execVcEnd h s) := by
  unfold execVcEnd
  refine vcRun_keeps (fun _ _ _ => ?_)
  try dsimp only
  repeat' (first | (simp; done) | split)


@[simp] theorem execVcNop_keeps (h : HallId) (s : State) : resKeeps s (execVcNop h s) := by
  unfold execVcNop
  exact vcReg_keeps ..


@[simp] theorem execVcReservedOpcode_keeps (h : HallId) (op : BitVec 8) (s : State) : resKeeps s (execVcReservedOpcode h op s) := by
  unfold execVcReservedOpcode
  exact vcReg_keeps ..


@[simp] theorem execVcSignal_keeps (h : HallId) (a : CArgs) (s : State) : resKeeps s (execVcSignal h a s) := by
  unfold execVcSignal
  refine vcRun_keeps (fun _ _ _ => ?_)
  try dsimp only
  repeat' (first | (simp; done) | split)


@[simp] theorem execVcSignalBellChange_keeps (h : HallId) (s : State) : resKeeps s (execVcSignalBellChange h s) := by
  unfold execVcSignalBellChange
  try dsimp only
  repeat' (first | (simp; done) | refine (foldl_pending _ _ _ fun _ _ => ?_).trans ?_ | refine (foldl_part _ _ _ fun _ _ => ?_).trans ?_ | refine (State.onBeat_pending _ _ _ ?_).trans ?_ | refine (State.onProgram_pending _ _ _ ?_).trans ?_ | refine (State.completeAt_pending _ _ _ _ _ ?_).trans ?_ | refine (State.onBeat_part _ _ _ ?_).trans ?_ | refine (State.onProgram_part _ _ _ ?_).trans ?_ | refine (State.completeAt_part _ _ _ _ _ ?_).trans ?_ | intro _ | split | refine And.intro ?_ ?_ | simp)


@[simp] theorem execVcStatus_keeps (h : HallId) (a : CArgs) (s : State) : resKeeps s (execVcStatus h a s) := by
  unfold execVcStatus
  exact vcReg_keeps ..


@[simp] theorem execVcWait_keeps (h : HallId) (a : CArgs) (s : State) : resKeeps s (execVcWait h a s) := by
  unfold execVcWait
  refine vcRun_keeps (fun _ _ _ => ?_)
  try dsimp only
  repeat' (first | (simp; done) | split)

@[simp] theorem execVcWaitResume_keeps (h : HallId) (s : State) : resKeeps s (execVcWaitResume h s) := by
  unfold execVcWaitResume
  try dsimp only
  repeat' (first | (simp; done) | split)


@[simp] theorem execViota_keeps (h : HallId) (a : RArgs) (s : State) : resKeeps s (execViota h a s) := by
  unfold execViota
  exact vcReg_keeps ..


@[simp] theorem execVld_keeps (h : HallId) (a : MArgs) (s : State) : resKeeps s (execVld h a s) := by
  unfold execVld
  refine vcRun_keeps (fun _ _ _ => ?_)
  try dsimp only
  repeat' (first | (simp; done) | split)


@[simp] theorem execVli_keeps (h : HallId) (a : IArgs) (s : State) : resKeeps s (execVli h a s) := by
  unfold execVli
  exact vcReg_keeps ..


@[simp] theorem execVmov_keeps (h : HallId) (a : RArgs) (s : State) : resKeeps s (execVmov h a s) := by
  unfold execVmov vcLane1
  exact vcReg_keeps ..


@[simp] theorem execVnot_keeps (h : HallId) (a : RArgs) (s : State) : resKeeps s (execVnot h a s) := by
  unfold execVnot vcLane1
  exact vcReg_keeps ..


@[simp] theorem execVor_keeps (h : HallId) (a : RArgs) (s : State) : resKeeps s (execVor h a s) := by
  unfold execVor vcLane2
  exact vcReg_keeps ..


@[simp] theorem execVperm_keeps (h : HallId) (a : RArgs) (s : State) : resKeeps s (execVperm h a s) := by
  unfold execVperm
  exact vcReg_keeps ..


@[simp] theorem execVsel_keeps (h : HallId) (a : RArgs) (s : State) : resKeeps s (execVsel h a s) := by
  unfold execVsel
  exact vcReg_keeps ..


@[simp] theorem execVsetl_keeps (h : HallId) (a : RArgs) (s : State) : resKeeps s (execVsetl h a s) := by
  unfold execVsetl
  exact vcReg_keeps ..


@[simp] theorem execVst_keeps (h : HallId) (a : MArgs) (s : State) : resKeeps s (execVst h a s) := by
  unfold execVst
  refine vcRun_keeps (fun _ _ _ => ?_)
  try dsimp only
  repeat' (first | (simp; done) | split)


@[simp] theorem execVtos_keeps (h : HallId) (a : RArgs) (s : State) : resKeeps s (execVtos h a s) := by
  unfold execVtos
  exact vcReg_keeps ..


@[simp] theorem execVxor_keeps (h : HallId) (a : RArgs) (s : State) : resKeeps s (execVxor h a s) := by
  unfold execVxor vcLane2
  exact vcReg_keeps ..


@[simp] theorem execWatchdogFire_keeps (s : State) : resKeeps s (execWatchdogFire s) := by
  unfold execWatchdogFire
  try dsimp only
  repeat' (first | (simp; done) | refine (foldl_pending _ _ _ fun _ _ => ?_).trans ?_ | refine (foldl_part _ _ _ fun _ _ => ?_).trans ?_ | refine (State.onBeat_pending _ _ _ ?_).trans ?_ | refine (State.onProgram_pending _ _ _ ?_).trans ?_ | refine (State.completeAt_pending _ _ _ _ _ ?_).trans ?_ | refine (State.onBeat_part _ _ _ ?_).trans ?_ | refine (State.onProgram_part _ _ _ ?_).trans ?_ | refine (State.completeAt_part _ _ _ _ _ ?_).trans ?_ | intro _ | split | refine And.intro ?_ ?_ | simp)


@[simp] theorem execWeightKey_keeps (w : DictWrite) (s : State) : resKeeps s (execWeightKey w s) := by
  unfold execWeightKey
  try dsimp only
  repeat' (first | (simp; done) | split)


@[simp] theorem execWeightLoadInPlace_keeps (w : DictWrite) (s : State) : resKeeps s (execWeightLoadInPlace w s) := by
  unfold execWeightLoadInPlace
  try dsimp only
  repeat' (first | (simp; done) | split)


@[simp] theorem execWeightLoadSet_keeps (w : DictWrite) (s : State) : resKeeps s (execWeightLoadSet w s) := by
  unfold execWeightLoadSet
  try dsimp only
  repeat' (first | (simp; done) | split)


@[simp] theorem execWriteAckReceive_keeps (s : State) : resKeeps s (execWriteAckReceive s) := by
  unfold execWriteAckReceive
  try dsimp only
  repeat' (first | (simp; done) | split)


@[simp] theorem execXadd_keeps (h : HallId) (a : XArgs) (s : State) : resKeeps s (execXadd h a s) := by
  unfold execXadd
  exact vcReg_keeps ..


@[simp] theorem execXclr_keeps (h : HallId) (a : XArgs) (s : State) : resKeeps s (execXclr h a s) := by
  unfold execXclr
  exact vcReg_keeps ..


@[simp] theorem execXdrain_keeps (h : HallId) (a : XArgs) (s : State) : resKeeps s (execXdrain h a s) := by
  unfold execXdrain
  exact vcReg_keeps ..


@[simp] theorem execXfold_keeps (h : HallId) (a : XArgs) (s : State) : resKeeps s (execXfold h a s) := by
  unfold execXfold
  exact vcReg_keeps ..


@[simp] theorem execXmac_keeps (h : HallId) (a : XArgs) (s : State) : resKeeps s (execXmac h a s) := by
  unfold execXmac
  exact vcReg_keeps ..


@[simp] theorem execXout_keeps (h : HallId) (a : XArgs) (s : State) : resKeeps s (execXout h a s) := by
  unfold execXout
  exact vcReg_keeps ..


@[simp] theorem execXrec_keeps (h : HallId) (a : XArgs) (s : State) : resKeeps s (execXrec h a s) := by
  unfold execXrec
  exact vcReg_keeps ..

end Sys2Proof.Machine
end

