-- ==== Sys2Proof/Laws/Lanes.lean ====
section
/-! SUPPORT. Lanes, packed elements and predicates read back (R109, R118), and registers after a write (R111). -/

namespace Sys2Proof.Machine

/-! ### Packing -/

theorem packElems_lt (w : Nat) (f : Nat → Nat) (n : Nat) : packElems w f n < 2 ^ (w * n) := by
  induction n with
  | zero => simp [packElems]
  | succ n ih =>
    have hm : f n % 2 ^ w < 2 ^ w := Nat.mod_lt _ (Nat.two_pow_pos w)
    have : f n % 2 ^ w * 2 ^ (w * n) ≤ (2 ^ w - 1) * 2 ^ (w * n) := Nat.mul_le_mul_right _ (by omega)
    have e : 2 ^ (w * (n + 1)) = 2 ^ w * 2 ^ (w * n) := by rw [← pow_add]; ring_nf
    have e2 : (2 ^ w - 1) * 2 ^ (w * n) + 2 ^ (w * n) = 2 ^ w * 2 ^ (w * n) := by
      rw [← Nat.succ_mul]; congr 1
      have := Nat.two_pow_pos w; omega
    simp only [packElems]
    omega

/-- Element `i` of a packed number. -/
theorem packElems_elem (w : Nat) (f : Nat → Nat) (n i : Nat) (h : i < n) :
    packElems w f n / 2 ^ (w * i) % 2 ^ w = f i % 2 ^ w := by
  induction n with
  | zero => omega
  | succ n ih =>
    simp only [packElems]
    rcases Nat.lt_or_ge i n with hi | hi
    · have : 2 ^ (w * n) = 2 ^ (w * i) * 2 ^ w * 2 ^ (w * (n - i - 1)) := by
        rw [← pow_add, ← pow_add]; congr 1
        have : n = i + 1 + (n - i - 1) := by omega
        calc w * n = w * (i + 1 + (n - i - 1)) := by rw [← this]
          _ = _ := by ring
      rw [this, show f n % 2 ^ w * (2 ^ (w * i) * 2 ^ w * 2 ^ (w * (n - i - 1)))
          = 2 ^ (w * i) * (2 ^ w * (f n % 2 ^ w * 2 ^ (w * (n - i - 1)))) by ring,
        Nat.add_mul_div_left _ _ (Nat.two_pow_pos _), Nat.add_mul_mod_self_left]
      exact ih hi
    · have hi : i = n := by omega
      subst hi
      rw [Nat.add_mul_div_right _ _ (Nat.two_pow_pos _), Nat.div_eq_of_lt (packElems_lt w f i), Nat.zero_add, Nat.mod_mod]

/-- A lane as a number. -/
theorem lane_toNat (r : VReg) (i : Nat) : (lane r i).toNat = elemOf 32 r i := by
  simp [lane, elemOf, BitVec.extractLsb'_toNat, Nat.shiftRight_eq_div_pow]

theorem elemOf_lt (w : Nat) (r : VReg) (i : Nat) : elemOf w r i < 2 ^ w := Nat.mod_lt _ (Nat.two_pow_pos w)

/-- Element `i` of a register built from its elements. -/
theorem elemOf_ofNat_pack (w n : Nat) (f : Nat → Nat) (i : Nat) (h : i < n) (hn : w * n ≤ 8192) :
    elemOf w (BitVec.ofNat 8192 (packElems w f n)) i = f i % 2 ^ w := by
  have hlt : packElems w f n < 2 ^ 8192 :=
    Nat.lt_of_lt_of_le (packElems_lt w f n) (Nat.pow_le_pow_right (Nat.le_succ 1) hn)
  rw [elemOf, BitVec.toNat_ofNat, Nat.mod_eq_of_lt hlt]
  exact packElems_elem w f n i h

@[simp] theorem lane_ofLanes (f : Nat → W32) (i : Nat) (h : i < 256) : lane (ofLanes f) i = f i := by
  apply BitVec.eq_of_toNat_eq
  rw [lane_toNat, ofLanes, elemOf_ofNat_pack 32 256 _ i h (by omega)]
  exact Nat.mod_eq_of_lt (f i).isLt

theorem elemOf_ofElems (w : Nat) (f : Nat → Nat) (i : Nat) (h : i < 8192 / w) :
    elemOf w (ofElems w f) i = f i % 2 ^ w :=
  elemOf_ofNat_pack w _ f i h (Nat.mul_div_le 8192 w)

/-- Element `i` of width `w` lies in lane `w i / 32`. -/
theorem elemOf_eq_lane (w : Nat) (hw : w ∣ 32) (r : VReg) (i : Nat) :
    elemOf w r i = (lane r (i / (32 / w))).toNat / 2 ^ (w * (i % (32 / w))) % 2 ^ w := by
  obtain ⟨m, hm⟩ := hw
  have hw0 : 0 < w := by rcases Nat.eq_zero_or_pos w with h | h; · subst h; omega
                         · exact h
  have hm' : 32 / w = m := by rw [hm]; exact Nat.mul_div_cancel_left m hw0
  have hmpos : 0 < m := by rcases Nat.eq_zero_or_pos m with h | h; · subst h; omega
                           · exact h
  rw [hm', lane_toNat, elemOf, elemOf]
  have hi := Nat.div_add_mod i m
  have hlt := Nat.mod_lt i hmpos
  have e1 : w * i = 32 * (i / m) + w * (i % m) := by
    calc w * i = w * (m * (i / m) + i % m) := by rw [hi]
      _ = (w * m) * (i / m) + w * (i % m) := by ring
      _ = _ := by rw [← hm]
  have hk : w * (i % m) + w ≤ 32 := by
    calc w * (i % m) + w = w * (i % m + 1) := by ring
      _ ≤ w * m := Nat.mul_le_mul_left w (by omega)
      _ = 32 := hm.symm
  rw [e1, pow_add, ← Nat.div_div_eq_div_mul]
  generalize r.toNat / 2 ^ (32 * (i / m)) = x
  have e2 : (2 : Nat) ^ 32 = 2 ^ (w * (i % m)) * 2 ^ (32 - w * (i % m)) := by
    rw [← pow_add]; congr 1; omega
  rw [e2, Nat.mod_mul_right_div_self, Nat.mod_mod_of_dvd]
  exact Nat.pow_dvd_pow 2 (by omega)

/-- Element `j` of a lane of packed results. -/
theorem packedLane_elem (w : Nat) (hw : w ∣ 32) (op : Nat → Nat → Nat) (a b : W32) (j : Nat) (hj : j < 32 / w) :
    (packedLane w op a b).toNat / 2 ^ (w * j) % 2 ^ w
      = op (a.toNat / 2 ^ (w * j) % 2 ^ w) (b.toNat / 2 ^ (w * j) % 2 ^ w) % 2 ^ w := by
  have hlt := packElems_lt w (fun k => op (a.toNat / 2 ^ (w * k) % 2 ^ w) (b.toNat / 2 ^ (w * k) % 2 ^ w)) (32 / w)
  rw [Nat.mul_div_cancel' hw] at hlt
  rw [packedLane, BitVec.toNat_ofNat, Nat.mod_eq_of_lt hlt]
  exact packElems_elem w _ _ j hj

/-- Bit `i` of a predicate made from a test. -/
@[simp] theorem predOf_getLsbD (f : Nat → Bool) (i : Nat) (h : i < 256) : (predOf f).getLsbD i = f i := by
  have hp := packElems_elem 1 (fun i => if f i then 1 else 0) 256 i h
  simp only [one_mul, pow_one] at hp
  have hlt : packElems 1 (fun i => if f i then 1 else 0) 256 < 2 ^ 256 := packElems_lt 1 _ 256
  rw [predOf, BitVec.getLsbD_ofNat, Nat.testBit_eq_decide_div_mod_eq, hp]
  cases f i <;> simp [h]

/-- R118 lane by lane. -/
theorem lane_maskLanes (p : BitVec 256) (zero : Bool) (old : VReg) (f : Nat → W32) (i : Nat) (h : i < 256) :
    lane (maskLanes p zero old f) i = if p.getLsbD i then f i else if zero then 0#32 else lane old i := by
  rw [maskLanes, lane_ofLanes _ _ h]

/-! ### Registers after a write -/

@[simp] theorem VCore.vreg_setV (v : VCore) (k j : BitVec 6) (x : VReg) :
    (v.setV k x).vreg j = if j = k then x else v.vreg j := by
  unfold VCore.vreg VCore.setV
  rw [SMap.get_set]
  by_cases h : j = k
  · simp [h]
  · rw [if_neg h, if_neg (fun e => h (BitVec.eq_of_toNat_eq e))]

@[simp] theorem VCore.sreg_setS (v : VCore) (k j : BitVec 5) (x : W64) :
    (v.setS k x).sreg j = if j = k ∧ k ≠ 0#5 then x else v.sreg j := by
  unfold VCore.sreg VCore.setS
  by_cases hk : k = 0#5
  · simp [hk]
  · simp only [hk, if_false]
    by_cases hj : j = k
    · subst hj; simp [hk]
    · have : j.toNat ≠ k.toNat := fun e => hj (BitVec.eq_of_toNat_eq e)
      simp [SMap.get_set, this, hj]

@[simp] theorem VCore.preg_setP (v : VCore) (k j : BitVec 3) (x : BitVec 256) :
    (v.setP k x).preg j = if j = k ∧ k ≠ 0#3 then x else v.preg j := by
  unfold VCore.preg VCore.setP
  by_cases hk : k = 0#3
  · simp [hk]
  · simp only [hk, if_false]
    by_cases hj : j = k
    · subst hj; simp [hk]
    · have : j.toNat ≠ k.toNat := fun e => hj (BitVec.eq_of_toNat_eq e)
      simp [SMap.get_set, this, hj]

/-- Elements of the exact-sum registers after all those of one are replaced. -/
theorem VCore.esElem_setEs (v : VCore) (k j : BitVec 3) (f : Nat → Acc) (i : Nat) (h : i < 256) :
    (v.setEs k f).esElem j i = if j = k then f i else v.esElem j i := by
  unfold VCore.esElem VCore.setEs
  have key : ∀ (n : Nat) (m : SMap Acc) (q : Nat),
      SMap.get Acc.zero ((List.range n).foldl (fun m i => SMap.set Acc.zero m (256 * k.toNat + i) (f i)) m) q
        = if 256 * k.toNat ≤ q ∧ q < 256 * k.toNat + n then f (q - 256 * k.toNat) else SMap.get Acc.zero m q := by
    intro n
    induction n with
    | zero => intro m q; simp only [List.range_zero, List.foldl_nil]; rw [if_neg (by omega)]
    | succ n ih =>
      intro m q
      rw [List.range_succ, List.foldl_append, List.foldl_cons, List.foldl_nil, SMap.get_set, ih]
      by_cases hq : q = 256 * k.toNat + n
      · rw [if_pos hq, if_pos (by omega)]; congr 1; omega
      · rw [if_neg hq]
        by_cases h1 : 256 * k.toNat ≤ q ∧ q < 256 * k.toNat + n
        · rw [if_pos h1, if_pos (by omega)]
        · rw [if_neg h1, if_neg (by omega)]
  simp only [key]
  by_cases hj : j = k
  · subst hj; rw [if_pos (by omega), if_pos rfl]; congr 1; omega
  · have : j.toNat ≠ k.toNat := fun e => hj (BitVec.eq_of_toNat_eq e)
    rw [if_neg (by omega), if_neg hj]

/-- What a write to a register, a status bit and moving on leave alone. -/
@[simp] theorem VCore.flag_fields (v : VCore) (f : BitVec 8) :
    (v.flag f).running = v.running ∧ (v.flag f).pc = v.pc ∧ (v.flag f).hold = v.hold ∧ (v.flag f).v = v.v
      ∧ (v.flag f).s = v.s ∧ (v.flag f).p = v.p ∧ (v.flag f).es = v.es ∧ (v.flag f).mark = v.mark
      ∧ (v.flag f).status = v.status ||| f ∧ (v.flag f).shape = v.shape ∧ (v.flag f).signals = v.signals
      ∧ (v.flag f).times = v.times ∧ (v.flag f).nextIssue = v.nextIssue := by
  simp [VCore.flag]

@[simp] theorem VCore.retire_fields (v : VCore) (t : VTiming) (b l : Nat) :
    (v.retire t b l).running = v.running ∧ (v.retire t b l).pc = v.pc + 1 ∧ (v.retire t b l).hold = v.hold
      ∧ (v.retire t b l).v = v.v ∧ (v.retire t b l).s = v.s ∧ (v.retire t b l).p = v.p ∧ (v.retire t b l).es = v.es
      ∧ (v.retire t b l).mark = v.mark ∧ (v.retire t b l).status = v.status ∧ (v.retire t b l).shape = v.shape
      ∧ (v.retire t b l).signals = v.signals ∧ (v.retire t b l).nextIssue = b + 1 := by
  simp [VCore.retire, VCore.note]

@[simp] theorem VCore.setV_fields (v : VCore) (k : BitVec 6) (x : VReg) :
    (v.setV k x).running = v.running ∧ (v.setV k x).pc = v.pc ∧ (v.setV k x).hold = v.hold ∧ (v.setV k x).s = v.s
      ∧ (v.setV k x).p = v.p ∧ (v.setV k x).es = v.es ∧ (v.setV k x).mark = v.mark
      ∧ (v.setV k x).status = v.status ∧ (v.setV k x).shape = v.shape ∧ (v.setV k x).signals = v.signals
      ∧ (v.setV k x).times = v.times ∧ (v.setV k x).nextIssue = v.nextIssue := by
  simp [VCore.setV]

@[simp] theorem VCore.setS_fields (v : VCore) (k : BitVec 5) (x : W64) :
    (v.setS k x).running = v.running ∧ (v.setS k x).pc = v.pc ∧ (v.setS k x).hold = v.hold ∧ (v.setS k x).v = v.v
      ∧ (v.setS k x).p = v.p ∧ (v.setS k x).es = v.es ∧ (v.setS k x).mark = v.mark
      ∧ (v.setS k x).status = v.status ∧ (v.setS k x).shape = v.shape ∧ (v.setS k x).signals = v.signals
      ∧ (v.setS k x).times = v.times ∧ (v.setS k x).nextIssue = v.nextIssue := by
  unfold VCore.setS; split <;> simp

@[simp] theorem VCore.setP_fields (v : VCore) (k : BitVec 3) (x : BitVec 256) :
    (v.setP k x).running = v.running ∧ (v.setP k x).pc = v.pc ∧ (v.setP k x).hold = v.hold ∧ (v.setP k x).v = v.v
      ∧ (v.setP k x).s = v.s ∧ (v.setP k x).es = v.es ∧ (v.setP k x).mark = v.mark
      ∧ (v.setP k x).status = v.status ∧ (v.setP k x).shape = v.shape ∧ (v.setP k x).signals = v.signals
      ∧ (v.setP k x).times = v.times ∧ (v.setP k x).nextIssue = v.nextIssue := by
  unfold VCore.setP; split <;> simp

@[simp] theorem VCore.setEs_fields (v : VCore) (k : BitVec 3) (f : Nat → Acc) :
    (v.setEs k f).running = v.running ∧ (v.setEs k f).pc = v.pc ∧ (v.setEs k f).hold = v.hold ∧ (v.setEs k f).v = v.v
      ∧ (v.setEs k f).s = v.s ∧ (v.setEs k f).p = v.p ∧ (v.setEs k f).mark = v.mark
      ∧ (v.setEs k f).status = v.status ∧ (v.setEs k f).shape = v.shape ∧ (v.setEs k f).signals = v.signals
      ∧ (v.setEs k f).times = v.times ∧ (v.setEs k f).nextIssue = v.nextIssue := by
  simp [VCore.setEs]

/-- Equal maps read alike. -/
theorem VCore.sreg_congr {v w : VCore} (h : v.s = w.s) (k : BitVec 5) : v.sreg k = w.sreg k := by
  simp [VCore.sreg, h]

theorem VCore.preg_congr {v w : VCore} (h : v.p = w.p) (k : BitVec 3) : v.preg k = w.preg k := by
  simp [VCore.preg, h]

theorem VCore.vreg_congr {v w : VCore} (h : v.v = w.v) (k : BitVec 6) : v.vreg k = w.vreg k := by
  simp [VCore.vreg, h]

theorem VCore.esElem_congr {v w : VCore} (h : v.es = w.es) (k : BitVec 3) (i : Nat) : v.esElem k i = w.esElem k i := by
  simp [VCore.esElem, h]

/-- Bit `n` of the conditions that active lanes meet. -/
theorem laneConds_getLsbD (p : BitVec 256) (f : Nat → BitVec 8) (n : Nat) :
    (laneConds p f).getLsbD n = true ↔ ∃ i, i < 256 ∧ p.getLsbD i = true ∧ (f i).getLsbD n = true := by
  unfold laneConds
  have key : ∀ (m : Nat) (c : BitVec 8),
      ((List.range m).foldl (fun c i => if p.getLsbD i then c ||| f i else c) c).getLsbD n = true
        ↔ c.getLsbD n = true ∨ ∃ i, i < m ∧ p.getLsbD i = true ∧ (f i).getLsbD n = true := by
    intro m
    induction m with
    | zero => intro c; simp
    | succ m ih =>
      intro c
      rw [List.range_succ, List.foldl_append, List.foldl_cons, List.foldl_nil]
      have hsplit : (∃ i, i < m + 1 ∧ p.getLsbD i = true ∧ (f i).getLsbD n = true)
          ↔ (∃ i, i < m ∧ p.getLsbD i = true ∧ (f i).getLsbD n = true) ∨ (p.getLsbD m = true ∧ (f m).getLsbD n = true) := by
        constructor
        · rintro ⟨i, hi, h⟩
          rcases Nat.lt_or_ge i m with h' | h'
          · exact Or.inl ⟨i, h', h⟩
          · exact Or.inr (by rw [show i = m by omega] at h; exact h)
        · rintro (⟨i, hi, h⟩ | h)
          · exact ⟨i, by omega, h⟩
          · exact ⟨m, by omega, h⟩
      by_cases hp : p.getLsbD m = true
      · rw [if_pos hp, BitVec.getLsbD_or, Bool.or_eq_true, ih, hsplit]
        simp only [hp, true_and, or_assoc]
      · rw [if_neg hp, ih, hsplit]
        simp [hp]
  rw [key 256]; simp

/-! ### Running an instruction -/

/-- What a vector core does with the instruction that it issues: the accesses before the issue beat have acted. -/
theorem vcRun_next (h : HallId) (i : Instr) (t : VTiming) (s : State) (f : State → VCore → Nat → State)
    (he : s.hallEnabled h.val = true) (hi : (s.toBeat (vcBeat (s.vcore h) t)).vcIssues h i = true) :
    vcRun h i t s f = .next (f (s.toBeat (vcBeat (s.vcore h) t)) ((s.toBeat (vcBeat (s.vcore h) t)).vcore h)
      (vcBeat (s.vcore h) t)) := by
  simp [vcRun, he, hi]

/-- The same for an instruction whose effect lies in its core. -/
theorem vcReg_next (h : HallId) (i : Instr) (t : VTiming) (s : State) (f : VCore → VCore)
    (he : s.hallEnabled h.val = true) (hi : (s.toBeat (vcBeat (s.vcore h) t)).vcIssues h i = true) :
    let b := vcBeat (s.vcore h) t
    vcReg h i t s f = .next (((s.toBeat b).overtake h t.dsts ((s.toBeat b).vcore h) f).setVcore h
      ((f ((s.toBeat b).vcore h)).retire t b (b + t.lat))) := by
  simp [vcReg, vcRun, he, hi]

theorem vcRun_disabled (h : HallId) (i : Instr) (t : VTiming) (s : State) (f : State → VCore → Nat → State)
    (he : s.hallEnabled h.val = false) : vcRun h i t s f = .fault .disabledHall := by
  simp [vcRun, he]

/-- The count never falls, and it reaches the beat asked for. -/
theorem State.le_toBeat_milestone (s : State) (b : Nat) : max s.milestone b ≤ (s.toBeat b).milestone :=
  Nat.le_max_right _ _

end Sys2Proof.Machine
end

