-- ==== Sys2Proof/Laws/Memories.lean ====
section
/-! SUPPORT. Every operation on a Pantry, a slice or a stack keeps it in its canonical form. -/

namespace Sys2Proof.Machine

/-! ### Memories by themselves -/

theorem pantryStore_wf (size : Nat) (bs : List Byte) : ∀ (m : Memory) (a : Nat), m.wf = true →
    (pantryStore size m a bs).wf = true := by
  induction bs with
  | nil => exact fun m _ h => h
  | cons b bs ih => exact fun m a h => ih _ _ (Memory.wf_write m _ b h)

theorem storeMasked_wf (size : Nat) (m : Memory) (a : Nat) (mask : BitVec 512) (bs : List Byte) (h : m.wf = true) :
    (storeMasked size m a mask bs).wf = true := by
  unfold storeMasked
  generalize bs.zipIdx = l
  induction l generalizing m with
  | nil => exact h
  | cons e l ih =>
    rw [List.foldl_cons]
    refine ih _ ?_
    split
    · exact Memory.wf_write m _ _ h
    · exact h

theorem memOfBytes_mem (bs : List Byte) : ∀ (k : Nat) (e : Host.Cell), e ∈ memOfBytes bs k →
    k ≤ e.1 ∧ e.1 < k + bs.length := by
  induction bs with
  | nil => intro k e h; cases h
  | cons b bs ih =>
    intro k e h
    unfold memOfBytes at h
    simp only [List.length_cons]
    split at h
    · have := ih _ e h; omega
    · rcases List.mem_cons.mp h with rfl | h
      · simp
      · have := ih _ e h; omega

/-- Bytes as a memory stand in the canonical form. -/
theorem memOfBytes_wf (bs : List Byte) : ∀ k : Nat, (memOfBytes bs k).wf = true := by
  induction bs with
  | nil => intro k; rfl
  | cons b bs ih =>
    intro k
    unfold memOfBytes
    split
    · exact ih _
    · next hb =>
      have h1 : SMap.wf 0#8 (memOfBytes bs (k + 1)) = true := ih _
      show SMap.wf 0#8 ((k, b) :: memOfBytes bs (k + 1)) = true
      rw [SMap.wf_iff] at h1 ⊢
      refine ⟨fun e he => ?_, ?_⟩
      · rcases List.mem_cons.mp he with rfl | he
        · exact hb
        · exact h1.1 e he
      · refine List.pairwise_cons.mpr ⟨fun e he => ?_, h1.2⟩
        have := memOfBytes_mem bs (k + 1) e he
        simp only; omega

theorem rowOver_wf (old : Memory) (whole : Bool) (mask : BitVec 512) (bs : List Byte) :
    (rowOver old whole mask bs).wf = true := memOfBytes_wf _ _

/-- A turned window of at most 512 bytes keeps the canonical form. -/
theorem rotWindow_wf (w : Memory) (k : Nat) (h : w.wf = true) (hw : ∀ e ∈ w, e.1 < 512) :
    (rotWindow w k).wf = true := by
  have h1 := SMap.wf_filter 0#8 w (fun e => decide (16 * (k % 32) ≤ e.1)) h
  have h2 := SMap.wf_filter 0#8 w (fun e => decide (e.1 < 16 * (k % 32))) h
  unfold rotWindow
  refine SMap.wf_append 0#8 _ _ ?_ ?_ ?_
  · rw [SMap.wf_iff] at h1 ⊢
    refine ⟨fun e he => ?_, List.pairwise_map.mpr (h1.2.imp_of_mem fun ha hb hab => ?_)⟩
    · obtain ⟨x, hx, rfl⟩ := List.mem_map.mp he
      exact h1.1 x hx
    · simp only [List.mem_filter, decide_eq_true_eq] at ha hb
      simp only; omega
  · rw [SMap.wf_iff] at h2 ⊢
    refine ⟨fun e he => ?_, List.pairwise_map.mpr (h2.2.imp_of_mem fun ha hb hab => ?_)⟩
    · obtain ⟨x, hx, rfl⟩ := List.mem_map.mp he
      exact h2.1 x hx
    · simp only [List.mem_filter, decide_eq_true_eq] at ha hb
      simp only; omega
  · intro e he e' he'
    obtain ⟨x, hx, rfl⟩ := List.mem_map.mp he
    obtain ⟨y, hy, rfl⟩ := List.mem_map.mp he'
    simp only [List.mem_filter, decide_eq_true_eq] at hx hy
    have := hw x hx.1
    simp only; omega

/-! ### The memories of a state -/

theorem State.pantryOf_wf (s : State) (h : s.memoriesOk) (k : Nat) : (s.pantryOf k).wf = true :=
  SMap.get_forall [] s.pantry (fun m => Memory.wf m = true) rfl h.1 k

theorem State.sliceOf_wf (s : State) (h : s.memoriesOk) (k : Nat) : (s.sliceOf k).wf = true :=
  SMap.get_forall [] s.larder (fun m => Memory.wf m = true) rfl h.2.1 k

theorem State.stackOf_wf (s : State) (h : s.memoriesOk) (k : Nat) : (s.stackOf k).wf = true :=
  SMap.get_forall [] s.cellar (fun m => Memory.wf m = true) rfl h.2.2 k

theorem State.setPantry_ok (s : State) (h : s.memoriesOk) (k : Nat) (m : Memory) (hm : m.wf = true) :
    (s.setPantry k m).memoriesOk :=
  ⟨SMap.forall_set [] s.pantry (fun m => Memory.wf m = true) k m hm h.1, h.2.1, h.2.2⟩

theorem State.setSlice_ok (s : State) (h : s.memoriesOk) (k : Nat) (m : Memory) (hm : m.wf = true) :
    (s.setSlice k m).memoriesOk :=
  ⟨h.1, SMap.forall_set [] s.larder (fun m => Memory.wf m = true) k m hm h.2.1, h.2.2⟩

theorem State.setStack_ok (s : State) (h : s.memoriesOk) (k : Nat) (m : Memory) (hm : m.wf = true) :
    (s.setStack k m).memoriesOk :=
  ⟨h.1, h.2.1, SMap.forall_set [] s.cellar (fun m => Memory.wf m = true) k m hm h.2.2⟩

theorem State.pantryWrite_ok (s : State) (h : s.memoriesOk) (k a : Nat) (bs : List Byte) : (s.pantryWrite k a bs).memoriesOk :=
  s.setPantry_ok h k _ (pantryStore_wf _ bs _ _ (s.pantryOf_wf h k))

/-- A row that lies within 512 bytes is written in the canonical form. -/
theorem State.writeRow_ok (s : State) (h : s.memoriesOk) (k row0 off : Nat) (grid : Bool) (w : Memory) (hw : w.wf = true)
    (hl : ∀ e ∈ w, e.1 < 512) : (s.writeRow k row0 off grid w).memoriesOk := by
  unfold State.writeRow
  refine s.setSlice_ok h k _ (Memory.wf_place _ _ _ _ (s.sliceOf_wf h k) ?_)
  split
  · exact rotWindow_wf w _ hw hl
  · exact hw

/-- A store of a core's at a place. -/
theorem State.writePlace_ok (s : State) (h : s.memoriesOk) (p : Place) (mask : BitVec 512) (bs : List Byte) :
    (s.writePlace p mask bs).memoriesOk := by
  unfold State.writePlace
  split
  · exact s.setPantry_ok h _ _ (storeMasked_wf _ _ _ _ _ (s.pantryOf_wf h _))
  · refine s.writeRow_ok h _ _ _ _ _ (rowOver_wf ..) fun e he => ?_
    have := memOfBytes_mem _ 0 e he
    simpa using this
  · exact h

theorem State.stackBlock_wf (s : State) (h : s.memoriesOk) (k a : Nat) : (s.stackBlock k a).wf = true := by
  unfold State.stackBlock
  split
  · split
    · exact Memory.wf_window _ _ _ (s.stackOf_wf h k)
    · exact Memory.wf_writeBytes _ _ _ rfl
  · exact Memory.wf_window _ _ _ (s.stackOf_wf h k)

theorem State.storeBlock_ok (s : State) (h : s.memoriesOk) (k a o n : Nat) (w : Memory) : (s.storeBlock k a o n w).memoriesOk := by
  have h1 := s.setStack_ok h k _ (Memory.wf_place _ a 512 _ (s.stackOf_wf h k)
    (Memory.wf_place _ o n _ (s.stackBlock_wf h k a) (Memory.wf_canon w)))
  unfold State.storeBlock
  dsimp only
  split
  · exact h1
  · exact h1

theorem State.writeSpot_ok (s : State) (h : s.memoriesOk) (bs : List Byte) (x : Spot) : (s.writeSpot bs x).memoriesOk := by
  cases x with
  | pantry k b => exact s.setPantry_ok h k _ (Memory.wf_writeBytes _ _ _ (s.pantryOf_wf h k))
  | larder k b => exact s.setSlice_ok h k _ (Memory.wf_writeBytes _ _ _ (s.sliceOf_wf h k))
  | cellar k b => exact s.storeBlock_ok h k _ _ _ _

/-- A write of a mover's at an endpoint. -/
theorem State.writeOut_ok (s : State) (h : s.memoriesOk) (e : Endpoint) (m lo hi : Nat) (buf : Memory) :
    (s.writeOut e m lo hi buf).memoriesOk := by
  unfold State.writeOut
  generalize List.range (ceilDiv hi 16 - lo / 16) = l
  induction l generalizing s with
  | nil => exact h
  | cons i l ih => exact ih _ (s.writeSpot_ok h _ _)

end Sys2Proof.Machine
end

