-- ==== Sys2Proof/Tests/Slice0.lean ====
section
/-! SUPPORT. Tests of the model: ill-formed commands refused, words decoded, and states that meet the hypotheses of the
statements. Expected values come from the tables of spec/, by hand. -/

namespace Sys2Proof.Tests

open Sys2Proof Sys2Proof.Machine Sys2Proof.Claims

set_option Elab.async false

/-! ### States of a running module -/

/-- A module in service whose job runs in three halls. -/
def running : State :=
  { State.reset with
    milestone := 25, wall := 1000,
    boot := { State.reset.boot with phase := .ready, outputsQuiet := false },
    job := { State.reset.job with
      loadState := 5#8, logicalHalls := 3#8, hallMap := [(0, 0#8), (1, 1#8), (2, 50#8)], stepBell := 100#16,
      seed := 0x1234#64 } }

/-- `n` bytes of a number, little-endian. -/
def littleEndian (x n : Nat) : Memory := (List.range n).map fun k => (k, BitVec.ofNat 8 (x / 2 ^ (8 * k)))

/-- The Pantry that holds a word at address 0, and nothing else. -/
def wordAtZero (w : W64) : Memory := (littleEndian w.toNat 8).filter fun e => e.2 != 0#8

/-- The vector core of hall 3 runs and has the word of `i` at its address, 0. -/
def atV (s : State) (v : VCore) (i : Instr) : State :=
  { s with
    vc := SMap.set VCore.idle s.vc 3 { v with running := true, pc := 0#16 }
    pantry := SMap.set [] s.pantry (vPantryKey 3) (wordAtZero ((vectorWord i).getD 0#64)) }

def vcore0 : VCore := VCore.idle
def ready (i : Instr) : State := atV running vcore0 i

/-! ### States in which no access is under way -/

/-- Where no run has an access left to make, none stands before any beat. -/
theorem nextAct_none {rs : List Run} (h : rs.any Run.pends = false) (b : Nat) : nextAct rs b = none := by
  unfold nextAct
  have : ∀ best : Option Run, rs.foldl (fun best r =>
      if r.pends && decide (r.actBeat < b) then
        match best with
        | none => some r
        | some x => if decide (r.actBeat < x.actBeat) || (r.actBeat == x.actBeat && !x.before r) then some r else best
      else best) best = best := by
    induction rs with
    | nil => exact fun _ => rfl
    | cons r rs ih =>
      simp only [List.any_cons, Bool.or_eq_false_iff] at h
      intro best
      rw [List.foldl_cons, h.1, Bool.false_and]
      exact ih h.2 best
  exact this none

/-- Then time passes, and nothing else changes. -/
theorem beats_still {s : State} (h : s.ld.runs.any Run.pends = false) (bs : List Nat) :
    ∃ m w c, bs.foldl State.toBeat s = { s with milestone := m, wall := w, clock := c } := by
  induction bs generalizing s with
  | nil => exact ⟨_, _, _, rfl⟩
  | cons b bs ih =>
    rw [List.foldl_cons, State.toBeat_idle s b (nextAct_none h _)]
    obtain ⟨m, w, c, e⟩ := ih (s := s.pass b) h
    exact ⟨m, w, c, e⟩

theorem through_still {s : State} {P : State → Prop} (hr : s.ld.runs.any Run.pends = false)
    (h : ∀ m w c, P { s with milestone := m, wall := w, clock := c }) : Through s P := fun bs => by
  obtain ⟨m, w, c, e⟩ := beats_still hr bs
  rw [e]; exact h m w c

theorem vcReady_still {h : HallId} {i : Instr} {s : State} (hr : s.ld.runs.any Run.pends = false) :
    VcReady h i s ↔ (s.hallEnabled h.val = true ∧ s.vcIssues h i = true) :=
  ⟨fun x => ⟨x.1, x.2 []⟩, fun x => ⟨x.1, through_still hr fun _ _ _ => x.2⟩⟩

theorem mcReady_still {c : MCoreId} {i : Instr} {s : State} (hr : s.ld.runs.any Run.pends = false) :
    McReady c i s ↔ (s.hallEnabled (c.val / 2) = true ∧ s.mcIssues c i = true) :=
  ⟨fun x => ⟨x.1, x.2 []⟩, fun x => ⟨x.1, through_still hr fun _ _ _ => x.2⟩⟩

theorem calm_still {s : State} (hr : s.ld.runs.any Run.pends = false) : calm s ↔ s.moving = true :=
  ⟨fun x => x [], fun x => through_still hr fun _ _ _ => x⟩

/-! ### Well-formed commands: an ill-formed one of each check is refused -/


def write (len : BitVec 16) (bytes : List Byte) : DictWrite := ⟨.kloder, 0#16, 7#16, 0#8, len, 0#24, bytes⟩
def measured (up lo rg : Nat) : GovInputs :=
  ⟨0x0A000000#32, 0x00300000#32, 0x00280000#32, 0x00320000#32, List.replicate up 0x00320000#32,
    List.replicate lo 0x00320000#32, List.replicate rg 50#8⟩
def init (n : Nat) : InitInfo := ⟨true, 1#8, 10#8, 512#16, List.replicate n 64#16, 0#64⟩
def found (place : BitVec 5) : Found := ⟨.pair, place, 0, 0#24, 211#8, false⟩
def inbound (wr : Bool) (len : BitVec 13) (n : Nat) : PcieRequest := ⟨false, wr, 0#64, len, List.replicate n 0#8⟩
def ask : DictAsk := ⟨.kloder, 0#16, 0x1100#16, 1#8, 3#16, 0#8, 0#16, 0#24⟩

/-- Two bytes where LENGTH says one. -/
def badWrite : DictWrite := write 1#16 [0#8, 0#8]
theorem test_wf_writes : ∀ i ∈ [Instr.bellHandAdd badWrite, .postDiscardHead badWrite, .load 3#8 ⟨0#24, none⟩ badWrite,
    .unload badWrite, .powerMode badWrite, .setpointW badWrite, .powerLimitW badWrite, .opCeiling badWrite,
    .flowDeclared badWrite, .forceGuarded badWrite, .swapRequest badWrite, .signpost 0 badWrite, .gateClasses badWrite,
    .timeLock badWrite, .jobGate badWrite, .weightLoadSet badWrite, .weightLoadInPlace badWrite, .switch badWrite,
    .barrierClose badWrite, .barrierOpen badWrite, .adapterLoad badWrite, .hallsOff badWrite, .moduleReset badWrite,
    .programKey badWrite, .weightKey badWrite, .attestNonce badWrite, .fuseBlowDebugClose badWrite,
    .fuseBlowTestClose badWrite], i.wf = false := by decide
theorem test_wf_write_taken : (Instr.powerMode (write 1#16 [1#8])).wf = true := by decide
/-- Three towers, or a region too few. -/
theorem test_wf_window : (Instr.governorWindow (measured 3 4 152)).wf = false
    ∧ (Instr.governorWindow (measured 4 3 152)).wf = false ∧ (Instr.governorWindow (measured 4 4 151)).wf = false
    ∧ (Instr.governorWindow (measured 4 4 152)).wf = true := by decide +kernel
theorem test_wf_init : (Instr.portTrain 0 (some (init 9))).wf = false ∧ (Instr.portTrain 0 (some (init 10))).wf = true := by
  decide
theorem test_wf_found : (Instr.faultRaise (found 0#5)).wf = false ∧ (Instr.faultRaise (found 18#5)).wf = false
    ∧ (Instr.faultRaise (found 1#5)).wf = true ∧ (Instr.faultRaise (found 17#5)).wf = true := by decide
theorem test_wf_frame :
    (Instr.kloderFrameReceive ⟨0#64, 0#64, List.replicate 12 0#8, 0#32⟩ .clean).wf = false
    ∧ (Instr.kloderFrameReceive ⟨0#64, 0#64, List.replicate 16 0#8, 0#32⟩ .clean).wf = true := by decide
theorem test_wf_frame_long :
    (Instr.kloderFrameReceive ⟨0#64, 0#64, List.replicate 1048 0#8, 0#32⟩ .clean).wf = false := by decide +kernel
theorem test_wf_kloder_init : (Instr.kloderInit 0#2 (List.replicate 72 0#8)).wf = false
    ∧ (Instr.kloderInit 3#2 (List.replicate 71 0#8)).wf = false ∧ (Instr.kloderInit 3#2 (List.replicate 72 0#8)).wf = true := by
  decide
theorem test_wf_inbound : (Instr.pcieInboundRequest (inbound true 8#13 7)).wf = false
    ∧ (Instr.pcieInboundRequest (inbound false 8#13 1)).wf = false ∧ (Instr.pcieInboundRequest (inbound true 8#13 8)).wf = true := by
  decide
theorem test_wf_opcodes : (Instr.dictReservedOpcode 1#8 ask []).wf = false ∧ (Instr.dictReservedOpcode 3#8 ask []).wf = false
    ∧ (Instr.mcReservedOpcode 0 8#6).wf = false ∧ (Instr.mcReservedOpcode 0 21#6).wf = true
    ∧ (Instr.vcReservedOpcode 0 0x96#8).wf = false ∧ (Instr.vcReservedOpcode 0 0x0E#8).wf = true
    ∧ (Instr.tapPrivate 6#8).wf = false ∧ (Instr.tapPrivate 0xFF#8).wf = false ∧ (Instr.tapPrivate 0x80#8).wf = true
    ∧ (Instr.tld 0 ⟨0#3, false, 0#6, 0#5, 2#12, 0#24⟩).wf = false := by decide

/-! ### Words of the cores, written out from Tables 3.3 to 3.7, 4.2 and 4.3 -/

theorem test_word_loop : decodeMatrix 6 (0x02#6 ++ 3#24 ++ 5#12 ++ 0#22 : BitVec 64) = .mcLoop 6 ⟨3#24, 5#12⟩ := by
  decide +kernel
theorem test_word_loadw :
    decodeMatrix 6 (0x10#6 ++ 1#1 ++ 1#1 ++ 5#4 ++ 2#3 ++ 1#1 ++ 3#3 ++ 0#1 ++ 77#12 ++ 1#1 ++ 9#8 ++ 0#23 : BitVec 64)
      = .mcLoadw 6 ⟨true, true, 5#4, 2#3, true, 3#3, false, 77#12, true, 9#8⟩ := by decide +kernel
theorem test_word_clear : decodeMatrix 6 (0x13#6 ++ 2#2 ++ 0#56 : BitVec 64) = .mcClear 6 2#2 := by decide +kernel
theorem test_word_branch :
    decodeVector 3 (0x02#8 ++ 3#4 ++ 4#5 ++ 5#5 ++ 0#18 ++ 0xFFFFFE#24 : BitVec 64) = .br 3 ⟨3#4, 4#5, 5#5, 0xFFFFFE#24⟩ := by
  decide +kernel
theorem test_word_iadd :
    decodeVector 3 (0x20#8 ++ 1#3 ++ 1#1 ++ 2#2 ++ 5#6 ++ 6#6 ++ 7#6 ++ 0#6 ++ 0#10 ++ 0#16 : BitVec 64)
      = .iadd 3 ⟨1#3, true, 2#2, 5#6, 6#6, 7#6, 0#6, 0#10⟩ := by decide +kernel
theorem test_word_sadd :
    decodeVector 3 (0x10#8 ++ 1#5 ++ 2#5 ++ 3#5 ++ 1#1 ++ 0#8 ++ 0xFFFFFFFF#32 : BitVec 64)
      = .sadd 3 ⟨1#5, 2#5, 3#5, true, 0xFFFFFFFF#32⟩ := by decide +kernel
theorem test_word_psend :
    decodeVector 3 (0x09#8 ++ 1#5 ++ 2#5 ++ 300#13 ++ 17#5 ++ 1#1 ++ 0#3 ++ 9#24 : BitVec 64)
      = .psend 3 ⟨1#5, 2#5, 300#13, 17#5, true, 9#24⟩ := by decide +kernel

/-! ### Vector cores -/

/-- Arguments with a reserved FORM, MOD and GROUP, and with plain ones. -/
def argsR : List RArgs := [⟨1#3, true, 3#2, 5#6, 6#6, 7#6, 8#6, 0x3FF#10⟩, ⟨0#3, false, 0#2, 0#6, 63#6, 63#6, 0#6, 0x005#10⟩]
def argsX : List XArgs :=
  [⟨1#3, true, 7#3, 0#3, 63#6, 1#6, 0x200#10, true, true, 0x80#8, 3#2, 15#4, true, 31#5⟩,
   ⟨0#3, false, 0#3, 1#3, 0#6, 1#6, 0#10, false, false, 0#8, 0#2, 0#4, false, 0#5⟩]
def argS : SArgs := ⟨0#5, 31#5, 1#5, true, 0x80000000#32⟩
def argB : BArgs := ⟨7#4, 31#5, 1#5, 0x800000#24⟩
def argC : CArgs := ⟨31#5, 1#5, 8191#13, 31#5, true, 31#24⟩
def argM : MArgs := ⟨1#3, true, 63#6, 1#5, 1#12, 0xFFFFFF#24⟩

theorem witness_VectorControlFlow : ∀ i ∈ [Instr.vcNop 3, .vcReservedOpcode 3 0xFF#8, .br 3 argB, .brp 3 argB],
    VcReady 3 i (ready i) := by
  simp (disch := exact id (by with_unfolding_all rfl)) only [vcReady_still]; decide +kernel
theorem witness_VectorScalar : (∀ op ∈ scalarOps 3 argS, VcReady 3 op.1 (ready op.1))
    ∧ ∀ i ∈ [Instr.sli 3 argS, .slih 3 argS], VcReady 3 i (ready i) := by
  simp (disch := exact id (by with_unfolding_all rfl)) only [vcReady_still]; decide +kernel
theorem witness_VectorIntegerElements : ∀ a ∈ argsR, ∀ op ∈ intOps 3 a, VcReady 3 op.1 (ready op.1) := by
  simp (disch := exact id (by with_unfolding_all rfl)) only [vcReady_still]; decide +kernel
theorem witness_VectorLaneResults : ∀ a ∈ argsR, (∀ op ∈ lane1Ops 3 a, VcReady 3 op.1 (ready op.1))
    ∧ (∀ op ∈ lane2Ops 3 a, VcReady 3 op.1 (ready op.1))
    ∧ ∀ i ∈ [Instr.fma 3 a, .fnms 3 a, .fredmax 3 a, .fredmin 3 a], VcReady 3 i (ready i) := by
  simp (disch := exact id (by with_unfolding_all rfl)) only [vcReady_still]; decide +kernel
theorem witness_VectorMoves : ∀ a ∈ argsR, ∀ i ∈ [Instr.vsel 3 a, .vbcs 3 a, .vli 3 ⟨1#3, true, 3#2, 5#6, 6#6, 0xFFFFFFFF#32⟩,
    .viota 3 a, .vperm 3 a, .vtos 3 a, .vsetl 3 a], VcReady 3 i (ready i) := by
  simp (disch := exact id (by with_unfolding_all rfl)) only [vcReady_still]; decide +kernel
theorem witness_VectorPredicates : ∀ a ∈ argsR, (∀ op ∈ predOps 3 a, VcReady 3 op.1 (ready op.1))
    ∧ ∀ i ∈ [Instr.icmp 3 a, .fcmp 3 a, .pfirst 3 a, .pcnt 3 a], VcReady 3 i (ready i) := by
  simp (disch := exact id (by with_unfolding_all rfl)) only [vcReady_still]; decide +kernel
theorem witness_FloatSpecials : isNaN32 0x7F800001#32 = true ∧ isNaN32 0xFFFFFFFF#32 = true ∧ isNaN32 0x3F800000#32 = false
    ∧ isInf32 0x7F7FFFFF#32 = false ∧ isNaN32 0x7F7FFFFF#32 = false ∧ isZero32 1#32 = false ∧ isNaN32 1#32 = false
    ∧ (0x80000000#32 : W32).toNat % 2 ^ 31 = 0 ∧ (0x80000001#32 : W32).msb = true
    ∧ (0x80000001#32 : W32).toNat % 2 ^ 31 ≠ 0 := by decide
theorem witness_VectorConversions : ∀ a ∈ argsR, (∀ op ∈ widenOps 3 a, VcReady 3 op.1 (ready op.1))
    ∧ (∀ op ∈ narrowOps 3 a, VcReady 3 op.1 (ready op.1))
    ∧ ∀ i ∈ [Instr.cvtfi 3 a, .cvtf8 3 a], VcReady 3 i (ready i) := by
  simp (disch := exact id (by with_unfolding_all rfl)) only [vcReady_still]; decide +kernel
/-- MOD[3:0] of 15 and 4 is no MX format; 5 and 10 are the first and the last. -/
theorem witness_VectorBlocks : (∀ a ∈ argsR, ∀ i ∈ [Instr.mxpack 3 a, .mxunpk 3 a, .inarrow 3 a, .iwiden 3 a],
      VcReady 3 i (ready i))
    ∧ ∀ md ∈ [5#10, 10#10, 4#10, 11#10], let a : RArgs := ⟨0#3, false, 0#2, 1#6, 2#6, 3#6, 0#6, md⟩
      (decide (5 ≤ md.toNat % 16 ∧ md.toNat % 16 ≤ 10) = (md == 5#10 || md == 10#10))
        ∧ VcReady 3 (.mxpack 3 a) (ready (.mxpack 3 a)) ∧ VcReady 3 (.mxunpk 3 a) (ready (.mxunpk 3 a)) := by
  simp (disch := exact id (by with_unfolding_all rfl)) only [vcReady_still]; decide +kernel
theorem witness_VectorExactSums : ∀ a ∈ argsX, ∀ i ∈ [Instr.xclr 3 a, .xadd 3 a, .xmac 3 a, .xrec 3 a, .xfold 3 a,
    .xdrain 3 a, .xout 3 a], VcReady 3 i (ready i) := by
  simp (disch := exact id (by with_unfolding_all rfl)) only [vcReady_still]; decide +kernel
theorem witness_VectorIssueBeat : ∀ a ∈ argsR, ∀ i ∈ [Instr.iadd 3 a, .isub 3 a, .vand 3 a, .vxor 3 a],
    VcReady 3 i (ready i) := by
  simp (disch := exact id (by with_unfolding_all rfl)) only [vcReady_still]; decide +kernel

/-! ### Memories, queues, bells and posts of the vector core -/

/-- A bound handle: row mode or grid mode, slice or tile place, first row, last row offset. -/
def entry (perHall grid : Bool) (slice row0 lenm1 : Nat) : HandleEntry :=
  ⟨Pair64.of (1#1 ++ BitVec.ofBool perHall ++ 0#2 ++ BitVec.ofBool grid ++ 0#1 ++ BitVec.ofNat 8 slice ++ BitVec.ofNat 14 row0
    ++ BitVec.ofNat 14 lenm1 ++ 0#22), Pair64.of 0#64⟩

def withHandle (s : State) (k : Nat) (e : HandleEntry) : State :=
  { s with ld := { s.ld with handles := SMap.set HandleEntry.unbound s.ld.handles k e } }
def withBell (s : State) (k : Nat) (n : BitVec 48) : State :=
  { s with pb := { s.pb with bells := SMap.set (Pair64.of 0#64) s.pb.bells k (Pair64.of (n.setWidth 64)) } }
def withPost (s : State) (k : Nat) (p : Post) : State :=
  { s with pb := { s.pb with posts := SMap.set Post.empty s.pb.posts k p } }
def guarded (s : State) : State := { s with job := { s.job with check := 2#8 } }

/-- Handle 5: two rows of the hall's own slice; handle 6: ten rows of a grid region. -/
def handled : State := withHandle (withHandle running 5 (entry true false 2 100 1)) 6 (entry true true 1 40 9)
def memArgs (k : Nat) : MArgs := ⟨0#3, false, 1#6, 0#5, BitVec.ofNat 12 k, 0#24⟩

theorem witness_VectorMemoryAccess_pantry : ∀ i ∈ [Instr.sld 3 argM, .sst 3 argM, .vld 3 argM, .vst 3 argM],
    VcReady 3 i (ready i) ∧ (ready i).ld.runs = [] := by simp (disch := exact id (by with_unfolding_all rfl)) only [vcReady_still]; decide +kernel
/-- The last two rows of each region, in trusting and in guarded mode. -/
theorem witness_VectorMemoryAccess_rows : ∀ s ∈ [handled, guarded handled], ∀ wr ∈ [true, false],
    rowsGood s 3 5 0 wr ∧ rowsGood s 3 6 8 wr := by unfold rowsGood; decide +kernel
theorem witness_VectorMemoryAccess_larder : ∀ i ∈ [Instr.lld 3 (memArgs 5), .lst 3 (memArgs 6)],
    VcReady 3 i (atV handled vcore0 i) ∧ (atV handled vcore0 i).ld.runs = [] := by simp (disch := exact id (by with_unfolding_all rfl)) only [vcReady_still]; decide +kernel
/-- One row beyond the region. -/
theorem witness_VectorMemoryAccess_beyond : let a : MArgs := { memArgs 5 with offset := 2#24 }
    let e := handled.handle (hallTower 3) 5
    (∀ i ∈ [Instr.lld 3 a, .lst 3 a], VcReady 3 i (atV handled vcore0 i) ∧ (atV handled vcore0 i).ld.runs = []) ∧ e.ok = true ∧ e.valid = true
      ∧ e.lenm1 < rowPlace vcore0 a := by simp (disch := exact id (by with_unfolding_all rfl)) only [vcReady_still]; decide +kernel

/-- Both queues of hall 3 hold one visible entry of one granule. -/
def tiled : State :=
  let q : Ftq := ⟨[⟨0x1234001#64, [(0, 9#8)], 10⟩], 1, 1, 12, 0, []⟩
  { running with ftq := [(6, q), (7, q)] }
def tldArgs : MArgs := ⟨0#3, false, 1#6, 0#5, 1#12, 0xFFFFFF#24⟩
def onQueue : VCore := { vcore0 with hold := .queue true 20 }

theorem witness_VectorQueues : ∀ i ∈ [Instr.twait 3 argC, .tld 3 tldArgs, .trel 3 argC],
    VcReady 3 i (atV tiled vcore0 i) ∧ VcReady 3 i (ready i)
      ∧ headSeen (atV tiled vcore0 i) 3 true ∧ ¬ headSeen (ready i) 3 true := by
  unfold headSeen; simp (disch := exact id (by with_unfolding_all rfl)) only [vcReady_still]; decide +kernel
theorem witness_VectorQueues_twait : heldAtQueue (atV tiled onQueue (.twait 3 argC)) 3 (.twait 3 argC) true ∧ calm (atV tiled onQueue (.twait 3 argC)) := by
  rw [calm_still rfl]; unfold heldAtQueue headSeen
  exact ⟨⟨by decide +kernel, by decide +kernel, by decide +kernel, ⟨20, by decide +kernel⟩, by decide +kernel, by decide +kernel⟩,
    by decide +kernel⟩
theorem witness_VectorQueues_tld : heldAtQueue (atV tiled onQueue (.tld 3 tldArgs)) 3 (.tld 3 tldArgs) true ∧ calm (atV tiled onQueue (.tld 3 tldArgs)) := by
  rw [calm_still rfl]; unfold heldAtQueue headSeen
  exact ⟨⟨by decide +kernel, by decide +kernel, by decide +kernel, ⟨20, by decide +kernel⟩, by decide +kernel, by decide +kernel⟩,
    by decide +kernel⟩
theorem witness_VectorQueues_trel : heldAtQueue (atV tiled onQueue (.trel 3 argC)) 3 (.trel 3 argC) true ∧ calm (atV tiled onQueue (.trel 3 argC)) := by
  rw [calm_still rfl]; unfold heldAtQueue headSeen
  exact ⟨⟨by decide +kernel, by decide +kernel, by decide +kernel, ⟨20, by decide +kernel⟩, by decide +kernel, by decide +kernel⟩,
    by decide +kernel⟩

/-- PACE at its beat, one beat early and one beat late: it could issue on beat 40. -/
def paceArgs (k : Nat) : CArgs := { argC with imm := BitVec.ofNat 24 k }
def paced : VCore := { vcore0 with mark := 30#64, nextIssue := 40 }
theorem witness_VectorTime : ∀ k ∈ [9, 10, 11], ∀ s ∈ [running, guarded running],
    let i := Instr.pace 3 (paceArgs k)
    let t := atV s paced i
    VcReady 3 i t ∧ vcBeat (t.vcore 3) ⟨unitC, [markKey], [], 1, 1, false⟩ = 40
      ∧ (t.vcore 3).mark.toNat + (paceArgs k).imm.toNat + t.integ.jobOffset = 30 + k := by simp only [List.mem_cons, List.not_mem_nil, or_false, forall_eq_or_imp, forall_eq]; simp (disch := exact id (by with_unfolding_all rfl)) only [vcReady_still]; decide +kernel
theorem witness_VectorTime_held : let s := atV running { vcore0 with hold := .pace 60 } (.vcNop 3)
    s.hallEnabled 3 = true ∧ s.active = true ∧ (s.vcore 3).running = true ∧ (s.vcore 3).hold = .pace 60 ∧ calm s := by
  simp (disch := exact id (by with_unfolding_all rfl)) only [calm_still]; decide +kernel
theorem witness_VectorTime_marks : ∀ i ∈ [Instr.mark 3 argC, .vcStatus 3 argC], VcReady 3 i (ready i) := by
  simp (disch := exact id (by with_unfolding_all rfl)) only [vcReady_still]; decide +kernel

/-- A WAIT whose target is the bell's count (met), and one above it (not met); bell 100 is STEP_BELL. -/
def waitArgs (bell : BitVec 13) : CArgs := { argC with bell := bell }
def launched : State := { withBell running 100 4#48 with job := { running.job with launches := 4#64 } }
def aiming (n : W64) : VCore := { vcore0 with s := [(1, n)] }
theorem witness_VectorBells_wait : let i := Instr.vcWait 3 (waitArgs 8191#13)
    let j := Instr.vcWait 3 (waitArgs 100#13)
    VcReady 3 i (atV (withBell running 8191 7#48) (aiming 7#64) i)
      ∧ VcReady 3 i (atV (withBell running 8191 7#48) (aiming 8#64) i)
      ∧ bellMeets 7#48 7#48 ∧ ¬ bellMeets 7#48 8#48 ∧ bellMeets 0#48 0x800000000001#48
      ∧ ((withBell running 8191 7#48).bell 0 8191).ok = true
      ∧ VcReady 3 j (atV launched (aiming 4#64) j) ∧ launched.launchWait 100#13 4#48 = true
      ∧ launched.launchWait 8191#13 4#48 = false := by unfold bellMeets; simp (disch := exact id (by with_unfolding_all rfl)) only [vcReady_still]; decide +kernel
theorem witness_VectorBells_held : let s := atV running { vcore0 with hold := .bell 9#13 3#48 20 (some 24) } (.vcNop 3)
    s.hallEnabled 3 = true ∧ s.active = true ∧ (s.vcore 3).running = true
      ∧ (s.vcore 3).hold = .bell 9#13 3#48 20 (some 24) ∧ calm s := by
  simp (disch := exact id (by with_unfolding_all rfl)) only [calm_still]; decide +kernel
theorem witness_VectorBells_signal : let s := atV running { vcore0 with signals := [⟨8191#13, 0xFFFF#16, 30, 0⟩] } (.vcNop 3)
    s.hallEnabled 3 = true ∧ s.active = true ∧ (s.vcore 3).signals = [⟨8191#13, 0xFFFF#16, 30, 0⟩]
      ∧ (s.bell 0 8191).ok = true ∧ calm s ∧ ∀ n ∈ [0, 0x10000, 1], let i := Instr.vcSignal 3 (paceArgs n); VcReady 3 i (ready i) := by
  simp (disch := exact id (by with_unfolding_all rfl)) only [vcReady_still, calm_still]; decide +kernel

/-- Word D0 of a post descriptor to post `p` of core 2 of hall 2 of tower 0. -/
def postTo (p : BitVec 5) (want : Bool) : W64 :=
  0#1 ++ 0#16 ++ 0#2 ++ 2#6 ++ 2#2 ++ p ++ 0xBEEF#16 ++ 0x12#8 ++ BitVec.ofBool want ++ 0#1 ++ 0#6
/-- Granule 1 of hall 3's vector Pantry holds the descriptor. -/
def withDescriptor (w : W64) (s : State) : State :=
  { s with
    pantry := SMap.set [] s.pantry (vPantryKey 3)
      (s.pantryOf (vPantryKey 3) ++ (littleEndian w.toNat 8).filterMap fun e => if e.2 = 0#8 then none else some (32 + e.1, e.2)) }
def atOne : VCore := { vcore0 with s := [(1, 1#64)] }
theorem witness_VectorSends_desc : ∀ n ∈ [0, 16, 17, 31], let i := Instr.desc 3 (paceArgs n); VcReady 3 i (ready i) := by
  simp (disch := exact id (by with_unfolding_all rfl)) only [vcReady_still]; decide +kernel
theorem witness_VectorSends_psend : let i := Instr.psend 3 argC
    ∀ s ∈ [withDescriptor (postTo 15#5 false) (atV running atOne i),
      withDescriptor (postTo 31#5 true) (atV running atOne i)],
    let d : PostDesc := BitVec.ofNat 256 (vBytes s 3 32 32)
    VcReady 3 i s ∧ s.postFault d = 0 ∧ (s.stage 3).entries.length < 8 ∧ ¬ (d.wantReply = true ∧ d.post < 16) := by
  simp only [List.mem_cons, List.not_mem_nil, or_false, forall_eq_or_imp, forall_eq]; simp (disch := exact id (by with_unfolding_all rfl)) only [vcReady_still]; decide +kernel
/-- The reply post 31 of hall 3's vector core is empty, or holds one descriptor. -/
def oneIn : Post := ⟨Pair32.of 1#32, Pair32.of 0#32, 0, false, [⟨7#256, 20⟩], [], 0, 0⟩
def recvArgs : CArgs := { argC with imm := 0#24 }
theorem witness_VectorSends_precv : let i := Instr.precv 3 recvArgs
    let s := atV (withPost running (96 * 3 + 64 + 31) oneIn) vcore0 i
    VcReady 3 i (ready i) ∧ ((ready i).post (precvPost 3 recvArgs)).slots = [] ∧ VcReady 3 i s
      ∧ (s.post (precvPost 3 recvArgs)).slots = [⟨7#256, 20⟩] ∧ (s.post (precvPost 3 recvArgs)).pairsOk = true := by
  simp (disch := exact id (by with_unfolding_all rfl)) only [vcReady_still]; decide +kernel
theorem witness_VectorSends_held : let i := Instr.precv 3 recvArgs
    let s := atV (withPost running (96 * 3 + 64 + 31) oneIn) { vcore0 with hold := .post (96 * 3 + 64 + 31) 22 } i
    s.hallEnabled 3 = true ∧ s.active = true ∧ (s.vcore 3).running = true
      ∧ (s.vcore 3).hold = .post (precvPost 3 recvArgs) 22 ∧ decodeVector 3 (s.vcFetch 3) = i
      ∧ (s.post (precvPost 3 recvArgs)).slots = [⟨7#256, 20⟩] ∧ (s.post (precvPost 3 recvArgs)).pairsOk = true ∧ s.ld.runs = [] := by
  decide +kernel

/-! ### Matrix cores -/

/-- Matrix core 6, M0 of hall 3, runs and has the word of `i` at its address, 0. -/
def atM (s : State) (m : MCore) (i : Instr) : State :=
  { s with
    mc := SMap.set MCore.idle s.mc 6 { m with running := true, pc := 0 }
    pantry := SMap.set [] s.pantry (mPantryKey 6) (wordAtZero ((matrixWord i).getD 0#64)) }
def mcore0 : MCore := MCore.idle
def mready (i : Instr) : State := atM running mcore0 i
def loadArgs (src : Bool) (h : BitVec 12) : LoadwArgs := ⟨true, src, 5#4, 2#3, true, 3#3, true, h, true, 0#8⟩
def accArgs : AccArgs := ⟨false, false, 3#4, 0#3, true, 1#3, true, 3#2, 127#7, 1#7, true, true, 0x200#10⟩
def drainArgs (f : BitVec 4) : DrainArgs := ⟨3#2, f, 3#2, 3#2, 0#2, 127#7, 1#7, 0x80#8, true, true, true, 77#16⟩

theorem witness_MatrixControl : ∀ i ∈ [Instr.mcNop 6, .mcReservedOpcode 6 0x3F#6, .mcEnd 6, .mcLoop 6 ⟨0#24, 5#12⟩,
    .mcLoop 6 ⟨1#24, 0xFFF#12⟩], McReady 6 i (mready i) := by simp (disch := exact id (by with_unfolding_all rfl)) only [mcReady_still]; decide +kernel
/-- An innermost loop that ends here with runs left, one that ends with none left, and one that does not end here. -/
theorem witness_MatrixControl_loops : ∀ f ∈ [(⟨0, 1, 2⟩ : LoopFrame), ⟨0, 1, 1⟩, ⟨0, 2, 1⟩],
    let s := atM running { mcore0 with loops := [f, ⟨0, 9, 3⟩] } (.mcNop 6)
    McReady 6 (.mcNop 6) s ∧ (s.mcore 6).loops = [f, ⟨0, 9, 3⟩] ∧ ∀ g ∈ [(⟨0, 9, 3⟩ : LoopFrame)], (s.mcore 6).pc + 1 ≠ g.stop := by
  simp (disch := exact id (by with_unfolding_all rfl)) only [mcReady_still]; decide +kernel
theorem witness_MatrixRegisters : ∀ i ∈ [Instr.mcSeta 6 ⟨7#3, 0xFFFF#16, 0xFFFFFF#24⟩, .mcSetw 6 ⟨15#4, 0xFFFFFFFFFFFF#48⟩,
    .mcSetr 6 ⟨1#8, 5#32⟩, .mcSetr 6 ⟨3#8, 5#32⟩, .mcSetr 6 ⟨4#8, 5#32⟩, .mcStatus 6 0xFF#8], McReady 6 i (mready i) := by
  simp (disch := exact id (by with_unfolding_all rfl)) only [mcReady_still]; decide +kernel

def mwait (bell : BitVec 13) : MWaitArgs := ⟨bell, 15#4, 4#16⟩
theorem witness_MatrixBells_wait : let i := Instr.mcWait 6 (mwait 8191#13)
    let j := Instr.mcWait 6 (mwait 100#13)
    (∀ s ∈ [withBell running 8191 3#48, withBell running 8191 4#48], McReady 6 i (atM s mcore0 i)
      ∧ (s.bell 0 8191).ok = true)
      ∧ SMap.get 0#48 mcore0.wt 15 + (mwait 100#13).step.setWidth 48 = 4#48 ∧ bellMeets 4#48 4#48 ∧ ¬ bellMeets 3#48 4#48
      ∧ McReady 6 j (atM launched mcore0 j) ∧ (launched.bell 0 100).ok = true ∧ launched.launchWait 100#13 4#48 = true
      ∧ launched.launchWait 8191#13 4#48 = false := by simp only [List.mem_cons, List.not_mem_nil, or_false, forall_eq_or_imp, forall_eq]; simp (disch := exact id (by with_unfolding_all rfl)) only [mcReady_still]; decide +kernel
theorem witness_MatrixBells_held : ∀ k ∈ [(.bell 9#13 3#48 20 (some 24) : MHold), .entry 15#4 24],
    let s := atM running { mcore0 with hold := k } (.mcNop 6)
    s.hallEnabled 3 = true ∧ s.active = true ∧ (s.mcore 6).running = true ∧ (s.mcore 6).hold = k ∧ calm s := by
  simp (disch := exact id (by with_unfolding_all rfl)) only [calm_still]; decide +kernel
theorem witness_MatrixBells_vector : let s := atV running { vcore0 with hold := .entry 15#4 24 } (.vcNop 3)
    s.hallEnabled 3 = true ∧ s.active = true ∧ (s.vcore 3).running = true ∧ (s.vcore 3).hold = .entry 15#4 24 ∧ calm s := by
  simp (disch := exact id (by with_unfolding_all rfl)) only [calm_still]; decide +kernel
theorem witness_MatrixBells_signal : (∀ i ∈ [Instr.mcSignal 6 ⟨8191#13, 0#16⟩, .mcSignal 6 ⟨8191#13, 0xFFFF#16⟩], McReady 6 i (mready i))
    ∧ let s := atM running { mcore0 with signals := [⟨8191#13, 0xFFFF#16, 30, 0⟩] } (.mcNop 6)
    s.hallEnabled 3 = true ∧ s.active = true ∧ (s.mcore 6).signals = [⟨8191#13, 0xFFFF#16, 30, 0⟩] ∧ 0 ≤ (s.queue 6).seen
      ∧ (s.bell 0 8191).ok = true ∧ calm s := by simp (disch := exact id (by with_unfolding_all rfl)) only [mcReady_still, calm_still]; decide +kernel

/-- Handle 7 has the 26 rows that a tile of format 5 takes with its scales. -/
def loadable : State := withHandle running 7 (entry true false 0 100 100)
theorem witness_MatrixLoads : (∀ i ∈ [Instr.mcLoadw 6 (loadArgs false 0#12), .mcSetkeys 6 ⟨7#3, true⟩], McReady 6 i (mready i) ∧ (mready i).ld.runs = [])
    ∧ let i := Instr.mcLoadw 6 (loadArgs true 7#12)
    McReady 6 i (atM loadable mcore0 i) ∧ (atM loadable mcore0 i).ld.runs = []
      ∧ accessGood loadable 6 7 (loadwRows mcore0 (loadArgs true 7#12)) := by
  unfold accessGood; simp (disch := exact id (by with_unfolding_all rfl)) only [mcReady_still]; decide +kernel
/-- The region ends after the first row. -/
theorem witness_MatrixLoads_beyond : let i := Instr.mcLoadw 6 (loadArgs true 5#12)
    let rows := loadwRows mcore0 (loadArgs true 5#12)
    let e := handled.handle (mcTower 6) 5
    McReady 6 i (atM handled mcore0 i) ∧ (atM handled mcore0 i).ld.runs = [] ∧ e.ok = true ∧ e.valid = true ∧ 2 ∈ rows ∧ e.lenm1 < 2
      ∧ ∀ o' ∈ rows.takeWhile (· != 2), o' ≤ e.lenm1 := by simp (disch := exact id (by with_unfolding_all rfl)) only [mcReady_still]; decide +kernel
theorem witness_MatrixAccumulate : let i := Instr.mcAcc 6 accArgs; McReady 6 i (mready i) ∧ (mready i).ld.runs = [] := by simp (disch := exact id (by with_unfolding_all rfl)) only [mcReady_still]; decide +kernel
theorem witness_MatrixDrains : ∀ i ∈ [Instr.mcClear 6 3#2, .mcDrain 6 (drainArgs 4#4), .mcDrain 6 (drainArgs 0xF#4)],
    McReady 6 i (mready i) := by simp (disch := exact id (by with_unfolding_all rfl)) only [mcReady_still]; decide +kernel
/-- The queue of core 6 holds seven entries or eight, an entry waits to be seen, a drain has one to write or waits. -/
def queueOf (n : Nat) (seen : Nat) (rel : List Nat) : Ftq := ⟨List.replicate n ⟨1#64, [], 10⟩, n, seen, 12, 0, rel⟩
def piece0 : DrainPiece := ⟨1#64, [], 0x02#8, 26, 30, true, 0⟩
def draining (n seen : Nat) (w : Option Nat) (rel : List Nat) (s : State) : State :=
  { atM s { mcore0 with pieces := [piece0], drainWait := w } (.mcNop 6) with ftq := [(6, queueOf n seen rel)] }
theorem witness_MatrixDrains_queue : ∀ s ∈ [running, guarded running],
    (∀ n ∈ [7, 8], let t := draining n n none [] s
      t.hallEnabled 3 = true ∧ t.active = true ∧ calm t ∧ (t.queue 6).written ≤ (t.queue 6).seen
        ∧ (t.mcore 6).pieces = [piece0] ∧ (t.mcore 6).drainWait = none ∧ standing (t.queue 6) piece0.first = n)
    ∧ (let t := draining 7 6 none [] s; (t.queue 6).seen < (t.queue 6).written ∧ t.active = true ∧ calm t)
    ∧ let t := draining 7 7 (some 33) [60, 40, 33] s
      t.active = true ∧ calm t ∧ (t.mcore 6).drainWait = some 33
        ∧ ((t.queue 6).releases.filter fun r => decide (33 < r)).getLast? = some 40 := by
  simp only [List.mem_cons, List.not_mem_nil, or_false, forall_eq_or_imp, forall_eq]; simp (disch := exact id (by with_unfolding_all rfl)) only [calm_still]; decide +kernel

/-! ### Cellar stacks -/

/-- A stream of `count` blocks of 512 B from address `addr` of tower porter 2, for a descriptor that started on beat 20. -/
def stream (write : Bool) (addr count started : Nat) (slots : List Nat) : CellarStream :=
  ⟨2, 2#8, 20, write, addr, 512, count, 0, if write then [(0, 7#8), (513, 9#8)] else [], 512 * count, 40, 3, slots, started, 0,
    if write || started == 0 then [] else [(0, [(5, 6#8)])]⟩
def withStack (s : State) (k : Nat) (x : Stack) : State :=
  { s with cel := { s.cel with ctl := SMap.set Stack.reset s.cel.ctl k x } }
/-- Stack 0 has a stream that arrives next, and one after it; a stream's last block may lie beyond its capacity. -/
def arrivingAt (addr : Nat) : State :=
  withStack running 0 { Stack.reset with arriving := [{ stream false 0 1 0 [] with arrive := 50 }, stream true addr 2 0 []] }
/-- Streams of stack 16 under way: none of the first block has started, or it has. -/
def streaming (write : Bool) (started : Nat) : State :=
  withStack running 16 { Stack.reset with streams := [stream write 1024 2 started [7, 9]] }

theorem witness_CellarSchedule : (∀ k ∈ [0, 15, 16, 23], k < 24) ∧ placeOf 0 (2 ^ 34 + 512) = placeOf 0 (2 ^ 34 + 512) := by decide
theorem witness_CellarStreams : ∀ a ∈ [0, stackCapacity 0 - 1024, stackCapacity 0 - 512],
    calm (arrivingAt a) ∧ nextStream ((arrivingAt a).stack 0).arriving = some (stream true a 2 0 []) := by
  simp (disch := exact id (by with_unfolding_all rfl)) only [calm_still]; decide +kernel
/-- The last block that the stack has, and the first that it does not have. -/
theorem witness_CellarStreams_edge : (∀ b, b < 2 → (stackCapacity 0 - 1024) + 512 * b < stackCapacity 0)
    ∧ stackCapacity 0 ≤ (stackCapacity 0 - 512) + 512 * 1 ∧ ∀ b', b' < 1 → (stackCapacity 0 - 512) + 512 * b' < stackCapacity 0 := by
  decide
theorem witness_CellarTraffic_start : ∀ w ∈ [true, false], calm (streaming w 0)
    ∧ earliest (·.started) (((streaming w 0).stack 16).streams.filter fun c => decide (c.started < c.count))
      = some (stream w 1024 2 0 [7, 9]) := by
  simp (disch := exact id (by with_unfolding_all rfl)) only [calm_still]; decide +kernel
theorem witness_CellarTraffic_read : earliest (·.ended) (((streaming false 1).stack 16).streams.filter
    fun c => !c.write && decide (c.ended < c.started)) = some (stream false 1024 2 1 [7, 9]) ∧ calm (streaming false 1) := by
  simp (disch := exact id (by with_unfolding_all rfl)) only [calm_still]; decide +kernel
theorem witness_CellarTraffic_write : earliest (·.ended) (((streaming true 1).stack 16).streams.filter
    fun c => c.write && decide (c.ended < c.started)) = some (stream true 1024 2 1 [7, 9])
    ∧ (streaming true 1).cel.invalid = none ∧ calm (streaming true 1) := by
  simp (disch := exact id (by with_unfolding_all rfl)) only [calm_still]; decide +kernel
theorem witness_CellarTraffic_upkeep : running.boot.phase = .ready ∧ 105 * 65536 ≤ (0x00690000#32 : BitVec 32).toInt := by
  decide +kernel

/-! ### Porters -/

/-- W0 of a descriptor: OP, CAST, SIG, WT, CHAIN, 1 + N granules of 32 B. -/
def w0 (op cast : Nat) (sig wt chain : Bool) (n : Nat) : W64 :=
  BitVec.ofNat 4 op ++ 0#2 ++ BitVec.ofNat 2 cast ++ 0#4 ++ 0#1 ++ 0#2 ++ BitVec.ofBool sig ++ BitVec.ofBool wt ++ BitVec.ofBool chain
    ++ 0#2 ++ 0#4 ++ 0xBEEF#16 ++ BitVec.ofNat 24 n
/-- An endpoint's word: SPACE, REMOTE, tower 0, hall, core, handle, place. -/
def place (space : Nat) (remote : Bool) (hall core handle rest : Nat) : W64 :=
  BitVec.ofNat 2 space ++ BitVec.ofBool remote ++ 9#16 ++ 0#2 ++ BitVec.ofNat 6 hall ++ BitVec.ofNat 2 core ++ BitVec.ofNat 12 handle
    ++ BitVec.ofNat 23 rest
/-- W0, source, destination; the signal adds 1 to bell 8191 of tower 0, the wait is for bell 8190 to reach 2. -/
def descOf (a src dst : W64) : PDesc :=
  (0#64 ++ (8190#13 ++ 0#3 ++ 2#48 : W64) ++ (8191#13 ++ 0#2 ++ 1#16 ++ 0#33 : W64) ++ 0#64 ++ dst ++ 0#64 ++ src ++ a : BitVec 512)
/-- 256 B from the vector Pantry of hall 1 to that of hall 0. -/
def copyWith (sig wt chain : Bool) : PDesc := descOf (w0 1 0 sig wt chain 7) (place 0 false 1 2 0 100) (place 0 false 0 2 0 16383)
def handedOf (d : PDesc) (core : Option Nat) : Handed := ⟨d, 30, 11#8, 5#15, none, core⟩
def withPorter (s : State) (k : Nat) (p : Porter) : State := s.setPorter k p
/-- Tower porter 2 has descriptors in its queue, and one that it receives. -/
def receiving (n freed : Nat) (s : State) : State :=
  withPorter (atV s { vcore0 with hold := .desc 2 30 } (.vcNop 3)) 2 { Porter.idle with
    arriving := [handedOf (copyWith false false false) (some 3)], freedAt := freed
    queue := List.replicate n (handedOf (copyWith false false false) none) }
def queued (d : PDesc) (hold : Option StartHold) : State :=
  withPorter running 2 { Porter.idle with queue := [handedOf d none], hold := hold, startFree := 33 }

theorem witness_PorterReceipt : ∀ s ∈ [running, guarded running], ∀ n ∈ [14, 15, 16],
    let t := receiving n (if n = 15 then 30 else 99) s
    t.moverThere 2 = true ∧ calm t ∧ (t.porter 2).queue.length = n
      ∧ nextHanded ((t.awaitHand 2).porter 2).arriving = some (handedOf (copyWith false false false) (some 3))
      ∧ (n = 15 → (t.porter 2).freedAt ≤ 30) ∧ (t.vcore 3).hold = .desc 2 30 := by simp only [List.mem_cons, List.not_mem_nil, or_false, forall_eq_or_imp, forall_eq]; simp (disch := exact id (by with_unfolding_all rfl)) only [calm_still]; decide +kernel
/-- A NOP, and a COPY between Pantries, which waits for no bell or for bell 8190. -/
def nopWith : PDesc := descOf (w0 0 0 true false false 0) 0#64 0#64
theorem witness_PorterStart_nop : headReady (queued nopWith none) 2 (handedOf nopWith none) [] ∧ PDesc.op nopWith = 0
    ∧ PDesc.route nopWith < 3 ∧ PDesc.cast nopWith < 3 ∧ PDesc.cls nopWith < 3 ∧ PDesc.chain nopWith = false := by
  unfold headReady; simp (disch := exact id (by with_unfolding_all rfl)) only [calm_still]; decide +kernel
theorem witness_PorterStart_copy : let d := copyWith true false false
    pantryCopy (queued d none) 2 (handedOf d none) ∧ headReady (queued d none) 2 (handedOf d none) [] := by
  unfold headReady pantryCopy; simp (disch := exact id (by with_unfolding_all rfl)) only [calm_still]; decide +kernel
theorem witness_PorterStart_waits : let d := copyWith true true false
    PDesc.wt d = true ∧ PDesc.wt (copyWith true false false) = false ∧ PDesc.wtarget d = 2#48 ∧ PDesc.wbell d = 8190
      ∧ bellMeets ((withBell (queued d none) 8190 2#48).bell 0 8190).count (PDesc.wtarget d)
      ∧ ¬ bellMeets ((queued d none).bell 0 8190).count (PDesc.wtarget d) ∧ ((queued d none).bell 0 8190).ok = true
      ∧ headReady (withBell (queued d none) 8190 2#48) 2 (handedOf d none) [] := by
  unfold bellMeets headReady; simp (disch := exact id (by with_unfolding_all rfl)) only [calm_still]; decide +kernel
theorem witness_PorterStart_met : let s := queued (copyWith true true false) (some ⟨33, some 40⟩)
    s.moverThere 2 = true ∧ calm s ∧ (s.porter 2).queue = [handedOf (copyWith true true false) none]
      ∧ (s.porter 2).hold = some ⟨33, some 40⟩ := by simp (disch := exact id (by with_unfolding_all rfl)) only [calm_still]; decide +kernel
theorem witness_PorterStart_chain : let s := withPorter running 2 { Porter.idle with chain := [(11#8, 16383#15, 20)] }
    s.moverThere 2 = true ∧ calm s ∧ (s.porter 2).chain = [(11#8, 16383#15, 20)]
      ∧ (let m := (s.markAll [pantryBank 11 16383] 21).markAll [pantryBank 11 0] 22; m.ld.runs.any Run.pends = false ∧ m.moving = true) := by simp (disch := exact id (by with_unfolding_all rfl)) only [calm_still]; decide +kernel
/-- Refusals: a bad code, a chain to no tile, a cast to a stack, a hall porter's remote copy, a copy from one member to another,
and a stack address that is no block. -/
theorem witness_PorterAdmission :
    2 ≤ PDesc.op (descOf (w0 2 0 false false false 0) 0#64 0#64)
    ∧ (let d : PDesc := (144#8 ++ 0#56 : W64) ++ (copyWith false false true).extractLsb' 0 448
       PDesc.op d < 2 ∧ PDesc.chain d = true ∧ 144 ≤ PDesc.ntile d)
    ∧ (let fine := fun d : PDesc => PDesc.op d = 1 ∧ PDesc.route d < 3 ∧ PDesc.cls d < 3 ∧ PDesc.chain d = false
          ∧ (PDesc.src d).space < 3 ∧ (PDesc.dst d).space < 3 ∧ (PDesc.src d).core < 3 ∧ (PDesc.dst d).core < 3
       let p := place 0 false 1 2 0 100
       let far := place 0 true 1 2 0 100
       let c := descOf (w0 1 1 false false false 7) p (place 2 false 0 0 0 0)
       let r := descOf (w0 1 0 false false false 7) p far
       let b := descOf (w0 1 0 false false false 7) far far
       let a := descOf (w0 1 0 false false false 7) (place 2 false 0 0 0 511) p
       (fine c ∧ 0 < PDesc.cast c ∧ PDesc.cast c < 3 ∧ (PDesc.dst c).space = 2) ∧ (fine r ∧ PDesc.cast r = 0 ∧ (PDesc.dst r).remote = true)
        ∧ isHallPorter 64 = true ∧ isHallPorter 63 = false ∧ (fine b ∧ (PDesc.src b).remote = true ∧ (PDesc.dst b).remote = true)
        ∧ fine a ∧ PDesc.cast a = 0 ∧ (PDesc.src a).remote = false ∧ (PDesc.src a).space = 2 ∧ (PDesc.src a).addr % 512 ≠ 0) := by
  decide +kernel

/-- A transfer of porter 2 under way: its desc, source accesses made, bytes read, packets injected and on the way. -/
def going (d : PDesc) (reads bytes injected : Nat) (fl : List Flight) : Transfer :=
  { Transfer.begin d 20 11#8 5#15 with reads := reads, readBytes := bytes, injected := injected, flights := fl, buf := [(3, 7#8)] }
def moving (x : Transfer) : State := withPorter (withHandle handled 8 ⟨Pair64.of ((handled.handle 0 6).w0.v ||| (1#64 <<< 58)), Pair64.of 0#64⟩) 2
  { Porter.idle with active := [x] }
/-- 512 B from rows of handle 6 to a Pantry. -/
def rowCopy : PDesc := descOf (w0 1 0 false false false 15) (place 1 false 3 0 6 9) (place 0 false 0 2 0 0)
theorem witness_PorterReads : (∀ x ∈ [going (copyWith true false false) 0 0 0 [], going rowCopy 0 0 0 []],
    let s := moving x
    s.moverThere 2 = true ∧ calm s ∧ (s.transfers 2).find? (s.readsLeft 2) = some x
      ∧ x.reads < (PDesc.src x.desc).accesses (PDesc.bytes x.desc))
    ∧ (PDesc.src (copyWith true false false)).space = 0 ∧ (PDesc.src rowCopy).space = 1
    ∧ ((moving (going rowCopy 0 0 0 [])).rowsFault 2 (PDesc.src rowCopy) 3 0 512 false).isNone = true := by simp only [List.mem_cons, List.not_mem_nil, or_false, forall_eq_or_imp, forall_eq]; simp (disch := exact id (by with_unfolding_all rfl)) only [calm_still]; decide +kernel
theorem witness_PorterPackets : let x := going (copyWith true false false) 1 256 1 []
    let s := moving x
    s.moverThere 2 = true ∧ calm s ∧ (s.transfers 2).find? (s.injectable 2) = some x ∧ s.farSource x = false
      ∧ x.isServe = false ∧ s.farAway (PDesc.dst x.desc) = false := by simp (disch := exact id (by with_unfolding_all rfl)) only [calm_still]; decide +kernel
theorem witness_PorterPackets_landing : let x : Transfer := { going (copyWith true false false) 0 128 1 [] with supplied := some [(0, 1#8)] }
    let s := withPorter running 61 { Porter.idle with active := [x] }
    s.landingNext = some (61, x) ∧ calm s := by simp (disch := exact id (by with_unfolding_all rfl)) only [calm_still]; decide +kernel
/-- The last packet arrives: at a Pantry, at a grid region of word-atomic writes, and at a stack. -/
def arrivingTo (dst : W64) : Transfer := going (descOf (w0 1 0 true false false 7) (place 0 false 1 2 0 100) dst) 1 256 2 [⟨1, 0, 50⟩]
def arrives (x : Transfer) : Prop := let s := moving x
  s.moverThere 2 = true ∧ s.moving = true ∧ nextFlight (s.transfers 2) = some (x, ⟨1, 0, 50⟩) ∧ s.transferAt 2 x.start = some x ∧ 128 < PDesc.bytes x.desc
    ∧ x.flights.erase ⟨1, 0, 50⟩ = [] ∧ x.injected = PDesc.packets x.desc
theorem witness_PorterWrites_pantry : arrives (arrivingTo (place 0 false 0 2 0 16383)) := by unfold arrives; decide +kernel
theorem witness_PorterWrites_grid : arrives (arrivingTo (place 1 false 3 0 8 9)) := by unfold arrives; decide +kernel
theorem witness_PorterWrites_stack : arrives (arrivingTo (place 2 false 0 0 0 0)) := by unfold arrives; decide +kernel
theorem witness_PorterWrites_rows : let x := arrivingTo (place 1 false 3 0 8 9)
    let s := moving x
    let en := s.handle (x.destHall 0 / 48) (PDesc.dst x.desc).handle
    en.grid = true ∧ en.wordAtomic = true ∧ (s.rowsFault 2 (PDesc.dst x.desc) (x.destHall 0) 128 256 true).isNone = true := by
  decide +kernel
theorem witness_PorterCompletion : let x : Transfer := { going (copyWith true false false) 1 256 2 [] with lastWrite := 60 }
    let s := moving x
    s.moverThere 2 = true ∧ calm s ∧ (s.porter 2).active = [x] ∧ s.doneAt 2 x = some 60 ∧ isLoaderPorter 2 = false
      ∧ s.farAway (PDesc.dst x.desc) = false ∧ PDesc.sig x.desc = true ∧ PDesc.sinc x.desc ≠ 0 := by simp (disch := exact id (by with_unfolding_all rfl)) only [calm_still]; decide +kernel
/-- A write of another member's, all of whose packets have been written. -/
def inbound4 : State := { moving (going (copyWith true false false) 0 0 0 []) with por := { (moving (going (copyWith true false false) 0 0 0 [])).por with
    inbound := [(4, [{ going (copyWith true false false) 0 256 2 [] with closed := true, lastWrite := 70 }])] } }
theorem witness_PorterCompletion_fabric : inbound4.moving = true ∧ calm inbound4
    ∧ (inbound4.transfers (moverKey (.fabric 4))).findSome? (fun y =>
        (if y.isServe then none else inbound4.doneAt (moverKey (.fabric 4)) y).map fun c => (y.start, c)) = some (20, 70)
    ∧ (inbound4.transferAt (moverKey (.fabric 4)) 20).isSome = true := by
  rw [calm_still rfl]; decide +kernel
def signalling : State := withPorter running 2 { Porter.idle with signals := [⟨0, 8191, 1, 66, 0⟩] }
theorem witness_PorterCompletion_signal : signalling.moverThere 2 = true ∧ calm signalling
    ∧ nextSignal (signalling.signalsOf 2) = some ⟨0, 8191, 1, 66, 0⟩ ∧ (signalling.bell 0 8191).ok = true := by simp (disch := exact id (by with_unfolding_all rfl)) only [calm_still]; decide +kernel
/-- To the Pantry of another member, and its acknowledgement. -/
def remoteCopy : PDesc := descOf (w0 1 0 false false false 7) (place 0 false 1 2 0 100) (place 0 true 0 2 0 0)
def ackOf : BitVec 1024 := (PDesc.ackKey remoteCopy).setWidth 1024 <<< 64
/-- An acknowledgement that porter 2 waits for. -/
def acked : State := { withPorter running 2 { Porter.idle with active := [{ going remoteCopy 1 256 2 [] with acks := some 1 }] } with
    ranks := { running.ranks with acks := [ackOf] } }
theorem witness_PorterCompletion_ack : acked.ranks.acks = [ackOf]
    ∧ (acked.awaiting ((singleBody ackOf).setWidth 256)).isSome = true := by
  decide +kernel

/-! ### Posts, send stages and the watchdog -/

/-- To post 5 of core 2 of hall 0; a signal on bell 9 when it is settled. -/
def letter (remote : Bool) (rank : BitVec 16) (p : BitVec 5) : PostDesc :=
  (0#128 ++ (0#48 ++ 9#13 ++ 0#3 : W64) ++ (BitVec.ofBool remote ++ rank ++ 0#2 ++ 0#6 ++ 2#2 ++ p ++ 0xBEEF#16 ++ 0#8 ++ 0#1 ++ 1#1 ++ 0#6 : W64)
    : BitVec 256)
def withStage (s : State) (k : Nat) (g : Stage) : State :=
  { s with pb := { s.pb with stages := SMap.set Stage.empty s.pb.stages k g } }
def entryOf (n : BitVec 32) (d : PostDesc) (st : EntryState) : StageEntry := ⟨n, d, 16383, 20, st⟩
/-- The stage of hall 3 with an entry on its way, and one more. -/
def stagedWith (d : PostDesc) (st : EntryState) (s : State) : State :=
  withStage s 3 ⟨[entryOf 1#32 d .flying, entryOf 2#32 d st], 24, 2#32⟩
/-- Rank 1 of two lies behind port 4, which is up. -/
def paired (s : State) : State :=
  { s with
    ranks := { s.ranks with
      jobSize := 2#32, deskRank := 1#16, signposts := [(0, Pair64.of (1#1 ++ 1#16 ++ 16#5 ++ 4#5 ++ 0#37))] }
    eo := { s.eo with ports := [(4, { Port.reset with up := true })] } }

theorem witness_PostsClose_end : VcReady 3 (.vcEnd 3) (ready (.vcEnd 3)) := by simp (disch := exact id (by with_unfolding_all rfl)) only [vcReady_still]; decide +kernel
theorem witness_PostsClose_reset : (running.hallEnabled 3 && running.active) = true ∧ running.integ.window = none
    ∧ running.recentRewinds < 2 ∧ (∀ i, i < 96 → (running.post (96 * 3 + i)).waiting = []) ∧ calm running := by
  simp (disch := exact id (by with_unfolding_all rfl)) only [calm_still]; decide +kernel
def injects (d : PostDesc) : Prop := let s := stagedWith d .staged running
  s.active = true ∧ calm s ∧ ((s.awaitSend 3).stage 3).next = some (entryOf 2#32 d .staged) ∧ (entryOf 2#32 d .staged).held = none
    ∧ (s.stage 3).blocked = false ∧ s.away d = false ∧ (s.awaitSend 3).entryGated (entryOf 2#32 d .staged) = false
theorem witness_PostDelivery_inject : injects (letter false 0#16 5#5) := by unfold injects; simp (disch := exact id (by with_unfolding_all rfl)) only [calm_still]; decide +kernel
/-- The module's own rank is local. -/
theorem witness_PostDelivery_own : injects (letter true 0#16 5#5) := by unfold injects; simp (disch := exact id (by with_unfolding_all rfl)) only [calm_still]; decide +kernel
theorem witness_PostDelivery_away : let d := letter true 1#16 5#5
    let s := stagedWith d .staged (paired running)
    s.away d = true ∧ s.routeRank s.ranks.myRank (PostDesc.rank d) 0#16 = .port 4 := by decide +kernel
theorem witness_PostDelivery_refused : let d := letter false 0#16 5#5
    let s := stagedWith d (.refused 30 94) running
    s.active = true ∧ calm s ∧ (s.stage 3).entries.findSome? (fun e => match e.state with
      | .refused _ again => some (e, again) | _ => none) = some (entryOf 2#32 d (.refused 30 94), 94) := by
  exact ⟨by decide +kernel, (calm_still rfl).2 (by decide +kernel), by decide +kernel⟩

/-- A send of hall 3 or of another member arrives at post 69 (hall 0, core 2, post 5), or at 84 (post 20). -/
def flight (from_ : Sender) (p : BitVec 5) : PostFlight := ⟨from_, 2#32, letter false 0#16 p, 40⟩
def postWith (sent : BitVec 32) (reserved : Nat) (closed : Bool) (waiting : List PostArrival) : Post :=
  ⟨Pair32.of sent, Pair32.of 0#32, reserved, closed, List.replicate sent.toNat ⟨7#256, 20⟩, waiting, 0, 0⟩
def arrivingPost (from_ : Sender) (p : BitVec 5) (post : Post) : State :=
  let s := stagedWith (letter false 0#16 p) .flying running
  { withPost s (64 + p.toNat) post with pb := { (withPost s (64 + p.toNat) post).pb with flights := [flight from_ p] } }
/-- Open with 63 of 64, full, full with a slot reserved for a reply, and closed. -/
theorem witness_PostDelivery_arrives : ∀ from_ ∈ [Sender.core 3, .fabric 4],
    ∀ x ∈ [(5#5, postWith 63#32 0 false []), (5#5, postWith 64#32 0 false []), (20#5, postWith 63#32 1 false []), (5#5, postWith 0#32 0 true [])],
    let s := arrivingPost from_ x.1 x.2
    s.active = true ∧ s.hallEnabled 0 = true ∧ nextArrival (64 + x.1.toNat) s.pb.flights = some (flight from_ x.1)
      ∧ (s.post (64 + x.1.toNat)).pairsOk = true ∧ (s.post (64 + x.1.toNat)) = x.2
      ∧ (∃ e ∈ (s.stage 3).entries, e.num = 2#32) ∧ calm { s with pb := { s.pb with flights := s.pb.flights.erase (flight from_ x.1) } } := by
  simp (disch := exact id (by with_unfolding_all rfl)) only [calm_still]; decide +kernel
theorem witness_PostDelivery_full : (postWith 63#32 0 false []).hasFree = true ∧ (postWith 64#32 0 false []).hasFree = false
    ∧ (postWith 63#32 1 false []).hasFree = false := by decide +kernel
theorem witness_PostDelivery_accept : let w : PostArrival := ⟨.core 3, 2#32, letter false 0#16 5#5, 40⟩
    let s := arrivingPost (.core 3) 5#5 (postWith 63#32 0 false [w])
    (s.post 69).waiting = [w] ∧ (s.post 69).hasFree = true ∧ s.active = true ∧ (s.post 69).pairsOk = true ∧ calm s := by
  simp (disch := exact id (by with_unfolding_all rfl)) only [calm_still]; decide +kernel

/-- The outcome of a send of hall 3 or of the desk, whose copy stands in the last granule. -/
def outcomeTo (g : Nat) (closed : Bool) : State :=
  { running with pb := { running.pb with returns := [⟨g, 2#32, letter false 0#16 5#5, 16383, closed, 60⟩] } }
theorem witness_PostOutcomes : ∀ g ∈ [3, 192], ∀ c ∈ [true, false],
    nextReturn g (outcomeTo g c).pb.returns = some ⟨g, 2#32, letter false 0#16 5#5, 16383, c, 60⟩
      ∧ (outcomeTo g c).active = true ∧ PostDesc.ackSig (letter false 0#16 5#5) = true
      ∧ ((outcomeTo g c).bell (stageTower g) (PostDesc.abell (letter false 0#16 5#5))).ok = true ∧ calm (outcomeTo g c) := by
  simp (disch := exact id (by with_unfolding_all rfl)) only [calm_still]; decide +kernel

/-- The row of an object, and a write of `n` to it. -/
def rowOf (index sub : Nat) : ObjRow := (objRow index sub).getD ⟨0, 0, 0, 0, 0, 0, false, false⟩
def writing (index sub inst n : Nat) : DictWrite :=
  let r := rowOf index sub
  ⟨.kloder, BitVec.ofNat 16 inst, 7#16, BitVec.ofNat 8 r.type, BitVec.ofNat 16 r.size, 0#24, bytesLE n r.size⟩
def pairOf (w : W64) : Nat := w.toNat + 2 ^ 64 * (~~~ w).toNat

theorem witness_PostService_watchdog : let s := atV running { vcore0 with hold := .post 69 30 } (.precv 3 argC)
    s.active = true ∧ (firstHold s.holds).isSome = true ∧ calm s := by
  simp (disch := exact id (by with_unfolding_all rfl)) only [calm_still]; decide +kernel
theorem witness_PostService_bell : ∀ n ∈ [1, 2 ^ 47 - 1],
    let w := writing 0x9000 1 3 (pairOf (8191#13 ++ 0#3 ++ BitVec.ofNat 48 n))
    writeFits running 0x9000 1 w (rowOf 0x9000 1) ∧ (wpair w).ok = true ∧ w.inst.toNat = 3
      ∧ ((wpair w).v.extractLsb' 51 13).toNat = 8191 ∧ ((wpair w).v.extractLsb' 0 48).toNat = n
      ∧ (running.bell 3 8191).ok = true := by unfold writeFits; decide +kernel
theorem witness_PostService_leaves : ∀ s index sub inst n, replyLeaves s (writing index sub inst n) :=
  fun _ _ _ _ _ _ h => nomatch h
theorem witness_PostService_discard : let s := withPost running (96 * 191 + 95) oneIn
    let w := writing 0x9000 2 191 95
    writeFits s 0x9000 2 w (rowOf 0x9000 2) ∧ s.hallUp w.inst.toNat = true ∧ wnum w = 95
      ∧ (s.post (96 * w.inst.toNat + wnum w)).slots = [⟨7#256, 20⟩] ∧ (s.post (96 * w.inst.toNat + wnum w)).pairsOk = true := by unfold writeFits; decide +kernel

/-! ### Jobs -/

/-- A word of the staged image. -/
def staged (a : Nat) (w : W64) : Memory :=
  ((List.range 8).map fun k => (stagingBase + a + k, BitVec.ofNat 8 (w.toNat / 256 ^ k))).filter fun e => e.2 != 0#8
/-- A header of five pages; interval 7,200 or one less; one shape of one beat, one variant of one hall, no handle. -/
def imageWith (interval : BitVec 32) : Memory :=
  staged 0 0x5449524D00010000#64 ++ staged 8 (interval ++ 32#16 ++ 0#8 ++ 0x55#8) ++ staged 16 (0#16 ++ 15#4 ++ 1#5 ++ 1#7 ++ 100#13 ++ 0#19)
    ++ staged 24 0x1234#64 ++ staged 40 (1#32 ++ 0#32) ++ staged 48 (0#32 ++ 2#32) ++ staged 56 (4#32 ++ 5#32)
    ++ staged 4096 (1#8 ++ 0#56) ++ staged 4112 (2#32 ++ 3#32) ++ staged 4120 (2#32 ++ 0#32)
    ++ staged 12288 (1#16 ++ 0#16 ++ 1#32) ++ staged 12296 (1#16 ++ 0#16 ++ 2#32)
/-- The module without a job, and an image in staging. -/
def unloaded (m : Memory) : State := { running with job := Job.absent, cellar := [(stagingStack, m)] }
def loadWrite : DictWrite := writing 0xA010 1 0 20480

theorem witness_JobLoad : ∀ m ∈ [([] : Memory), imageWith 7199#32, imageWith 7200#32],
    writeFits (unloaded m) 0xA010 1 loadWrite (rowOf 0xA010 1) ∧ (unloaded m).boot.phase = .ready ∧ wnum loadWrite = 20480 := by
  unfold writeFits; decide +kernel
theorem witness_JobLoad_readable : ¬ imageReadable (unloaded []) 20480
    ∧ (∀ n ∈ [7199, 7200], imageReadable (unloaded (imageWith (BitVec.ofNat 32 n))) 20480) := by
  unfold imageReadable; decide +kernel
/-- The last block of the image cannot be read, and the first block beyond it. -/
theorem witness_JobLoad_staging : (∃ b : BitVec 24, (⟨2#24, some 39#24⟩ : StagingReads).bad = some b ∧ 512 * b.toNat < 20480)
    ∧ stagingGood 20480 ⟨0#24, none⟩ ∧ stagingGood 20480 ⟨3#24, some 40#24⟩ := by
  refine ⟨⟨39#24, by decide⟩, fun b h => ?_, fun b h => ?_⟩
  · cases h
  · obtain rfl := Option.some.inj h; decide
theorem witness_JobLoad_header : (unloaded (imageWith 7199#32)).headerOk = false ∧ (unloaded (imageWith 7200#32)).headerOk = true
    ∧ (unloaded (imageWith 7200#32)).imageSigned = false := by decide +kernel
/-- What is asked of the image once its signature stands; whether one does is a free value. -/
theorem witness_JobLoad_places : let s := unloaded (imageWith 7200#32)
    let v : Variant := ⟨0, 1, false, 0, 0#64, 2, 3, 2⟩
    s.chooseVariant 0#8 = some v ∧ s.shp.transitOnly = false ∧ s.partIn v.handleList (32 * v.nhandles) = true
      ∧ (s.bindings v (s.loadHalls.take v.halls) v.nhandles 0 []).2 = none
      ∧ (∀ i, i < v.halls → ∀ c, c < 3 → s.coreOk v i c = true) ∧ s.badShape v = none ∧ s.steadyOk = true := by decide +kernel
theorem witness_JobLoad_none : (unloaded (staged 16 0#64)).chooseVariant 0#8 = none := by decide +kernel

def armed (s : State) : State := { s with job := { s.job with loadState := 4#8, startBeat := 1825 } }
def atDesk (r : BitVec 8) (s : State) : State := { s with desk := { s.desk with role := r }, shp := { s.shp with timeState := 2#2 } }
theorem witness_ProgramsAndLaunches_start : (armed running).job.loadState = 4#8 ∧ (armed running).ranks.jobSize = 1#32 := by decide +kernel
theorem witness_ProgramsAndLaunches_several : let s := atDesk 1#8 (armed (paired running))
    s.job.loadState = 4#8 ∧ s.ranks.jobSize ≠ 1#32 ∧ s.desk.role = 1#8 ∧ s.shp.timeState = 2#2
      ∧ (∀ r ∈ [(⟨1#16, 0#256, true, false⟩ : MemberReport)], r.digest = s.job.digest ∧ r.locked = true)
      ∧ (∀ k, k < 2 → k ≠ s.ranks.myRank.toNat → ∃ r ∈ [(⟨1#16, 0#256, true, false⟩ : MemberReport)], r.rank.toNat = k)
      ∧ s.ranks.jobSize = 2#32
      ∧ [(⟨1#16, 0#256, true, false⟩ : MemberReport), ⟨0xFFFF#16, 1#256, true, false⟩].find? (fun r => r.digest != s.job.digest)
        = some ⟨0xFFFF#16, 1#256, true, false⟩ := by decide +kernel
theorem witness_ProgramsAndLaunches_follower : (atDesk 2#8 (armed (paired running))).ranks.jobSize ≠ 1#32
    ∧ (atDesk 2#8 (armed (paired running))).desk.role ≠ 1#8 := by decide
/-- A step of 100 beats that is under way, and one that has ended. -/
def stepping (launch : Nat) : State :=
  { running with job := { running.job with stepRunning := some (launch, 2#4), shapes := [(2, ⟨100#64, [0, 40]⟩)] }, milestone := 125 }
theorem witness_ProgramsAndLaunches_unload : (∀ s ∈ [stepping 25, stepping 26, unloaded []],
      writeFits s 0xA010 4 (writing 0xA010 4 0 1) (rowOf 0xA010 4)) ∧ (writing 0xA010 4 0 1).value = [1#8]
    ∧ (stepping 25).stepRuns = false ∧ (stepping 25).launchDecided = false ∧ (stepping 26).stepRuns = true
    ∧ (unloaded []).job.loadState = 0#8 := by unfold writeFits; decide +kernel
theorem witness_ProgramsAndLaunches_done : ({ running with job := { running.job with loadState := 7#8 } } : State).job.loadState = 7#8 := by decide

/-- The desk's boundary of beat 40 has composed the launch. -/
def decision : Decision := ⟨2#4, 40, 10, 0#8, false, true, false⟩
def composed : State := atDesk 1#8 { running with desk := { running.desk with
  decided := [decision], tab := { DeskTable.empty with launchAt := 40, boundary := some 40, stepOpen := true } } }
def following : State := atDesk 2#8 { running with desk := { running.desk with latched := [⟨1#64, 40, 2#4, 3#8, 3#8, 2#8⟩] } }
theorem witness_ProgramsAndLaunches_launch : composed.active = true ∧ composed.shp.transitOnly = false
    ∧ composed.job.stepBell.toNat < 8192 ∧ composed.desk.role = 1#8 ∧ composed.decisionAt composed.desk.tab.launchAt = some decision
    ∧ composed.desk.tab.boundary = some decision.at_ ∧ composed.desk.tab.stepOpen = true ∧ calm composed := by
  simp (disch := exact id (by with_unfolding_all rfl)) only [calm_still]; decide +kernel
theorem witness_ProgramsAndLaunches_followed : following.active = true ∧ following.desk.role ≠ 1#8
    ∧ following.desk.latched.find? (fun l => l.step == following.job.launches + 1) = some ⟨1#64, 40, 2#4, 3#8, 3#8, 2#8⟩
    ∧ calm following := by
  simp (disch := exact id (by with_unfolding_all rfl)) only [calm_still]; decide +kernel

/-- A commit at the launch of beat 25, or 40 beats into the step. -/
def committing (atStart : Bool) (s : State) : State :=
  { s with job := { s.job with
    stepRunning := some (25, 2#4), shapes := [(2, ⟨100#64, [0, 40]⟩)], nextCommit := 1,
    commitDue := if atStart then some 25 else none } }
theorem witness_QuiescenceAndCommits_commit : ∀ b ∈ [true, false], let s := committing b running
    s.desk.late = [] ∧ s.active = true ∧ s.shp.transitOnly = false
      ∧ s.nextCommitBeat = some (if b then (25, true) else (65, false)) ∧ (b && s.launchComes 25) = false
      ∧ (s.toProgram (if b then 25 else 65)).commitFailure b = none ∧ s.job.unloadPending = false ∧ calm s := by
  simp (disch := exact id (by with_unfolding_all rfl)) only [calm_still]; decide +kernel
/-- A send that is not settled. -/
theorem witness_QuiescenceAndCommits_slip : let s := committing false (stagedWith (letter false 0#16 5#5) .staged running)
    s.nextCommitBeat = some (65, false) ∧ (s.toProgram 65).commitFailure false = some (3, tileOf 3 2) ∧ calm s := by
  simp (disch := exact id (by with_unfolding_all rfl)) only [calm_still]; decide +kernel
def unconfirmed : State := { running with
  integ := { running.integ with unconfirmed := [(65, 60), (90, 85)] }
  desk := { running.desk with releases := [⟨60, .ack, [1#8]⟩, ⟨60, .ignored, []⟩, ⟨61, .token, [2#8]⟩] } }
theorem witness_QuiescenceAndCommits_confirm : unconfirmed.integ.unconfirmed = [(65, 60), (90, 85)] ∧ unconfirmed.job.loadState = 5#8 := by
  decide

/-! ### Clocks, operating points, power and heat -/

/-- Region 143 stretches, on its own margin, which is not below 5 since beat 20. -/
def stretching : State := { running with clock := { running.clock with regions := [(143, ⟨0x55555555#32, true, 20, 7⟩)], stretched := 7 } }
theorem witness_ClockRegions : marginOf 0xFFFFF2FF#32 = 2 ∧ marginOf 0xFFFFF3FF#32 = 3 ∧ marginOf 0x5FFFFFFF#32 = 5 ∧ marginOf 0xFFFFFFF4#32 = 4
    ∧ (SMap.get Region.idle stretching.clock.regions 143).own = true ∧ stretching.clock.refLost = false ∧ calm stretching
    ∧ 143 ∈ stretching.clock.regions.map Prod.fst ∧ stretching.shp.trimPpm = 0#32
    ∧ (SMap.get Region.idle running.clock.regions 143).own = false ∧ running.active = true ∧ running.integ.window = none
    ∧ running.recentRewinds < 2 := by
  simp (disch := exact id (by with_unfolding_all rfl)) only [calm_still]; decide +kernel
/-- Upper dies at 100 °C, the point 10 under a ceiling of 10. -/
def hotInputs : GovInputs := { measured 4 4 152 with upper := [0x00640000#32, 0#32, 0#32, 0#32] }
def ceiled : State := { running with clock := { running.clock with opCeiling := 10#8 } }
theorem witness_PowerControl_window : ceiled.boot.phase = .ready ∧ 65536 * 100 ≤ hottest hotInputs
    ∧ ceiled.clock.opRequest.toNat ≤ min ceiled.job.maxOp.toNat ceiled.clock.opCeiling.toNat ∧ hottest (measured 4 4 152) = 65536 * 50 := by
  decide +kernel
def resident (s : State) : State := { s with job := { s.job with placement := 1#8 } }
theorem witness_PowerControl_change : let s := resident { running with clock := { running.clock with opRequest := 9#8 } }
    s.clock.announced = none ∧ s.jobLoaded = true ∧ s.job.placement = 1#8 ∧ s.ranks.myRank = s.ranks.deskRank
      ∧ s.ranks.jobSize = 1#32 ∧ s.clock.opRequest ≠ s.clock.opNow ∧ running.job.placement ≠ 1#8 := by decide
theorem witness_PowerControl_announced : ({ running with clock := { running.clock with announced := some (9#8, 500) } } : State).clock.announced
    = some (9#8, 500) := by decide
theorem witness_PowerControl_hot : (105 * 65536 : Int) ≤ (0x00690000#32 : BitVec 32).toInt ∧ 4400 * 65536 < (0x11300001#32 : BitVec 32).toNat
    ∧ (110 * 65536 : Int) ≤ (0x006E0000#32 : BitVec 32).toInt ∧ ¬ (105 * 65536 : Int) ≤ (0x0068FFFF#32 : BitVec 32).toInt := by decide
/-- Each setting at the edge of its range, and beyond it. -/
theorem witness_PowerControl_settings : ∀ x ∈ [(0x1100, 1, 1), (0x1100, 1, 2), (0x2030, 3, 2000), (0x2030, 3, 4001), (0x2030, 4, 4200),
      (0x2030, 4, 1999), (0x2020, 3, 15), (0x2020, 3, 16), (0x2040, 4, 786432), (0x2040, 4, 786433), (0x1100, 8, 1)],
    writeFits (unloaded []) x.1 x.2.1 (writing x.1 x.2.1 0 x.2.2) (rowOf x.1 x.2.1) ∧ wnum (writing x.1 x.2.1 0 x.2.2) = x.2.2 := by
  unfold writeFits; decide +kernel

/-! ### Ports and lanes -/

def withPort (s : State) (n : Nat) (p : Port) : State := s.setPort n p
/-- Port 7 of a group whose spare lane trains. -/
def upPort : Port := { Port.reset with up := true, lock := true, lanesOk := 0xF#4, spareOk := true }
def linked (p : Port) : State := withPort running 7 p

theorem witness_PortsAndLanes_train : let s := linked { Port.reset with outq := [] }
    (s.port 7).role ≠ 0#8 ∧ (s.port 7).up = false ∧ s.boot.phase ≠ .off ∧ s.boot.phase ≠ .held ∧ s.integ.fatalState ≠ 1#8 ∧ s.tap.landsTaken = false
      ∧ (s.port 7).outq = [] ∧ (s.port 7).spared = false ∧ (s.spare 1).state ≠ 1 ∧ (s.spare 1).state ≠ 2 := by decide +kernel
/-- While a job is loaded, and while none is. -/
theorem witness_PortsAndLanes_down : (linked upPort).jobLoaded = true ∧ (linked upPort).integ.window = none
    ∧ ((linked upPort).port 7).up = true ∧ ({ linked upPort with job := Job.absent } : State).jobLoaded = false := by decide +kernel
/-- A signpost for ranks 1 to 2 of two whose only port is 7, and the parent behind port 7, with and without a second one. -/
theorem witness_PortsAndLanes_reshape : let a := { linked upPort with
      ranks := { running.ranks with jobSize := 2#32, signposts := [(0, Pair64.of (1#1 ++ 1#16 ++ 16#5 ++ 7#5 ++ 0#37))] } }
    let b := { linked upPort with shp := { running.shp with timeParent := 7#8 } }
    let c : State := { withPort (linked upPort) 9 upPort with shp := { running.shp with timeParent := 7#8, timeParent2 := 9#8 } }
    let after (s : State) : State := match exec (.portDown 7) s with | .next t => t | _ => s
    (after a).noDetour 7 = true ∧ (after b).noDetour 7 = false ∧ b.parentPort = 7 ∧ (linked upPort).parentPort ≠ 7
      ∧ c.shp.backup = false ∧ c.shp.timeParent2.toNat < 32 ∧ ((after c).port c.shp.timeParent2.toNat).carriesJob = true := by
  decide +kernel
theorem witness_PortsAndLanes_lost : let s := linked upPort
    (s.spare 1).state = 0 ∧ (s.port 7).up = true ∧ (s.port 7).swap = .none ∧ s.protected 7 = true ∧ s.swapOther 7 = none
      ∧ (linked { upPort with spareOk := false }).protected 7 = false := by decide +kernel
theorem witness_PortsAndLanes_swap : let s := linked { upPort with swap := .asked 2#2 20 }
    (s.port 7).up = true ∧ (s.port 7).swap = .asked 2#2 20 ∧ s.protected 7 = true
      ∧ (linked { upPort with swap := .steered 2#2 }).port 7 = { upPort with swap := .steered 2#2 } := by decide +kernel
/-- Lanes 3 and 4, and a swap under way. -/
theorem witness_PortsAndLanes_request : ∀ x ∈ [(3, upPort), (4, upPort), (3, { upPort with swap := .asked 2#2 20 }), (3, { upPort with spareOk := false })],
    writeFits (linked x.2) 0x4020 2 (writing 0x4020 2 7 x.1) (rowOf 0x4020 2) ∧ wnum (writing 0x4020 2 7 x.1) = x.1
      ∧ (writing 0x4020 2 7 x.1).inst = BitVec.ofNat 16 7 ∧ ((linked x.2).spare 1).state ≠ 1 ∧ ((linked x.2).swapOther 7).isSome = false := by
  unfold writeFits; decide +kernel

/-- A flit with a CRC that holds, one whose CRC fails, and one that is stomped. -/
def flitOf (type : BitVec 4) (cls : BitVec 3) (seq ack : BitVec 10) (hops : BitVec 6) (payload : BitVec 1024) : Flit :=
  let f : Flit := ⟨type ++ cls ++ 0#1 ++ seq ++ ack ++ 5#10 ++ hops ++ 0#20, payload, 0#32⟩
  { f with crc := f.computed }
def spoiled (f : Flit) : Flit := { f with crc := f.computed ^^^ 1#32 }
def stomped (f : Flit) : Flit := { f with crc := ~~~f.computed }
theorem crc_ne (x : BitVec 32) : x ≠ ~~~x ∧ x ^^^ 1#32 ≠ x ∧ x ^^^ 1#32 ≠ ~~~x := by
  refine ⟨fun h => ?_, fun h => ?_, fun h => ?_⟩
  · simpa using congrArg (·.getLsbD 0) h
  · simpa using congrArg (·.getLsbD 0) h
  · simpa using congrArg (·.getLsbD 1) h
/-- The CRC is no part of what it covers. -/
theorem computed_crc (f : Flit) (c : BitVec 32) : Flit.computed { f with crc := c } = f.computed := by
  unfold Flit.computed; rfl
theorem flitOf_crc (type : BitVec 4) (cls : BitVec 3) (seq ack : BitVec 10) (hops : BitVec 6) (payload : BitVec 1024) :
    (flitOf type cls seq ack hops payload).crc = (flitOf type cls seq ack hops payload).computed :=
  (computed_crc _ _).symm
/-- The CRC of a flit tells which of the three it is. -/
theorem test_crc_cases (f : Flit) (h : f.crc = f.computed) : f.crc ≠ ~~~f.computed ∧ (stomped f).crc = ~~~(stomped f).computed
    ∧ (spoiled f).crc ≠ ~~~(spoiled f).computed ∧ (spoiled f).crc ≠ (spoiled f).computed
    ∧ wellFormed (spoiled f) = false := by
  unfold stomped spoiled
  simp only [computed_crc, h]
  refine ⟨(crc_ne _).1, trivial, (crc_ne _).2.2, (crc_ne _).2.1, ?_⟩
  have : ((f.computed ^^^ 1#32) == f.computed) = false := beq_eq_false_iff_ne.mpr (crc_ne f.computed).2.1
  simp [wellFormed, computed_crc, this]
/-- The checks of R309 other than the CRC. -/
def fieldsFit (p : Port) (f : Flit) : Bool := decide (f.type.toNat < 7) && (decide (f.type.toNat < 3) || decide (f.cls.toNat < 5))
  && !p.reopens f
theorem test_wellFormed (p : Port) (f : Flit) (h : f.crc = f.computed) (h' : fieldsFit p f = true) : wellFormed f = true ∧ p.reopens f = false := by
  simp only [fieldsFit, Bool.and_eq_true, Bool.not_eq_true'] at h'
  simpa [wellFormed, h, h'.2] using h'.1

/-- A HEAD to a rank: it waits for an ACK of SEQ 1023, and SEQ 3 is next. -/
def headTo (rank : BitVec 16) (seq : BitVec 10) (hops : BitVec 6) : Flit :=
  flitOf typeHead 3#3 seq 0#10 hops (routeBlock rank 1#16 0#64 0#128 (0#64 ++ 1#2 ++ 1#1 ++ 0#61) 0#64)
def sentWith (seq : BitVec 10) (times since : Nat) : SentFlit := ⟨⟨typeSingle ++ 0#4 ++ seq ++ 0#46, 0#1024, 0#32⟩, times, since⟩
def awaiting : Port := { upPort with expect := 3#10, replay := [sentWith 1023#10 1 900, sentWith 0#10 8 950] }

theorem witness_FlitReceipt_crc : (headTo 0#16 3#10 0#6).crc = (headTo 0#16 3#10 0#6).computed := flitOf_crc _ _ _ _ _ _
theorem witness_FlitReceipt_plain : (linked awaiting).onCircuit 7 (headTo 0#16 3#10 0#6) = none := by decide +kernel
theorem witness_FlitReceipt_bare : ∀ f ∈ [flitOf typeNak 0#3 0#10 3#10 0#6 0#1024, flitOf typeIdle 0#3 0#10 3#10 0#6 0#1024],
    (linked awaiting).onCircuit 7 f = none ∧ fieldsFit awaiting f = true := by decide +kernel
/-- SEQ 3 is expected: 515 is the first that lies behind, 514 the last ahead. -/
theorem witness_FlitReceipt_seq : ∀ q ∈ [3, 4, 514, 515, 2], let f := headTo 0#16 (BitVec.ofNat 10 q) 0#6
    fieldsFit awaiting f = true ∧ (512 ≤ (f.seq - awaiting.expect).toNat ↔ q = 515 ∨ q = 2) ∧ (f.seq = awaiting.expect ↔ q = 3) := by
  decide +kernel
/-- A HEAD at its 63rd hop, one to rank 1 behind port 4, and a HELLO. -/
def passing : State := withPort (paired running) 7 awaiting
theorem witness_FlitReceipt_passing : let f := headTo 1#16 3#10 62#6
    let g := headTo 1#16 3#10 63#6
    passing.onCircuit 7 f = none ∧ fieldsFit awaiting f = true ∧ fieldsFit awaiting g = true
      ∧ f.seq = awaiting.expect ∧ headDrank f.payload ≠ passing.ranks.myRank ∧ isMulticast (headDrank f.payload) = false
      ∧ f.hops ≠ 63#6 ∧ g.hops = 63#6 ∧ passing.integ.halted = false ∧ passing.claimed 4 f.cls = false
      ∧ passing.routeRank (headSrank f.payload) (headDrank f.payload) (headTag f.payload) = .port 4 := by decide +kernel
theorem witness_FlitReceipt_steward : ∀ m ∈ [1, 2, 5, 6],
    let f := flitOf typeSingle 0#3 3#10 0#10 0#6 (singleOf 5#8 0#16 0#16 (BitVec.ofNat 960 m))
    fieldsFit awaiting f = true ∧ f.seq = awaiting.expect ∧ f.type ≠ typeHead ∧ f.cls = clsMgt
      ∧ singleKind f.payload = 5#8 ∧ mtype f.payload = BitVec.ofNat 8 m := by decide +kernel
theorem witness_FlitReceipt_refused : let s : State := { linked awaiting with ranks := { running.ranks with contexts := 64 } }
    let f := headTo 0#16 3#10 0#6
    f.seq = awaiting.expect ∧ headDrank f.payload = s.ranks.myRank ∧ isReadHead f.cls f.payload = true ∧ 64 ≤ s.ranks.contexts
      ∧ f.hops ≠ 63#6 ∧ s.integ.halted = false := by decide +kernel
/-- A circuit from port 7 to port 9 for class SCHED. -/
def circuited : State := { withPort (linked awaiting) 9 upPort with
  eo := { (withPort (linked awaiting) 9 upPort).eo with installed := [1#1 ++ 7#5 ++ 9#5 ++ 0#4 ++ 1#1 ++ 0#16] } }
theorem witness_FlitReceipt_circuit : let f := flitOf typeSingle clsSched 3#10 0#10 0#6 0#1024
    circuited.onCircuit 7 f = some (1#1 ++ 7#5 ++ 9#5 ++ 0#4 ++ 1#1 ++ 0#16)
      ∧ circuitOut (1#1 ++ 7#5 ++ 9#5 ++ 0#4 ++ 1#1 ++ 0#16) = 9 ∧ f.seq = (circuited.port 7).expect
      ∧ circuited.integ.halted = false ∧ f.hops ≠ 63#6 ∧ circuited.circuitHeld 7 9 = 0 := by decide +kernel

/-- The circuit's buffer is full; and a HEAD whose label is open already. -/
theorem witness_FlitReceipt_full : let o : OutFlit := ⟨typeSingle, clsSched, false, 1#6, none, 0, none, 0#1024, some (7, circuitBuffer), false, false⟩
    let s := circuited.setPort 9 { upPort with outq := List.replicate 512 o }
    s.circuitHeld 7 9 = 512 ∧ s.onCircuit 7 (flitOf typeSingle clsSched 3#10 0#10 0#6 0#1024) = some (1#1 ++ 7#5 ++ 9#5 ++ 0#4 ++ 1#1 ++ 0#16) := by
  decide +kernel
theorem witness_FlitReceipt_reopens : let f := headTo 1#16 3#10 62#6
    ({ awaiting with rxLabels := [⟨f.label, false, none, 1#16, 1#16, 0#16⟩] } : Port).reopens f = true ∧ f.seq = awaiting.expect := by decide +kernel

theorem witness_LinkRetry_replay : (linked awaiting).port 7 = awaiting ∧ awaiting.up = true ∧ awaiting.outq = []
    ∧ awaiting.replay.find? (fun r => decide (8 ≤ r.times)) = some (sentWith 0#10 8 950)
    ∧ (linked awaiting).active = true ∧ (linked awaiting).integ.window = none ∧ (linked awaiting).recentRewinds < 2
    ∧ ackPasses 0#10 1023#10 = true ∧ ackPasses 0#10 0#10 = false := by decide +kernel
def creditor : Port := { awaiting with
  nak := some (3#10, 990), freed := [(9, 15#16)], unreported := some 980, credits := [0xABCD#160 <<< 144] }
theorem witness_LinkRetry_credit : (linked creditor).port 7 = creditor ∧ creditor.nak = some (3#10, 990) ∧ creditor.unreported = some 980
    ∧ creditor.credits = [0xABCD#160 <<< 144]
    ∧ ∀ b, b < 10 → (SMap.get 0#16 creditor.freed b - SMap.get 0#16 creditor.reported b).toNat < 16 := by decide +kernel
theorem witness_LinkRetry_reinject : let x := going (copyWith true false false) 0 0 0 []
    let s := withPorter running 2 { Porter.idle with active := [x], refused := [(20, 94), (20, 90)] }
    s.moverThere 2 = true ∧ s.active = true ∧ calm s ∧ s.gated clsReq = false ∧ nextRefused (s.porter 2).refused = some (20, 90) := by
  simp (disch := exact id (by with_unfolding_all rfl)) only [calm_still]; decide +kernel

/-! ### Signposts, gates, the time tree -/

/-- Spare the oldest frame: it stands first. -/
theorem oldest_first (s : State) (P : BitVec 960 → Prop) (n : Nat) (f : MgtFrame) (rest : List (Nat × MgtFrame))
    (h : s.shp.inbox = (n, f) :: rest) (hp : P f.body) : oldest s P n f rest :=
  ⟨[], rest, h, rfl, hp, fun _ he => (List.not_mem_nil he).elim⟩
def frameOf (b : BitVec 960) (beat : Nat) (frac : BitVec 4) : MgtFrame := ⟨singleOf 5#8 0#16 1#16 b, false, beat, frac⟩
/-- Port 4 leads to a child that is UP; a frame from it waits. -/
def inboxed (s : State) (f : MgtFrame) : State :=
  let s := paired s
  { s with shp := { s.shp with inbox := [(4, f), (5, f)], children := [4] } }
def gatedBy (m state : BitVec 8) (s : State) : State := { s with ranks := { s.ranks with gateClasses := m, gateState := state } }

/-- PLEN 16 and a rank; one bit of RANK too many; a group of 4 at port 4, and at port 2. -/
def signpostWord (plen : BitVec 5) (rank : BitVec 16) (port : BitVec 5) (width : BitVec 2) : W64 :=
  1#1 ++ plen ++ rank ++ port ++ width ++ 0#35
theorem test_signpost_good : signpostGood (signpostWord 16#5 0xFFFF#16 4#5 2#2) ∧ signpostGood (signpostWord 15#5 0xFFFE#16 31#5 0#2)
    ∧ ¬ signpostGood (signpostWord 15#5 0xFFFF#16 4#5 2#2) ∧ ¬ signpostGood (signpostWord 16#5 0#16 2#5 2#2)
    ∧ ¬ signpostGood (signpostWord 17#5 0#16 0#5 0#2) ∧ ¬ signpostGood (signpostWord 16#5 0#16 0#5 3#2) := by
  unfold signpostGood; decide +kernel
theorem witness_SignpostsAndGates_signpost : ∀ k ∈ [0, 4095], let w := writing (0x4150 + k / 256) (k % 256) 0 (pairOf (signpostWord 16#5 0xFFFF#16 4#5 2#2))
    fitsUnloaded running (0x4150 + k / 256) (k % 256) w (rowOf (0x4150 + k / 256) (k % 256)) ∧ (wpair w).ok = true
      ∧ (wpair w).v = signpostWord 16#5 0xFFFF#16 4#5 2#2 ∧ running.jobLoaded = true ∧ running.ranks.gateState ≠ 2#8
      ∧ (gatedBy 2#8 2#8 running).ranks.gateState = 2#8
      ∧ (wpair (writing (0x4150 + k / 256) (k % 256) 0 1)).ok = false := by
  unfold fitsUnloaded writeFits; decide +kernel
theorem witness_SignpostsAndGates_mask : ∀ m ∈ [0, 1, 2, 31], let w := writing 0x4140 1 0 m
    let g := writing 0x4230 3 0 m
    writeFits running 0x4140 1 w (rowOf 0x4140 1) ∧ wnum w = m ∧ writeFits running 0x4230 3 g (rowOf 0x4230 3) ∧ wnum g = m
      ∧ running.ranks.myRank = running.ranks.deskRank ∧ (paired running).ranks.myRank ≠ (paired running).ranks.deskRank := by
  unfold writeFits; decide +kernel
/-- A gate of class 3: its replay buffer holds a flit of class 0, and one of class 3. -/
theorem witness_SignpostsAndGates_drained :
    let s := gatedBy 8#8 1#8 (linked { awaiting with replay := [sentWith 0#10 1 900] })
    let held := gatedBy 8#8 1#8 (linked { awaiting with replay := [⟨⟨typeSingle ++ 3#3 ++ 0#57, 0#1024, 0#32⟩, 1, 900⟩] })
    s.ranks.gateState = 1#8 ∧ (∀ p, p < 32 → portDrained (s.port p) s.ranks.gateClasses)
      ∧ s.ranks.passAlong = []
      ∧ held.ranks.gateState = 1#8 ∧ ¬ portDrained (held.port 7) held.ranks.gateClasses := by
  unfold portDrained; decide +kernel
theorem witness_SignpostsAndGates_close : oldest (inboxed running (frameOf (gateBody 6#8 1#8 5#32 2#8 0#4 0#64) 20 0#4)) (gateIs 1) 4
    (frameOf (gateBody 6#8 1#8 5#32 2#8 0#4 0#64) 20 0#4) [(5, frameOf (gateBody 6#8 1#8 5#32 2#8 0#4 0#64) 20 0#4)] :=
  oldest_first _ _ _ _ _ (by rfl) (by unfold gateIs frameIs; decide +kernel)
theorem witness_SignpostsAndGates_open : oldest (inboxed running (frameOf (gateBody 6#8 3#8 5#32 0#8 0#4 0#64) 20 0#4)) (gateIs 3) 4
    (frameOf (gateBody 6#8 3#8 5#32 0#8 0#4 0#64) 20 0#4) [(5, frameOf (gateBody 6#8 3#8 5#32 0#8 0#4 0#64) 20 0#4)] :=
  oldest_first _ _ _ _ _ (by rfl) (by unfold gateIs frameIs; decide +kernel)
/-- A report of epoch 0, the one in force, and of 1. -/
theorem witness_SignpostsAndGates_report (e : BitVec 32) (h : e = 0#32 ∨ e = 1#32) :
    let f := frameOf (gateBody 6#8 2#8 e 0#8 0#4 3#64) 20 0#4
    let s := inboxed running f
    oldest s (gateIs 2) 4 f [(5, f)] ∧ s.ranks.gateState ≠ 2#8 ∧ 4 ∉ s.shp.reported ∧ (gateEpoch f.body = s.shp.epoch ↔ e = 0#32) := by
  refine ⟨oldest_first _ _ _ _ _ rfl ?_, ?_⟩ <;> rcases h with rfl | rfl <;> (try unfold gateIs frameIs) <;> decide +kernel
/-- The round's last report has come, at a child, and at the desk rank with none and with one flit. -/
def reporting (count : W64) (s : State) : State :=
  let s := gatedBy 2#8 2#8 (paired s)
  { s with shp := { s.shp with
    children := [4], reported := [4], reportCount := count, roundDone := true, jobGate := 2#8, jobGateState := 1#8 } }
theorem witness_SignpostsAndGates_round : (∀ c ∈ [0, 1], let s := reporting (BitVec.ofNat 64 c) running
      s.shp.inbox = [] ∧ s.ranks.gateState = 2#8 ∧ s.shp.reportSent = false
      ∧ (∀ q ∈ s.shp.children, (s.port q).up = true → q ∈ s.shp.reported) ∧ s.shp.roundDone = true ∧ s.shp.jobGateState = 1#8
      ∧ (s.shp.gatedReceived + s.shp.reportCount = 0#64 ↔ c = 0) ∧ s.ranks.myRank ≠ s.ranks.deskRank)
    ∧ ({ reporting 0#64 running with shp := { (reporting 0#64 running).shp with timeParent := 4#8 } } : State).parentPort < 32
    ∧ ({ reporting 0#64 running with ranks := { (reporting 0#64 running).ranks with deskRank := 0#16 } } : State).ranks.deskRank = 0#16 := by
  decide +kernel

/-- Port 4 leads to the parent. -/
def below (s : State) : State := { s with shp := { s.shp with timeParent := 4#8 } }
theorem witness_TimeTree_request : ∀ q ∈ [0, 700], let s := below (paired { running with shp := { running.shp with requestAt := q } })
    s.parentPort < 32 ∧ (s.port s.parentPort).up = true ∧ (s.shp.requestAt ≠ 0 ↔ q = 700) ∧ s.milestone < 2 ^ 64 := by decide +kernel
theorem witness_TimeTree_response : let f := frameOf (timeBody 0#6 0#2 false 7#4 0#4 0#4 9#64 0#64 0#64 0#32) 20 3#4
    oldest (inboxed running f) (timeIs 0) 4 f [(5, f)] :=
  oldest_first _ _ _ _ _ rfl (by unfold timeIs frameIs; decide +kernel)
/-- Asked at beat 10, taken and answered at 12, back at 14 and 0 or 2 sixteenths: with a delay of 16 kept, the edge of
R367's discard; the parent is LOCKED. -/
def answerAt (frac : BitVec 4) : MgtFrame := frameOf (timeBody 0#6 1#2 true 0#4 0#4 0#4 10#64 12#64 12#64 0#32) 14 frac
def asking (frac : BitVec 4) : State :=
  let s := below (inboxed running (answerAt frac))
  { s with shp := { s.shp with delay := 16#32, timeState := 1#2, goodExchanges := 7, jobDiameter := 1#8 } }
theorem witness_TimeTree_answer (q : BitVec 4) (h : q = 0#4 ∨ q = 2#4) :
    oldest (asking q) (timeIs 1) 4 (answerAt q) [(5, answerAt q)] ∧ (asking q).parentPort = 4 ∧ (asking q).shp.delay ≠ 0#32
      ∧ (let b := (answerAt q).body
        let t4 : Int := 16 * (answerAt q).beat + (answerAt q).frac.toNat
        let x := ((timeT2 b : Int) - timeT1 b) - (t4 - timeT3 b)
        let y := (t4 - timeT1 b) - ((timeT3 b : Int) - timeT2 b)
        |x| < 2 ^ 31 ∧ 0 ≤ y ∧ y < 2 ^ 31 ∧ (y ≤ 2 * (16 + 16) ↔ q = 0#4) ∧ (2 * (16 + 16) + 1 < y ↔ q = 2#4) ∧ b.getLsbD 39 = true) := by
  refine ⟨oldest_first _ _ _ _ _ rfl ?_, ?_⟩ <;> rcases h with rfl | rfl <;> (try unfold timeIs frameIs) <;> decide +kernel
theorem witness_TimeTree_step : ∀ o ∈ [16, 17], let s : State := { unloaded [] with shp := { running.shp with timeState := 1#2, offset := BitVec.ofNat 32 o } }
    s.job.loadState ≠ 5#8 ∧ s.shp.timeState = 1#2 ∧ s.shp.stepped = false ∧ (16 < |s.shp.offset.toInt| ↔ o = 17) ∧ s.cellarIdle = true := by
  decide +kernel
theorem witness_TimeTree_lock : ∀ v ∈ [0, 1], let w := writing 0x4220 8 0 v
    writeFits (unloaded []) 0x4220 8 w (rowOf 0x4220 8) ∧ (unloaded []).boot.phase = .ready ∧ w.value = [BitVec.ofNat 8 v]
      ∧ (unloaded []).shp.timeParent ≠ 0xFE#8 := by unfold writeFits; decide +kernel
def rewindFrame : HaltFrame := ⟨false, false, 0#16, 1#32, 7, 20, 20⟩
def halting (s : State) : State := { s with integ := { s.integ with halted := true, frames := [rewindFrame] } }
theorem witness_TimeTree_resync : (let s := halting { running with shp := { running.shp with timeParent := 0xFE#8, children := [4] } }
      inRewind s ∧ s.shp.timeParent = 0xFE#8 ∧ s.shp.resynced = false ∧ s.milestone < 2 ^ 64) ∧ ¬ inRewind running := by
  unfold inRewind; decide
theorem witness_TimeTree_resynced : let f := frameOf (timeBody 0#6 2#2 true 0#4 0#4 5#4 0#64 0#64 40#64 19#32) 20 3#4
    let s := halting (below (inboxed running f))
    oldest s (timeIs 2) 4 f [(5, f)] ∧ inRewind s ∧ s.shp.timeParent ≠ 0xFE#8 ∧ s.parentPort = 4 ∧ s.cellarIdle = true :=
  ⟨oldest_first _ _ _ _ _ rfl (by unfold timeIs frameIs; decide +kernel), by unfold inRewind; decide +kernel⟩

/-! ### The Steward's frames -/

theorem witness_StewardFrames_take : let f := frameOf (gateBody 6#8 3#8 5#32 0#8 0#4 0#64) 20 0#4
    let g : MgtFrame := ⟨singleOf 5#8 0#16 1#16 (BitVec.ofNat 960 (4 + 2 ^ 16)), true, 20, 0#4⟩
    ((linked { upPort with mgt := [f, g] }).port 7).mgt = [f, g] ∧ mtype f.payload ≠ 4#8 ∧ mtype g.payload = 4#8
      ∧ fromModule (msgOpcode g.body) = false ∧ running.full (.eothar (singleSrank g.payload)) (msgBytes g.body) = false := by
  decide +kernel
theorem witness_StewardFrames_hello : upPort.role ≠ 0#8 ∧ upPort.up = true := by decide
/-- A first HELLO, and one of another version that differs from the last only in RANK or in its port. -/
theorem witness_StewardFrames_helloReceive : let f := frameOf 0x0101#960 20 0#4
    oldest (inboxed running f) (frameIs 1) 4 f [(5, f)] :=
  oldest_first _ _ _ _ _ rfl (by unfold frameIs; decide +kernel)
/-- For a beat that has come, and for one that has not. -/
theorem witness_StewardFrames_announce (at_ : W64) (h : at_ = 20#64 ∨ at_ = 19#64) :
    let f := frameOf (gateBody 5#8 1#8 0#32 0#8 9#4 at_) 20 0#4
    oldest (inboxed running f) (frameIs 5) 4 f [(5, f)] ∧ f.body.extractLsb' 8 8 = 1#8
      ∧ (f.beat ≤ (f.body.extractLsb' 64 64).toNat ↔ at_ = 20#64) := by
  refine ⟨oldest_first _ _ _ _ _ rfl ?_, ?_⟩ <;> rcases h with rfl | rfl <;> (try unfold frameIs) <;> decide +kernel
/-- A request to rank 1, behind port 4, waits for its answer. -/
def askedOf : Asked := ⟨1#16, 4#960, 7#16, 5⟩
theorem witness_StewardFrames_repeat : let s : State := { paired running with dict := { running.dict with asked := [askedOf] } }
    s.dict.asked = [askedOf] ∧ s.routeRank s.ranks.myRank askedOf.rank 0#16 = .port 4 ∧ (askedOf.message.extractLsb' 0 8).toNat = 4 := by
  decide +kernel
/-- A write that has ended, with the Kloder link up, and a TIME_LOCK that has not. -/
theorem witness_StewardFrames_complete : let o : Owed := ⟨.kloder, 0#16, 0xA010#16, 1#8, 7#16, some (true, 20)⟩
    let l : Owed := ⟨.kloder, 0#16, 0x4220#16, 8#8, 7#16, none⟩
    let s : State := { running with dict := { running.dict with owed := [l, o] }, kl := { running.kl with up := true } }
    let u : State := { running with dict := { running.dict with owed := [l] } }
    s.dict.owed.find? (fun o => o.ended.isSome && s.answered o) = some o ∧ s.pathUp o.path = true ∧ s.answers = true
      ∧ u.pathUp o.path = false ∧ u.dict.owed.find? (fun o => o.ended.isSome && u.answered o) = none
      ∧ u.dict.owed.find? (fun o => o.index == 0x4220#16 && o.sub == 8#8 && o.ended.isNone) = some l := by decide +kernel

/-! ### The front desk -/

/-- Lodgers 1, who generates, and 2, whose prompt waits; generation 1 is live, and a boundary stands at the beat in force. -/
def generating : Lodger := { Lodger.free with
  state := 3#4, wgen := 1#8, kvFill := Pair32.of 4#32, genCount := Pair32.of 1#32, maxNew := 2#32, promptLen := 3#32 }
def prompting : Lodger := { Lodger.free with
  state := 1#4, wgen := 1#8, kvFill := Pair32.of 1#32, genCount := Pair32.of 0#32, promptLen := 3#32, maxNew := 2#32, acceptSeq := 1#32 }
def shapes : SMap Shape := [(2, ⟨1#16 ++ 2#16 ++ 100#32, []⟩), (3, ⟨1#16 ++ 2#16 ++ 90#32, []⟩)]
def deskWith (lodgers : SMap Lodger) : State :=
  let s := atDesk 1#8 running
  { s with
    job := { s.job with shapes := shapes }
    loader := { s.loader with gens := ⟨1#8, 0#8, []⟩ }
    desk := { s.desk with tab := { DeskTable.empty with lodgers := lodgers, boundary := some 25 } } }
theorem witness_DeskDecisions : let s := deskWith [(1, generating), (2, prompting)]
    deskFree s ∧ gReady s 1#8 = 1 ∧ pReady s 1#8 = 2 ∧ s.job.shapes ≠ [] ∧ SMap.wf Lodger.free s.desk.tab.lodgers = true
      ∧ SMap.wf Shape.absent s.job.shapes = true ∧ gReady (deskWith []) 1#8 + pReady (deskWith []) 1#8 = 0 ∧ deskFree (deskWith [])
      ∧ running.desk.role ≠ 1#8 := by unfold deskFree gReady pReady; decide +kernel
theorem witness_DeskDecisions_replay : let d : Decision := ⟨2#4, 40, 30, 1#8, false, false, false⟩
    let s : State := { deskWith [] with desk := { (deskWith []).desk with decided := [d] } }
    s.active = true ∧ s.desk.role = 1#8 ∧ s.desk.decided.find? (fun d => !d.sent) = some d ∧ calm s := by
  simp (disch := exact id (by with_unfolding_all rfl)) only [calm_still]; decide +kernel
/-- The follower's bell has risen, and row 0 holds a launch of beat 29, or of 28. -/
def followed (at_ : Nat) : State :=
  let s := atDesk 2#8 (withBell (withHandle running 4094 (entry true false 1 100 0)) 8191 1#48)
  { s with larder := [(s.handle 0 4094 |>.sliceFor 0, [(51200, 5#8), (51208, BitVec.ofNat 8 at_), (51223, 0x20#8)])] }
theorem witness_DeskDecisions_follower : ∀ n ∈ [28, 29], let s := followed n
    s.active = true ∧ s.desk.role = 2#8 ∧ s.shp.transitOnly = false ∧ (s.bell 0 s.desk.launchBell.toNat).ok = true
      ∧ (s.bell 0 s.desk.launchBell.toNat).count ≠ s.desk.tab.seen ∧ (s.handle 0 s.desk.launchHandle.toNat).ok = true
      ∧ (s.handle 0 s.desk.launchHandle.toNat).valid = true ∧ (recWord s.readRecord 1).toNat = n
      ∧ (s.milestone + 3 < n ↔ n = 29) := by decide +kernel
theorem witness_DeskDecisions_inbox : ∀ n ∈ [255, 256],
    let s : State := { running with
      kl := { running.kl with submits := [[1#8]] }
      desk := { running.desk with inbox := List.replicate n ⟨[], 0, none⟩ } }
    s.kl.submits = [[1#8]] ∧ (s.desk.inbox.length < 256 ↔ n = 255) := by decide +kernel

/-- The step that ends at beat 30 had a column of either lodger; lodger 3 is to be cancelled, 4's deadline has come, 5 has no
candidate, 6 has its last token. -/
def ended (lodgers : SMap Lodger) : State :=
  let s := deskWith lodgers
  { s with desk := { s.desk with tab := { s.desk.tab with
    cols := [⟨0, true, true, 1, 0#18, 4#32⟩, ⟨1, false, false, 2, 0#18, 1#32⟩], stepOpen := true, stepEnd := 30 } } }
theorem witness_DeskBoundary : let s := ended [(1, { generating with hasPending := true, pending := 9#18 }), (2, prompting),
      (3, { generating with cancel := true }), (4, { generating with deadline := 30#64 }), (5, { generating with noCandidate := true }),
      (6, { generating with genCount := Pair32.of 2#32 })]
    s.active = true ∧ s.shp.transitOnly = false ∧ s.boundaryBeat = some 30 ∧ s.desk.tab.boundary ≠ some 30 ∧ s.desk.tab.stepOpen = true
      ∧ s.badLodger = none ∧ s.switchPending = none ∧ s.decisionAt 30 = none ∧ s.loader.gens.old = 0#8
      ∧ (∀ r ∈ s.desk.inbox, r.applied = none → 30 ≤ r.arrived) ∧ SMap.wf Lodger.free s.desk.tab.lodgers = true
      ∧ (s.lodger 1).state ≠ 0#4 ∧ calm s := by
  simp (disch := exact id (by with_unfolding_all rfl)) only [calm_still]; decide +kernel
theorem witness_DeskBoundary_bad : let s := ended [(1, { generating with kvFill := ⟨4#32, 4#32⟩ })]
    s.boundaryBeat = some 30 ∧ s.desk.tab.boundary ≠ some 30 ∧ s.desk.tab.stepOpen = true ∧ s.badLodger = some 1
      ∧ s.integ.fatalState ≠ 1#8 ∧ s.integ.window = none ∧ s.recentRewinds < 2 ∧ calm s := by
  simp (disch := exact id (by with_unfolding_all rfl)) only [calm_still]; decide +kernel
/-- A Reckoner of tower 0 with one column done and two to do; two rows of logits a column, the last row of the handle. -/
def reckoning (r : Reckoner) (l : Lodger) : State :=
  let s := withHandle (deskWith [(1, l)]) 4093 (entry true false 1 100 3)
  { s with desk := { s.desk with vocab := 300#32, reckoners := [(0, r)] } }
theorem witness_DeskBoundary_reckoner : let r : Reckoner := ⟨[⟨1, 4#32⟩, ⟨1, 5#32⟩], 1#48, some 30, none, [], 1⟩
    let s := reckoning r generating
    let e := s.handle 0 s.desk.logitHandle.toNat
    s.reckoner 0 = r ∧ s.active = true ∧ e.ok = true ∧ e.valid = true ∧ s.logitRows = 2 ∧ 1 * 2 + 2 - 1 ≤ e.lenm1 ∧ e.lenm1 = 3
      ∧ r.cols ≠ [] ∧ s.desk.vocab ≠ 0#32 ∧ s.ld.runs = [] ∧ calm s := by
  simp (disch := exact id (by with_unfolding_all rfl)) only [calm_still]; decide +kernel
/-- A greedy lodger with all tokens, and one whose mask allows none. -/
theorem witness_DeskBoundary_column : let r : Reckoner := ⟨[⟨1, 4#32⟩], 1#48, some 30, some 60, [(1, 0x3F#8)], 1⟩
    let s := reckoning r generating
    s.reckoner 0 = r ∧ s.active = true ∧ calm s ∧ (s.lodger 1).temp.setWidth 31 = 0#31 ∧ mayPick s (s.lodger 1) r.logits 0 := by
  refine ⟨by decide +kernel, by decide +kernel, (calm_still rfl).2 (by decide +kernel), by decide +kernel, ?_⟩
  unfold mayPick; decide +kernel
/-- With no other column to come the Reckoner is only on a later beat. -/
theorem witness_DeskBoundary_last (s : State) (h : s.ld.runs = []) (hm : s.moving = true) (tower b : Nat) :
    calm (nextColumn (s.toProgram b) tower b []) := by
  unfold nextColumn
  rw [if_pos rfl]
  unfold State.toProgram
  rw [State.toBeat_clear s _ h]
  exact (calm_still (s := s.pass _) (by show s.ld.runs.any Run.pends = false; rw [h]; rfl)).2 hm
theorem witness_DeskBoundary_masked (tok : Nat) : let s := reckoning Reckoner.idle { generating with maskMode := 1#2 }
    ¬ mayPick s (s.lodger 1) [] tok := by
  intro s h
  have h1 : ∀ a, (SMap.get [] s.desk.masks (s.lodger 1).maskSlot.toNat : Memory).read a = 0#8 := fun _ => rfl
  have h2 := h.2.1 (by decide +kernel)
  rw [h1] at h2
  simp at h2

/-! ### Weights -/

theorem witness_WeightControl_load : ∀ n ∈ [1, 2, 3], let w := writing 0x6010 1 0 n
    running.boot.phase = .ready ∧ writeFits running 0x6010 1 w (rowOf 0x6010 1) ∧ wnum w = n ∧ running.fansOut w = false
      ∧ running.loader.gens.old = 0#8 ∧ running.loader.queue = [] ∧ running.loader.active = none ∧ running.loader.ready = none
      ∧ running.barrierNow ≠ 2#8 ∧ running.loader.gens.live = 0#8 := by unfold writeFits; decide +kernel
def barred (s : State) : State := { s with loader := { s.loader with barrier := true, barrierState := 2#8 } }
theorem witness_WeightControl_inPlace : let s := barred (deskWith [])
    writeFits s 0x6010 1 (writing 0x6010 1 0 2) (rowOf 0x6010 1) ∧ s.job.swapMode ≠ 1#8 ∧ s.loader.gens.live ≠ 0#8
      ∧ s.barrierNow = 2#8 ∧ s.loader.queue = [] ∧ s.loader.active = none := by unfold writeFits; decide +kernel
/-- The desk rank of a resident job of two. -/
theorem witness_WeightControl_members : let s := resident (paired { running with ranks := { running.ranks with deskRank := 0#16 } })
    let s : State := { s with ranks := { s.ranks with deskRank := 0#16 } }
    let w := writing 0x6010 1 0 1
    s.boot.phase = .ready ∧ writeFits s 0x6010 1 w (rowOf 0x6010 1) ∧ s.fansOut w = true ∧ wnum w = 1 ∧ s.loader.gens.old = 0#8
      ∧ s.loader.ready = none ∧ s.loader.queue.length < 16 ∧ s.loader.active = none
      ∧ (1#16 : BitVec 16).toNat < s.ranks.jobSize.toNat ∧ (1#16 : BitVec 16) ≠ s.ranks.myRank := by unfold writeFits; decide +kernel
def readied : State := { running with loader := { running.loader with ready := some (false, 2#8) } }
theorem witness_WeightControl_switch : ∀ n ∈ [0, 1], let w := writing 0x6010 3 0 n
    let s := readied
    writeFits s 0x6010 3 w (rowOf 0x6010 3) ∧ w.value = [BitVec.ofNat 8 n] ∧ s.fansOut w = false ∧ s.loader.ready = some (false, 2#8)
      ∧ s.switchPending = none ∧ s.desk.role ≠ 2#8 ∧ running.loader.ready = none := by unfold writeFits; decide +kernel
theorem witness_WeightControl_barrier : ∀ n ∈ [0, 1], let b := writing 0x6010 4 0 n
    writeFits running 0x6010 4 b (rowOf 0x6010 4) ∧ b.value = [BitVec.ofNat 8 n] ∧ running.fansOut b = false
      ∧ running.desk.role ≠ 2#8 ∧ running.loader.barrier = false := by unfold writeFits; decide +kernel
/-- The desk rank of a resident job of two, with a generation that is ready. -/
theorem witness_WeightControl_fanned : let s := resident (paired { readied with ranks := { running.ranks with deskRank := 0#16 } })
    let s : State := { s with ranks := { s.ranks with deskRank := 0#16 } }
    let w := writing 0x6010 3 0 1
    writeFits s 0x6010 3 w (rowOf 0x6010 3) ∧ s.fansOut w = true ∧ w.value = [1#8] ∧ s.loader.ready ≠ none := by
  unfold writeFits; decide +kernel
/-- The last adapter, free, loading, and pinned by a lodger. -/
theorem witness_WeightControl_adapter : ∀ x ∈ [Adapter.empty, { Adapter.empty with st1 := 1#2 }, { Adapter.empty with pin1 := 1#16 }],
    let s : State := { running with loader := { running.loader with bothPinned := 1#8, gens := ⟨0#8, 0#8, [(511, x)]⟩ } }
    writeFits s 0x6040 1 (writing 0x6040 1 511 1) (rowOf 0x6040 1) ∧ (writing 0x6040 1 511 1).value = [1#8]
      ∧ (writing 0x6040 1 511 1).inst.toNat < 512 ∧ s.adapter 511 = x ∧ s.loader.bothPinned = 1#8 ∧ s.loader.queue.length < 16
      ∧ (writing 0x6040 1 511 0).value = [0#8] := by unfold writeFits; decide +kernel
/-- Of each form: from flash whose controller is up or not, and from BULK. -/
def requested (r : LoadReq) (up : Bool) : State := { running with
  loader := { running.loader with queue := [r] }
  flash := { running.flash with state := if up then [(0, 1#32)] else [], lba := [(0, 12)] } }
theorem witness_WeightControl_start : ∀ x ∈ [(1#2, 1, true), (2#2, 1, false), (3#2, 2, false)],
    let r : LoadReq := ⟨x.1, 511, BitVec.ofNat 128 (2 ^ 60 * x.2.1)⟩
    let s := requested r x.2.2
    s.integ.fatalState = 0#8 ∧ s.loader.active = none ∧ s.loader.queue = [r] ∧ (r.loc.extractLsb' 60 4).toNat = x.2.1
      ∧ (r.loc.extractLsb' 59 1).toNat = 0 ∧ s.flashReady 0 (r.loc.extractLsb' 0 32) = x.2.2 := by decide +kernel

/-- A manifest whose shard table begins at byte 4,096: one shard of two rows at byte 8,192, for row 0 of handle 5 of logical
hall 0. -/
def wordAt (a : Nat) (w : W64) : Memory :=
  ((List.range 8).map fun k => (a + k, BitVec.ofNat 8 (w.toNat / 256 ^ k))).filter fun e => e.2 != 0#8
def shardAt (units : BitVec 24) (digest : W64) : Memory :=
  wordAt 8 (1#32 ++ 1#32) ++ wordAt 32 (1#32 ++ 1#32) ++ wordAt 4096 (0#16 ++ 1#2 ++ 0#8 ++ 5#12 ++ 5#12 ++ 0#14)
    ++ wordAt 4120 (2#32 ++ units ++ 0#6 ++ 1#1 ++ 1#1) ++ wordAt 4128 digest
def fetching (source : Nat) (x : Landing) (buf : Memory) : ActiveLoad :=
  { req := ⟨1#2, 0, BitVec.ofNat 128 (2 ^ 60 * source)⟩, set := true, gen := 1#8, buf := buf, got := [(0, 8192)], released := 0,
    manifest := { Landing.empty with checked := true }, shards := SMap.set Landing.empty [] 0 x, want := [],
    reads := [⟨0, 8192, 1024⟩], sent := 0, passed := false, ready := false, wrote := false, writing := [] }
def loading (a : ActiveLoad) (s : State) : State := { s with loader := { s.loader with active := some a } }
theorem witness_WeightData_read : let a := fetching 1 Landing.empty (shardAt 2#24 7#64)
    (loading a handled).loader.active = some a ∧ a.reads[0]? = some ⟨0, 8192, 1024⟩ ∧ a.manifest.checked = true
      ∧ (List.replicate 1024 0x5A#8).length = 1024 := by decide +kernel
/-- Landed whole, with a digest that differs; and a shard of no rows, with the digest of nothing. -/
theorem witness_WeightData_landed : let a : ActiveLoad := { fetching 1 Landing.empty (shardAt 2#24 7#64) with got := [(0, 9216)] }
    (loading a handled).landedShard a = some 0 ∧ (a.shard 0).at_ = 8192 ∧ (a.shard 0).units = 2 ∧ (a.shard 0).digest = 7#256 := by
  decide +kernel
theorem witness_WeightData_same : let a := fetching 1 Landing.empty (shardAt 0#24 0x138DA80B2BDDB946#64 ++ wordAt 4136 0x24EB3E74EB3F3B23#64
      ++ wordAt 4144 0x821BB862EA52CD3F#64 ++ wordAt 4152 0x2F76D56E64270CB5#64)
    (loading a handled).landedShard a = some 0
      ∧ digest32 (a.buf.readBytes (a.shard 0).at_ (512 * (a.shard 0).units)) = (a.shard 0).digest := by decide +kernel
theorem witness_WeightData_timeout : let a := fetching 2 { Landing.empty with since := some 900 } (shardAt 2#24 7#64)
    (loading a handled).timedParts a = [(0, 900)] := by decide +kernel
/-- A checked shard while no job is loaded, while a step runs with a fill window, and one for a hall that the job has not. -/
def checked (buf : Memory) : ActiveLoad := fetching 1 { Landing.empty with checked := true } buf
def filled (s : State) : State := { s with loader := { s.loader with fill := [(2, 4#32 ++ 40#32)] } }
theorem witness_WeightData_target : let a := checked (shardAt 2#24 7#64)
    let s := loading a handled
    s.nextShard a = some 0 ∧ (s.shardTarget a (a.shard 0) 0).isSome = true ∧ a.writing = [] ∧ s.writeTime a = .free
      ∧ (loading a { handled with integ := { handled.integ with halted := true } }).writeTime a = .never
      ∧ (loading a { running with job := { running.job with logicalHalls := 0#8 } }).shardTarget a (a.shard 0) 0 = none := by decide +kernel
theorem witness_WeightData_window : let a := checked (shardAt 2#24 7#64)
    let s := loading a (filled { handled with job := (stepping 25).job, milestone := 100 })
    ∃ from_ last, s.writeTime a = .window from_ last ∧ s.nextShard a = some 0 ∧ (s.shardTarget a (a.shard 0) 0).isSome = true
      ∧ a.writing = [] ∧ calm s := by
  refine ⟨29, 68, ?_⟩; simp (disch := exact id (by with_unfolding_all rfl)) only [calm_still]; decide +kernel

/-- A pass-along frame on port 4 while nothing loads, from above for a shard that is kept and for one that is not, and a
request of a peer. -/
def passed (type : BitVec 4) (shard chunk : Nat) (data : List Byte) (s : State) : State := { s with
  ranks := { s.ranks with passAlong := [(4, singleOf 6#8 0#16 0#16 (passBody type shard chunk data.length data))] } }
def above (down : BitVec 8) (s : State) : State := { s with loader := { s.loader with upPort := 4#8, downPort := down } }
theorem witness_WeightData_discarded : let s := passed 1#4 0 9 [1#8] running
    s.loader.active = none ∧ passType (singleBody (singleOf 6#8 0#16 0#16 (passBody 1#4 0 9 1 [1#8]))) = 1#4 := by decide +kernel
theorem witness_WeightData_stored : let a := fetching 3 Landing.empty (shardAt 2#24 7#64)
    let s := above 0xFF#8 (passed 1#4 0 9 [1#8] (loading a handled))
    let b := passBody 1#4 0 9 1 [1#8]
    a.source = 3 ∧ s.loader.upPort = BitVec.ofNat 8 4 ∧ a.manifest.checked = true ∧ passShard b < a.nshards ∧ (a.landing 0).tried ≠ 2
      ∧ (a.shard 0).rank = s.ranks.myRank ∧ s.loader.downPort = 0xFF#8 ∧ (a.part 0).1 + 112 * passChunk b + (passData b).length ≤ (a.part 0).2
      ∧ a.held + (passData b).length ≤ landingBytes ∧ a.ready = false := by decide +kernel
theorem witness_WeightData_forwarded : let a := fetching 3 Landing.empty (shardAt 2#24 7#64)
    let s := above 4#8 (passed 1#4 0 9 [1#8] (loading a (paired handled)))
    let s : State := { s with ranks := { s.ranks with myRank := 1#16 } }
    (a.shard 0).rank ≠ s.ranks.myRank ∧ s.mayPass s.loader.downPort.toNat = true := by decide +kernel
theorem witness_WeightData_request : ∀ n ∈ [0, 113], let b := passBody 2#4 0 0 0 (bytesLE 7 8)
    let m : PeerImage := ⟨7#64, List.replicate n 1#8⟩
    passType b = 2#4 ∧ (paired running).mayPass 4 = true ∧ m.digest = b.extractLsb' 64 64 ∧ passShard b = 0 := by decide +kernel

/-! ### Rewinds -/

/-- A snapshot of program beat 20, and the member's last commit there. -/
def committed (s : State) : State :=
  { s with snaps := [running.snapshot 20], integ := { s.integ with lastCommit := 20 } }
/-- A HALT of rank 5 that names program beat 25, raised at beat 22, for a rewind or a stop. -/
def haltOfFive (stop : Bool) : HaltFrame := ⟨stop, false, 5#16, 9#32, 25, 22, 0⟩
/-- It came in on port 7, after two hops. -/
def haltFlit (stop : Bool) : Flit :=
  ⟨typeSingle ++ clsMgt ++ 0#1 ++ 0#30 ++ 2#6 ++ 0#20, singleOf 7#8 0#16 5#16 (haltOfFive stop).body, 0#32⟩
def haltWaits (stop : Bool) (s : State) : State := { s with ranks := { s.ranks with halts := [(7, haltFlit stop)] } }
def upset (k : FoundKind) (place : BitVec 5) : Found := ⟨k, place, 1, 9#24, 3#8, false⟩
theorem witness_Rewinds_found : foundSensible (upset .corrected 7#5) = true ∧ foundSensible (upset .corrected 8#5) = true
    ∧ foundSensible (upset .corrected 9#5) = true ∧ (upset .corrected 9#5).kind = .corrected
    ∧ (∀ f ∈ [upset .pair 1#5, upset .parity 10#5, upset .uncorrectable 7#5], foundSensible f = true ∧ f.kind ≠ .corrected
      ∧ f.place ≠ 15#5 ∧ f.again = false)
    ∧ (let s := committed running
       mayRewind s ∧ (s.snaps.find? fun x => decide (x.beat ≤ s.integ.lastCommit - s.integ.jobOffset)) = some (running.snapshot 20)
       ∧ (running.snapshot 20).beat ≤ s.milestone)
    ∧ mayRewind running ∧ running.snaps = [] := by unfold mayRewind; decide +kernel
theorem test_halt_body : ∀ b ∈ [true, false], haltOf (singleBody (haltFlit b).payload) = haltOfFive b := by decide +kernel
theorem witness_Rewinds_halt : let s := haltWaits false (committed (paired running))
    s.ranks.halts = [(7, haltFlit false)] ∧ s.hasSeen (haltOfFive false) = false ∧ mayRewind s
      ∧ (s.snaps.find? fun x => decide (x.beat ≤ (haltOfFive false).target - (haltOfFive false).omega)) = some (running.snapshot 20)
      ∧ (running.snapshot 20).beat ≤ (haltOfFive false).raise
      ∧ s.ranks.jobSize ≠ 1#32 ∧ (s.port 4).carriesJob = true := by unfold mayRewind; decide +kernel
theorem witness_Rewinds_seen : let s := haltWaits false { running with integ := { running.integ with seen := [(5#16, 9#32)] } }
    s.ranks.halts = [(7, haltFlit false)] ∧ s.hasSeen (haltOfFive false) = true := by decide +kernel
theorem witness_Rewinds_stop : let s := haltWaits true running
    s.ranks.halts = [(7, haltFlit true)] ∧ (haltOfFive true).stop = true ∧ s.hasSeen (haltOfFive true) = false
      ∧ s.jobActive = true ∧ s.integ.fatalState = 0#8 := by decide +kernel
theorem witness_Rewinds_resume : let s := halting (committed running)
    s.integ.halted = true ∧ s.rewindFrames ≠ [] ∧ s.integ.window = none ∧ s.integ.fatalState = 0#8 ∧ s.job.loadState = 5#8
      ∧ s.targetSnap = some (running.snapshot 20) := by decide +kernel
theorem witness_Rewinds_window : ∀ b ∈ [true, false],
    let s : State := { running with
      integ := { running.integ with window := some 3#32 }, job := { running.job with unloadPending := b } }
    s.integ.window ≠ none ∧ s.integ.fatalState ≠ 1#8 ∧ running.integ.window = none
      ∧ ({ running with integ := { running.integ with fatalState := 1#8 } } : State).integ.fatalState = 1#8 := by decide +kernel

/-! ### Requests -/

def asking4 (index : BitVec 16) (sub : BitVec 8) (inst : BitVec 16) : DictAsk := ⟨.kloder, inst, index, sub, 3#16, 0#8, 0#16, 0#24⟩
theorem witness_DictionaryRequests_read : ∀ x ∈ ([(0xA010, 2), (0x7010, 1), (0x4100, 2)] : List (Nat × Nat)),
    let a := asking4 (BitVec.ofNat 16 x.1) (BitVec.ofNat 8 x.2) 0#16
    askFits running a (rowOf x.1 x.2) 0 ∧ (rowOf x.1 x.2).access ≠ 3 ∧ running.objFails a.index.toNat a.sub.toNat 0 = none := by
  unfold askFits; decide +kernel
/-- The stored pair of bell 511 of tower 3 fails. -/
def badBell : State := { unloaded [] with pb := { running.pb with bells := [(8192 * 3 + 511, ⟨1#64, 1#64⟩)] } }
theorem witness_DictionaryRequests_bell : let a := asking4 0x3341#16 255#8 3#16
    askFits badBell a (rowOf 0x3341 255) 3 ∧ a.index.toNat = 0x3340 + 511 / 256 ∧ a.sub.toNat = 511 % 256
      ∧ (rowOf 0x3341 255).access ≠ 3 ∧ badBell.jobLoaded = false ∧ (badBell.bell 3 511).ok = false := by unfold askFits; decide +kernel
theorem witness_DictionaryRequests_modes : let s : State := { running with modes := { running.modes with wordUpset := 1#64 } }
    askFits s (asking4 0x1100#16 7#8 0#16) (rowOf 0x1100 7) 0
      ∧ s.modes.wordUpset.extractLsb' 0 32 ≠ s.modes.wordUpset.extractLsb' 32 32 := by unfold askFits; decide +kernel
theorem witness_DictionaryRequests_denied : running.answers = true ∧ running.dictOpen = true
    ∧ (asking4 0x1FFF#16 0#8 0#16).path = .kloder ∧ objRow 0x1FFF 0 = none := by decide +kernel
theorem witness_DictionaryRequests_write : ∀ x ∈ ([(0x4100, 1, 5), (0x4100, 2, 1), (0x4100, 2, 65536), (0x4100, 2, 0), (0x4200, 3, 63),
      (0x4200, 3, 64), (0x3301, 1, 65536), (0x3301, 1, 65535), (0x5020, 3, 1), (0x5020, 3, 8192), (0x5020, 3, 8193),
      (0x6030, 4, 10), (0x6030, 4, 60000), (0x6030, 4, 9), (0x7060, 1, 6)] : List (Nat × Nat × Nat)),
    let w := writing x.1 x.2.1 0 x.2.2
    writeFits (unloaded []) x.1 x.2.1 w (rowOf x.1 x.2.1) ∧ wnum w = x.2.2 := by unfold writeFits; decide +kernel
theorem witness_DictionaryRequests_i3c : (0x80#8 : BitVec 8).getLsbD 7 = true ∧ running.full .i3c [0#8] = false
    ∧ (0x7E#8 : BitVec 8) ≠ 0#8 ∧ (0x7E#8 : BitVec 8) ≠ 0x7F#8 := by decide +kernel

/-! ### The Kloder link -/

/-- A frame of channel `ch` with SEQ `seq` that carries 8 B, and its CRC. -/
def kloderOf (ch : BitVec 4) (seq : BitVec 32) : KloderFrame :=
  let f : KloderFrame := ⟨kHeader0 ch true true false 1 15#4 seq, kHeader1 0#32 15#4 0#28, List.replicate 8 1#8, 0#32⟩
  { f with crc := frameCrc f }
def withChan (s : State) (c : Nat) (x : KChan) : State := s.setChan c x
def sentK (seq : BitVec 32) (times since : Nat) : KSent := ⟨⟨kHeader0 1#4 true true false 1 15#4 seq, 0#64, []⟩, times, since⟩
/-- Channel 1 expects SEQ 7, and has two frames that are not acknowledged. -/
def kchan : KChan := { KChan.reset with expect := 7#32, replay := [sentK 3#32 16 900, sentK 4#32 1 950], granted := 64#32 }
def kup (s : State) : State := withChan (withChan { s with kl := { s.kl with up := true, groups := 3#2 } } 1 kchan) 0 kchan
theorem witness_KloderLink_good : ∀ x ∈ ([(0, 7), (1, 7), (1, 8), (1, 262), (1, 263), (1, 6)] : List (Nat × Nat)),
    let f := kloderOf (BitVec.ofNat 4 x.1) (BitVec.ofNat 32 x.2)
    let k := KFrame.ofWire f
    (kup running).kl.up = true ∧ frameOk f = true ∧ k.ch.toNat = x.1 ∧ 4 < k.ach.toNat ∧ 4 < k.cch.toNat
      ∧ k.first = true ∧ k.last = true ∧ ((kup running).chan x.1).expect = 7#32 ∧ ((kup running).chan x.1).nak = none
      ∧ (x.2 = 7 → k.seq = 7#32) ∧ (x.2 = 8 → (k.seq - 7#32).toNat = 1) ∧ (x.2 = 262 → (k.seq - 7#32).toNat = 255)
      ∧ (x.2 = 263 ∨ x.2 = 6 → 255 < (k.seq - 7#32).toNat) := by decide +kernel
theorem witness_KloderLink_bad : frameOk { kloderOf 1#4 7#32 with crc := 0#32 } = false ∧ (Fec.uncorrectable = .uncorrectable) := by
  decide +kernel
theorem witness_KloderLink_replay : let s := kup running
    s.kl.up = true ∧ (s.chan 1).outq = [] ∧ s.integ.events = []
      ∧ ((s.chan 1).replay.filter fun r => !kPasses 4#32 (KFrame.seq r.frame)) = [sentK 4#32 1 950]
      ∧ (s.chan 1).replay = [sentK 3#32 16 900, sentK 4#32 1 950] ∧ (∃ r ∈ (s.chan 1).replay, 16 ≤ r.times) := by
  refine ⟨by decide +kernel, by decide +kernel, by decide +kernel, by decide +kernel, by decide +kernel, sentK 3#32 16 900, ?_⟩
  decide +kernel
theorem witness_KloderLink_nak : let s := withChan (kup running) 1 { kchan with nak := some (7#32, 900) }
    s.kl.up = true ∧ (s.chan 1).nak = some ((s.chan 1).expect, 900) := by decide +kernel
/-- The adapter's INIT of 9 words: version 1.1, its nonce, our last nonce, what it expects, and the credits it grants. -/
def initBody (resume : Bool) (least : Nat) : List Byte :=
  [0x0101000000000000, 5, if resume then 6 else 0, 0, 0, 0, 0x0000004000000000 + least, 0x0000001000000400, 0x40].flatMap fun w =>
    bytesLE w 8
theorem witness_KloderLink_init : ∀ r ∈ [true, false], ∀ n ∈ [15, 16],
    let b := initBody r n
    let s : State := { kup running with kl := { (kup running).kl with peerNonce := 5#64 }, shp := { running.shp with bootNonce := 6#64 } }
    s.answers = true ∧ b.length = 72 ∧ (initWord b 0).extractLsb' 48 16 = 0x0101#16 ∧ initWord b 1 = 5#64
      ∧ creditsEnough b = (n == 16) ∧ (initWord b 1 = s.kl.peerNonce ∧ initWord b 2 = s.shp.bootNonce ↔ r = true) := by
  decide +kernel
theorem witness_KloderLink_groups : (kup running).kl.groups.getLsbD 1 = true ∧ (kup running).kl.groups.getLsbD 0 = true
    ∧ (1#2 : BitVec 2) ≠ 0#2 := by decide +kernel
theorem witness_KloderLink_event : let s : State := { running with integ := { running.integ with raised := [(2#16, 20#64, [1#8])] } }
    s.integ.raised = [(2#16, 20#64, [1#8])] ∧ s.boot.phase = .ready ∧ s.integ.events.length < 1024 := by decide +kernel
theorem witness_KloderLink_outbound : ∀ tok ∈ [true, false],
    let s : State := { kup running with kl := { (kup running).kl with outQueue := [⟨tok, [1#8], some 3#32⟩, ⟨tok, [2#8], none⟩] } }
    let s := withChan s 2 kchan
    s.kl.outQueue.find? (fun r => r.seq.isNone) = some ⟨tok, [2#8], none⟩ ∧ s.kl.up = true
      ∧ (let c := s.chan (if tok then 2 else 1); c.outq = [] ∧ 0 < c.credit ∧ c.replay.length < 256) := by decide +kernel

/-! ### Bulk segments and flash -/

/-- A BULK segment (R504): KIND, controller and namespace, TAG, OFFSET and the bytes. -/
def seg (kind : BitVec 4) (ctrl : Bool) (offset : Nat) (data : List Byte) : List Byte :=
  bytesLE ((kind ++ BitVec.ofBool ctrl ++ 0#11 ++ 1#32 ++ 0xBEEF#16 : BitVec 64)).toNat 8 ++ bytesLE offset 8 ++ data
def segmented (g : List Byte) (s : State) : State := { s with kl := { s.kl with up := true, segments := [g] } }
def booting (p : BootPhase) (s : State) : State := { s with boot := { s.boot with phase := p } }
theorem test_segment : ∀ c ∈ [true, false], let g := seg 3#4 c 4096 [7#8]
    segKind g = 3#4 ∧ segCtrl g = c ∧ segNsid g = 1#32 ∧ segTag g = 0xBEEF#16 ∧ segOffset g = 4096 ∧ segData g = [7#8] := by decide +kernel
theorem witness_BulkAndFlash_staging : ∀ o ∈ [0, stagingBytes - 1, stagingBytes], let g := seg 1#4 false o [7#8]
    (segmented g running).kl.segments = [g] ∧ segKind g = 1#4 ∧ running.boot.phase = .ready ∧ running.cel.invalid = none
      ∧ (o + 1 ≤ stagingBytes ↔ segOffset g + (segData g).length ≤ stagingBytes) ∧ (booting .opened running).boot.phase ≠ .ready := by
  decide +kernel
theorem witness_BulkAndFlash_weights : let g := seg 2#4 false 8192 [7#8]
    let a := fetching 2 Landing.empty (shardAt 2#24 7#64)
    let s := segmented g (loading a handled)
    segKind g = 2#4 ∧ running.loader.active = none ∧ s.loader.active = some a ∧ a.source = 2
      ∧ a.held + (segData g).length ≤ landingBytes ∧ a.manifest.checked = true ∧ a.ready = false ∧ s.keptShards a = [0]
      ∧ (a.landing 0).checked = false ∧ (a.part 0).1 ≤ 8192 ∧ 8192 < (a.part 0).2
      ∧ (let full := { a with got := [(0, landingBytes)] }; landingBytes < full.held + (segData g).length) := by decide +kernel
/-- Controller 1's link is up, and its namespace 1 has blocks of 512 B. -/
def flashed (s : State) : State := { s with flash := { s.flash with state := [(0, 1#32), (1, 1#32)], lba := [(3, 9)], perst := 3#2 } }
theorem witness_BulkAndFlash_flash : (∀ o ∈ [4, 4096], let g := seg 3#4 true o [7#8]
      segKind g = 3#4 ∧ (segOffset g % 8 = 0 ↔ o = 4096))
    ∧ (let g := seg 4#4 true 5 []
       segKind g = 4#4 ∧ (flashed running).flashReady (segCtrl g).toNat (segNsid g) = true
        ∧ running.flashReady (segCtrl g).toNat (segNsid g) = false) := by decide +kernel
theorem witness_BulkAndFlash_reserved : segKind (seg 0#4 false 0 []) = 0#4 ∧ 5 < (segKind (seg 6#4 false 0 [])).toNat
    ∧ segKind (seg 5#4 false 0 []) = 5#4 ∧ running.boot.phase ≠ .rom := by decide +kernel
/-- A firmware image of one block: nothing but zeros; and one whose header is good, so that only its signature decides. -/
def blank : List Byte := seg 5#4 false 0 (List.replicate 1024 0#8)
def headed : List Byte := seg 5#4 false 0 (bytesLE 0x4657494D00010000 8 ++ bytesLE 9 8 ++ bytesLE (1024 * 2 ^ 32 + 64) 8
  ++ bytesLE (960 * 2 ^ 16) 8 ++ List.replicate 992 0#8)
def received (g : List Byte) : State := let s := booting .rom running
  { s with boot := { s.boot with image := s.boot.image.writeBytes 0 (segData g), blocks := SMap.set false s.boot.blocks 0 true } }
theorem witness_BulkAndFlash_firmware_range : segOffset (seg 5#4 false 512 []) % 1024 ≠ 0 ∧ (booting .rom running).boot.phase = .rom := by
  decide +kernel
theorem cause_one (s : State) (h : (s.boot.fw 0).extractLsb' 32 32 ≠ 0x4657494D#32 ∨ (s.boot.fw 0).extractLsb' 16 16 ≠ 1#16) :
    s.firmwareCause = 1 := if_pos h
theorem cause_none (s : State) (h1 : (s.boot.fw 0).extractLsb' 32 32 = 0x4657494D#32 ∧ (s.boot.fw 0).extractLsb' 16 16 = 1#16)
    (h2 : 1024 ≤ s.boot.imageBytes ∧ s.boot.imageBytes ≤ firmwareBytes ∧ s.boot.sigOffset % 8 = 0 ∧ 64 ≤ s.boot.sigOffset
      ∧ s.boot.sigBytes ≠ 0 ∧ s.boot.sigBytes ≤ 1280 ∧ s.boot.entry % 4 = 0 ∧ s.boot.entry < s.boot.sigOffset
      ∧ s.boot.sigOffset + s.boot.sigBytes ≤ s.boot.imageBytes) (h4 : (s.boot.fw 0).setWidth 16 = 0#16)
    (h3 : Config.falconVerify Config.firmwareKey s.boot.signedMessage (s.boot.image.readBytes s.boot.sigOffset s.boot.sigBytes) = true) :
    s.firmwareCause = 0 := by
  refine (if_neg (by simp [h1])).trans ((if_neg (by omega)).trans ((if_neg (by simp [h3])).trans (if_neg (by simp [h4]))))
theorem witness_BulkAndFlash_firmware_bad : (segData blank).length = 1024 ∧ (received blank).boot.imageWhole = true
    ∧ (received blank).firmwareCause = 1 := ⟨by decide +kernel, by decide +kernel, cause_one _ (by decide +kernel)⟩
/-- The first block of an image of two. -/
theorem witness_BulkAndFlash_firmware_part : let g := seg 5#4 false 0 (bytesLE 0 16 ++ bytesLE (1025 * 2 ^ 32) 8 ++ List.replicate 1000 0#8)
    (segData g).length = 1024 ∧ (received g).boot.imageWhole = false := by decide +kernel
/-- What verifies is not modelled: where the signature does, the image is good. -/
theorem witness_BulkAndFlash_firmware_good (h : Config.falconVerify Config.firmwareKey (received headed).boot.signedMessage
      ((received headed).boot.image.readBytes (received headed).boot.sigOffset (received headed).boot.sigBytes) = true) :
    (received headed).boot.imageWhole = true ∧ (received headed).firmwareCause = 0 :=
  ⟨by decide +kernel, cause_none _ (by decide +kernel) (by decide +kernel) (by decide +kernel) h⟩
def withFlash (cs : List FlashCmd) (s : State) : State := { s with flash := { s.flash with issued := cs } }
theorem witness_BulkAndFlash_complete : ∀ b ∈ [true, false],
    let s := withFlash [.write true 2#32 0 [1#8], .flush true 1#32 3#16 5#64 b] (flashed running)
    s.flash.issued[0]? = some (.write true 2#32 0 [1#8]) ∧ (FlashCmd.write true 2#32 0 [1#8]).isWrite = true
      ∧ s.flash.issued[1]? = some (.flush true 1#32 3#16 5#64 b)
      ∧ (∀ w ∈ s.flash.issued.take 1, w.isWrite = true → w.ns ≠ (true, 1#32)) := by decide +kernel
theorem witness_BulkAndFlash_link : let s := flashed running
    let i : F0Init := ⟨true, true, 5#4, 4#8, [(1#32, 9#8)], 17#32⟩
    (∀ c, c < 2 → (SMap.get 0#32 s.flash.state c).getLsbD 0 = true) ∧ s.boot.phase = .ready ∧ s.integ.fatalState = 0#8
      ∧ s.tap.landsTaken = false ∧ s.flash.heldDown.getLsbD 1 = false ∧ s.loader.active = none ∧ i.up = true
      ∧ (i.spaces.map Prod.fst).Nodup := by decide +kernel
/-- Inbound requests at the edges of the two windows. -/
theorem witness_BulkAndFlash_inbound : (∀ x ∈ ([(0x40000000, 256, true), (0x43FFFFFF, 1, true), (0x40000000, 0, false), (0x43FFFFFF, 2, false)] :
      List (Nat × Nat × Bool)),
      let r : PcieRequest := ⟨true, true, BitVec.ofNat 64 x.1, BitVec.ofNat 13 x.2.1, List.replicate x.2.1 1#8⟩
      (SMap.get 0#32 (flashed running).flash.state r.ctrl.toNat).getLsbD 0 = true ∧
      (x.2.2 = true ↔ (0x40000000 ≤ r.addr.toNat ∧ r.addr.toNat + r.len.toNat ≤ 0x44000000) ∧ 0 < r.len.toNat
        ∧ r.len.toNat ≤ 256 ∧ r.data.length = r.len.toNat))
    ∧ (let r : PcieRequest := ⟨true, false, 0x800FF000#64, 4096#13, []⟩
       0x80000000 ≤ r.addr.toNat ∧ r.addr.toNat + r.len.toNat ≤ 0x80100000 ∧ 0 < r.len.toNat ∧ r.len.toNat ≤ 4096) := by decide +kernel

/-! ### Boot, keys and the test port -/

theorem witness_BootAndKeys_release : let g : PowerGood := ⟨true, true, true, true, true⟩
    (booting .held running).boot.phase = .held ∧ (booting .off running).boot.phase = .off
      ∧ (g.supply = true ∧ g.regulated = true ∧ g.rstN = true ∧ g.locked = true)
      ∧ ¬ ({ g with rstN := false }).rstN = true := by decide
theorem witness_BootAndKeys_reset : (9999#32 : BitVec 32).toNat < 10000 ∧ 10000 ≤ (10000#32 : BitVec 32).toNat ∧ running.boot.phase ≠ .off
    ∧ ∀ n ∈ [0, 1], writeFits (unloaded []) 0x2100 4 (writing 0x2100 4 0 n) (rowOf 0x2100 4)
      ∧ (writing 0x2100 4 0 n).value = [BitVec.ofNat 8 n] := by unfold writeFits; decide +kernel
theorem witness_BootAndKeys_phases : let f := booting .firmware State.reset
    f.boot.phase = .firmware ∧ f.boot.failed = false ∧ f.boot.derived = false ∧ f.part.idSeed = true ∨ f.part.idSeed = false := by decide +kernel
theorem witness_BootAndKeys_open : let f : State := { State.reset with boot := { State.reset.boot with phase := .firmware, derived := true } }
    f.boot.phase = .firmware ∧ f.boot.failed = false ∧ f.boot.derived = true ∧ f.integ.fatalState = 0#8 := by decide +kernel
theorem witness_BootAndKeys_bringup : let o := booting .opened State.reset
    o.boot.phase = .opened ∧ o.boot.failed = false ∧ o.integ.fatalState = 0#8 ∧ o.tap.landsTaken = false ∧ o.jobLoaded = false
      ∧ o.clock.refLost = false := by decide +kernel
/-- A key's header byte, and one that no key has; a nonce. -/
def keyWrite (index sub n : Nat) (h : Byte) : DictWrite :=
  { writing index sub 0 0 with type := BitVec.ofNat 8 (rowOf index sub).type, length := BitVec.ofNat 16 n, value := h :: List.replicate (n - 1) 3#8 }
theorem witness_BootAndKeys_keys : ∀ sub ∈ [1, 2], ∀ h ∈ [0x0A#8, 0x0B#8], let w := keyWrite 0x2110 sub 1793 h
    writeFits (unloaded []) 0x2110 sub w (rowOf 0x2110 sub) ∧ w.value.head? = some h := by unfold writeFits; decide +kernel
def attesting (a : Option Attest) : State := { unloaded [] with boot := { (unloaded []).boot with idState := 1#8, attest := a } }
theorem witness_BootAndKeys_attest : ∀ a ∈ [none, some (⟨.kloder, 3#16, [1#8]⟩ : Attest)], let w := keyWrite 0x2130 1 32 7#8
    writeFits (attesting a) 0x2130 1 w (rowOf 0x2130 1) ∧ (attesting a).boot.idState = 1#8 ∧ (attesting a).boot.attest = a := by
  unfold writeFits; decide +kernel
theorem witness_BootAndKeys_attest_none : writeFits (unloaded []) 0x2130 1 (keyWrite 0x2130 1 32 7#8) (rowOf 0x2130 1)
    ∧ (unloaded []).boot.idState ≠ 1#8 := by unfold writeFits; decide +kernel
theorem witness_BootAndKeys_fuses : ∀ n ∈ [0x54434C53, 0x44434C53, 5],
    writeFits (unloaded []) 0x2140 1 (writing 0x2140 1 0 n) (rowOf 0x2140 1) ∧ wnum (writing 0x2140 1 0 n) = n
      ∧ (unloaded []).jobLoaded = false ∧ writeFits running 0x2140 1 (writing 0x2140 1 0 n) (rowOf 0x2140 1) ∧ running.jobLoaded = true := by
  unfold writeFits; decide +kernel
theorem witness_BootAndKeys_programmed : ∀ b ∈ [true, false], let s : State := { running with boot := { running.boot with fuses := [b] } }
    s.boot.fuses = [b] := by decide
theorem witness_TestPort : running.boot.phase ≠ .off ∧ running.tap.drive = .module ∧ running.boot.phase ≠ .held
    ∧ ({ running with tap := { running.tap with drive := .levels } } : State).tap.drive ≠ .module ∧ 7 ≤ (7#8 : BitVec 8).toNat
    ∧ 128 ≤ (128#8 : BitVec 8).toNat ∧ (128#8 : BitVec 8) ≠ 0xFF#8 ∧ (127#8 : BitVec 8).toNat < 128 := by decide +kernel
/-- Config says whether the fuse is blown on the part that comes to reset: both are parts. -/
theorem witness_TestPort_fuse : ∀ b ∈ [true, false], let s : State := { running with part := { running.part with testClose := b } }
    s.part.testClose = b := by decide

/-! ### Steps, memories, words, sums, accesses under way -/

def withRuns (rs : List Run) (s : State) : State := { s with ld := { s.ld with runs := rs } }
/-- A run of the vector core of hall 3 whose accesses stand on beats from 30 on; it has made `done` of them. -/
def runOf (seq : Nat) (acts : List Act) (sink : Sink) (done : Nat) : Run :=
  ⟨seq, 0, .mark, 40, acts.zipIdx.map fun e => ⟨[7], 1, 1, 0, 0, 30 + e.2, 0, false⟩, [], false, acts, sink, done, List.replicate done []⟩
theorem witness_StepTakesFront : (∀ c ∈ [Instr.mcNop 6, .event], ({ running with pending := [c] } : State).pending = c :: [])
    ∧ running.pending = [] ∧ running.ld.runs = []
    ∧ ({ withRuns [runOf 1 [.read [.pantry 11 8184 8]] (.scalar 3 2#5) 0] running with pending := [] } : State).pending = [] := by
  refine ⟨?_, by decide, by decide, by decide⟩; intro c _; rfl
theorem reset_memories : State.reset.memoriesOk := by unfold State.memoriesOk; decide
theorem witness_MemoriesStayCanonical : State.reset.memoriesOk ∧ ∃ t, stepsTo State.reset t :=
  ⟨reset_memories, _, rfl⟩
theorem witness_FusesStayBlown : (∃ t, stepsTo State.reset t) ∧ ∃ t, exec (.rstN 9999#32) running = .next t := by
  exact ⟨⟨_, rfl⟩, ⟨running, show execRstN 9999#32 running = _ from if_pos (Or.inl (by decide))⟩⟩
theorem witness_CoreWordsDecode : (∀ i ∈ [Instr.mcLoadw 6 (loadArgs true 4095#12), .mcAcc 6 accArgs, .mcDrain 6 (drainArgs 0xF#4)],
      i.wf = true ∧ (matrixWord i).isSome = true)
    ∧ ∀ i ∈ [Instr.iadd 3 ⟨1#3, true, 3#2, 5#6, 6#6, 7#6, 8#6, 0x3FF#10⟩, .lst 3 (memArgs 4095), .psend 3 argC],
      i.wf = true ∧ (vectorWord i).isSome = true := by decide +kernel
/-- Three products and a NaN in two orders; accumulators with one anchor, and with two. -/
def terms : List (Option Dy) := [some ⟨3, 0⟩, none, some ⟨-5, -2⟩, some ⟨2 ^ 60, 80⟩]
theorem witness_SumsInAnyOrder : terms.Perm terms.reverse ∧ (⟨1#136, 3#10, false, false⟩ : Acc).a = (⟨7#136, 3#10, true, false⟩ : Acc).a
    ∧ (⟨1#136, 0x3FF#10, false, false⟩ : Acc).a.toInt < (⟨7#136, 3#10, true, false⟩ : Acc).a.toInt
    ∧ (Acc.addAll ⟨0#136, 3#10, false, false⟩ [some ⟨3, 0⟩]).1.x = BitVec.ofInt 136 (3 * 2 ^ 77) :=
  ⟨(List.reverse_perm _).symm, rfl, by decide, by decide +kernel⟩
/-- A part with hall 3 disabled. -/
theorem witness_DisabledHalls : let s : State := { running with part := { running.part with disabled := 8#192 } }
    (∀ c ∈ [6, 7], s.hallEnabled (c / 2) = false) ∧ s.hallEnabled 3 = false ∧ (∀ k ∈ [288, 383], s.hallEnabled (k / 96) = false) := by
  decide +kernel
/-- On a whole part, with the words of other commands at the cores' addresses. -/
theorem witness_DisabledHalls_issue : let s := mready (.mcEnd 6)
    let v := ready (.vcEnd 3)
    s.hallEnabled 3 = true ∧ (Through s fun s => s.mcIssues 6 (.mcNop 6) = false) ∧ v.hallEnabled 3 = true
      ∧ Through v fun s => s.vcIssues 3 (.vcNop 3) = false := by
  have hm : (mready (.mcEnd 6)).mcIssues 6 (.mcNop 6) = false := by decide +kernel
  have hv : (ready (.vcEnd 3)).vcIssues 3 (.vcNop 3) = false := by decide +kernel
  exact ⟨by decide, through_still (by with_unfolding_all rfl) fun _ _ _ => hm, by decide,
    through_still (by with_unfolding_all rfl) fun _ _ _ => hv⟩

/-! ### Accesses on their beats -/

def rowPlace3 (k o : Nat) : Place := .row 3 2 k o [o]
/-- Handle 5 is two rows, handle 6 a grid region; handle 9 is bound to nothing. -/
theorem witness_AccessesOnTheirBeats_order :
    let r := runOf 1 [.read [rowPlace3 5 0], .read [rowPlace3 5 1]] (.lanes 3 9#6 1#256 2#256) 0
    let q := runOf 2 [.read [.pantry 11 8184 8]] (.scalar 3 2#5) 0
    let s := withRuns [r, q] handled
    nextAct s.ld.runs 31 = some r ∧ r ∈ s.ld.runs ∧ r.pends = true ∧ nextAct s.ld.runs 30 = none
      ∧ nextAct s.ld.runs (max s.milestone 26) = none
      ∧ (s.moving = true ∧ ({ s with integ := { s.integ with halted := true } } : State).moving = false) := by decide +kernel
theorem witness_AccessesOnTheirBeats_refused :
    (∀ p ∈ [rowPlace3 9 0, rowPlace3 5 2], (handled.placeFault p false).isSome = true ∧ (handled.placeFault p true).isSome = true)
    ∧ (runOf 1 [.read [rowPlace3 9 0]] .none 0).acts[0]? = some (.read [rowPlace3 9 0])
    ∧ (runOf 1 [.patch (rowPlace3 9 0) 1#512 [7#8]] .none 0).acts[0]? = some (.patch (rowPlace3 9 0) 1#512 [7#8]) := by decide +kernel
theorem witness_AccessesOnTheirBeats_patch : (∀ k ∈ [5, 6], handled.placeFault (rowPlace3 k 1) true = none)
    ∧ (handled.handle 0 5).grid = false ∧ (handled.handle 0 6).grid = true ∧ hallTower 3 = 0
    ∧ (List.replicate 512 7#8).length = 512 ∧ pantrySize 11 = 524288
    ∧ (runOf 1 [.patch (.pantry 11 524280 16) 3#512 [7#8, 8#8]] .none 0).acts[0]? = some (.patch (.pantry 11 524280 16) 3#512 [7#8, 8#8]) := by
  decide +kernel
theorem witness_AccessesOnTheirBeats_read : ∀ p ∈ [rowPlace3 5 0, rowPlace3 6 9, .pantry 11 524280 8],
    handled.placeFault p false = none
      ∧ (runOf 1 [.read [p]] (.scalar 3 0#5) 0).sink = .scalar 3 0#5 ∧ (runOf 1 [.read [p]] (.lanes 3 9#6 1#256 2#256) 0).acts[0]? = some (.read [p])
      ∧ (runOf 1 [.read [p], .read [p]] (.lanes 3 9#6 1#256 2#256) 1).acts[1]? = some (.read [p]) := by decide +kernel
theorem witness_AccessesOnTheirBeats_source : (let x := going rowCopy 0 0 0 []
      (moving x).transferAt 2 x.start = some x ∧ (PDesc.src x.desc).space = 1
      ∧ (moving x).rowsFault 2 (PDesc.src x.desc) (PDesc.src x.desc).mhall 0 512 false = none
      ∧ (running.setPorter 2 { Porter.idle with active := [x] }).transferAt 2 x.start = some x
      ∧ ((running.setPorter 2 { Porter.idle with active := [x] }).rowsFault 2 (PDesc.src x.desc) (PDesc.src x.desc).mhall 0 512 false).isSome = true
      ∧ ((moving x).handle ((PDesc.src x.desc).mhall / 48) (PDesc.src x.desc).handle).ok = true)
    ∧ (let x := going (copyWith true false false) 0 0 0 []
       (moving x).transferAt 2 x.start = some x ∧ (PDesc.src x.desc).space ≠ 1) := by decide +kernel
theorem witness_AccessesOnTheirBeats_line : let x := going rowCopy 0 0 0 []
    let e : Endpoint := ⟨place 1 false 3 0 6 9, 0#64⟩
    e.space = 1 ∧ (moving x).rowsFault 2 e 3 0 512 true = none ∧ (running.rowsFault 2 e 3 0 512 true).isSome = true
      ∧ (∀ d ∈ [25, 26], (moving x).milestone ≤ d) ∧ (∃ d ∈ [24, 26], d < (moving x).milestone)
      ∧ (moving x).job.slips.toNat + 2 < 2 ^ 64 := by decide +kernel

end Sys2Proof.Tests
end

/-! O59: what the products of an accumulator element add to it, and the sum of two records (R47 to R53, R60, R61). -/

namespace Sys2Proof.Machine

open Sys2Proof.Claims

/-! ### One product -/

/-- The model's shift to the left or to the right is the floor of the exact quotient (R48). -/
theorem Dy.floorAt_eq_floor (p : Dy) (w : Int) : p.floorAt w = ⌊(p.m : ℚ) * 2 ^ (p.e - w)⌋ := by
  simp only [Dy.floorAt]
  split
  · next h =>
    obtain ⟨n, hn⟩ := Int.eq_ofNat_of_zero_le h
    rw [hn, Int.toNat_natCast, zpow_natCast]
    exact_mod_cast (Int.floor_intCast (R := ℚ) (p.m * 2 ^ n)).symm
  · next h =>
    obtain ⟨n, hn⟩ := Int.eq_ofNat_of_zero_le (show 0 ≤ -(p.e - w) by omega)
    rw [hn, Int.toNat_natCast, show p.e - w = -(n : Int) by omega, zpow_neg, zpow_natCast, ← div_eq_mul_inv]
    exact_mod_cast (Rat.floor_intCast_div_natCast p.m (2 ^ n)).symm

theorem clampInt_eq_max_min {lo hi : Int} (h : lo ≤ hi) (v : Int) : clampInt lo hi v = max lo (min hi v) := by
  unfold clampInt
  split
  · omega
  · split <;> omega

/-- A product is out of the 128-bit range at the anchor, so that it is clamped (R49). -/
def clips (a : BitVec 10) : Option Dy → Bool
  | none => false
  | some p => decide (clamped a (some p) ≠ truncated a p)

/-- R49 to R51 as one equation: X takes the clamped integer, SAT and NAN what happened to the product. -/
theorem Acc.addProduct_fst (c : Acc) (p : Option Dy) :
    (c.addProduct p).1 = ⟨c.x + BitVec.ofInt 136 (clamped c.a p), c.a, c.sat || clips c.a p, c.nan || p.isNone⟩ := by
  cases p with
  | none => simp [Acc.addProduct, clamped, clips]
  | some p =>
    have hfloor : p.floorAt (c.a.toInt - 80) = truncated c.a p := Dy.floorAt_eq_floor p _
    have hclamp : clampInt (-2 ^ 127) (2 ^ 127 - 1) (truncated c.a p) = clamped c.a (some p) :=
      clampInt_eq_max_min (by decide) _
    simp only [Acc.addProduct, hfloor, hclamp, clips, Option.isNone_some, Bool.or_false]

/-! ### All the products -/

/-- The element of a fold does not depend on the conditions that the fold gathers beside it. -/
theorem Acc.addAll_fst_eq_foldl (c : Acc) (ps : List (Option Dy)) :
    (c.addAll ps).1 = ps.foldl (fun c p => (c.addProduct p).1) c :=
  (List.foldl_hom Prod.fst fun _ _ => rfl).symm

/-- R49 to R53: what a list of products makes of an element. -/
theorem Acc.addAll_fst (c : Acc) (ps : List (Option Dy)) :
    (c.addAll ps).1 = ⟨c.x + BitVec.ofInt 136 (ps.map (clamped c.a)).sum, c.a,
      c.sat || ps.any (clips c.a), c.nan || ps.any Option.isNone⟩ := by
  rw [Acc.addAll_fst_eq_foldl]
  induction ps generalizing c with
  | nil => simp
  | cons p ps ih =>
    rw [List.foldl_cons, ih, Acc.addProduct_fst]
    simp only [List.map_cons, List.sum_cons, List.any_cons, BitVec.ofInt_add, BitVec.add_assoc, Bool.or_assoc]

/-- R52: the order of the products is free, since a sum and a disjunction over a list do not depend on it. -/
theorem Acc.addAll_fst_perm (c : Acc) {ps qs : List (Option Dy)} (h : ps.Perm qs) :
    (c.addAll ps).1 = (c.addAll qs).1 := by
  rw [Acc.addAll_fst, Acc.addAll_fst, (h.map _).sum_eq, h.any_eq, h.any_eq]

/-- R53: X is the exact sum where 136 bits hold it. -/
theorem Acc.addAll_x_toInt {c : Acc} {ps : List (Option Dy)} (hx : c.x = 0#136)
    (hlo : -2 ^ 135 ≤ (ps.map (clamped c.a)).sum) (hhi : (ps.map (clamped c.a)).sum ≤ 2 ^ 135 - 1) :
    (c.addAll ps).1.x.toInt = (ps.map (clamped c.a)).sum := by
  rw [Acc.addAll_fst]
  simp only [hx, BitVec.zero_add]
  exact BitVec.toInt_ofInt_eq_self (by decide) hlo (by omega)

theorem Acc.addAll_nan (c : Acc) (ps : List (Option Dy)) :
    (c.addAll ps).1.nan = true ↔ c.nan = true ∨ none ∈ ps := by
  simp [Acc.addAll_fst]

theorem Acc.addAll_sat (c : Acc) (ps : List (Option Dy)) :
    (c.addAll ps).1.sat = true
      ↔ c.sat = true ∨ ∃ p, some p ∈ ps ∧ clamped c.a (some p) ≠ truncated c.a p := by
  have hany : ps.any (clips c.a) = true ↔ ∃ p, some p ∈ ps ∧ clamped c.a (some p) ≠ truncated c.a p := by
    rw [List.any_eq_true]
    constructor
    · rintro ⟨_ | p, hp, hclip⟩
      · cases hclip
      · exact ⟨p, hp, of_decide_eq_true hclip⟩
    · rintro ⟨p, hp, hne⟩
      exact ⟨some p, hp, decide_eq_true hne⟩
  rw [Acc.addAll_fst, Bool.or_eq_true, hany]

/-! ### Two records -/

/-- R60: with equal anchors neither X is shifted. -/
theorem Acc.add_of_anchor_eq {c d : Acc} (h : c.a = d.a) :
    c.add d = ⟨c.x + d.x, c.a, c.sat || d.sat, c.nan || d.nan⟩ := by
  simp [Acc.add, ← h]

/-- R61: the X of the smaller anchor is shifted right with floor, then R60. -/
theorem Acc.add_of_anchor_lt {c d : Acc} (h : c.a.toInt < d.a.toInt) :
    c.add d = ⟨BitVec.ofInt 136 ⌊(c.x.toInt : ℚ) / 2 ^ (d.a.toInt - c.a.toInt)⌋ + d.x, d.a,
      c.sat || d.sat, c.nan || d.nan⟩ := by
  obtain ⟨n, hn⟩ := Int.eq_ofNat_of_zero_le (show 0 ≤ d.a.toInt - c.a.toInt by omega)
  have hfloor : ⌊(c.x.toInt : ℚ) / 2 ^ n⌋ = c.x.toInt / 2 ^ n := by
    exact_mod_cast Rat.floor_intCast_div_natCast c.x.toInt (2 ^ n)
  simp [Acc.add, max_eq_right h.le, hn, hfloor]

theorem Acc.add_comm (c d : Acc) : c.add d = d.add c := by
  simp only [Acc.add, max_comm c.a.toInt, BitVec.add_comm (BitVec.ofInt 136 (c.x.toInt / _)), Bool.or_comm c.sat,
    Bool.or_comm c.nan]

/-- R52: products gathered in a record of their own, from 0 at the same anchor, add to an element as they would one by
one. -/
theorem Acc.addAll_append_fst (c : Acc) (ps qs : List (Option Dy)) :
    (c.addAll (ps ++ qs)).1 = (c.addAll ps).1.add (Acc.addAll ⟨0#136, c.a, false, false⟩ qs).1 := by
  rw [Acc.add_of_anchor_eq (by simp only [Acc.addAll_fst])]
  simp only [Acc.addAll_fst, List.map_append, List.sum_append, List.any_append, BitVec.ofInt_add, BitVec.add_assoc,
    BitVec.zero_add, Bool.or_assoc, Bool.false_or]

/-- Settles O59: every clause follows from what a list of products makes of an element (`Acc.addAll_fst`) and from the
two cases of the sum of records. -/
theorem sumsInAnyOrder : Obligations.SumsInAnyOrder := by
  unfold Obligations.SumsInAnyOrder
  intro c d ps qs
  exact ⟨c.addAll_fst_perm, c.addAll_append_fst ps qs, by rw [Acc.addAll_fst], by rw [Acc.addAll_fst],
    Acc.addAll_x_toInt, c.addAll_nan ps, c.addAll_sat ps, Acc.add_of_anchor_eq,
    fun h => ⟨Acc.add_of_anchor_lt h, c.add_comm d⟩⟩

end Sys2Proof.Machine

/-! O17: a SETKEYS that reads over the end of a Pantry whose list of bytes does not end there (R88, R102, R141). -/

namespace Sys2Proof.Machine

open Sys2Proof.Claims

/-! ### A core that is about to issue, with no access under way -/

/-- With no run under way, what holds now and is kept as beats pass holds on whatever beats come. -/
theorem through_of_runs_nil {s : State} {P : State → Prop} (hruns : s.ld.runs = []) (hs : P s)
    (hpass : ∀ (u : State) (b : Nat), P u → P (u.pass b)) : Through s P := by
  intro bs
  induction bs generalizing s with
  | nil => exact hs
  | cons b bs ih =>
    rw [List.foldl_cons, s.toBeat_clear b hruns]
    exact ih hruns (hpass s b hs)

/-- Passing beats moves nothing that the sequencer looks at. -/
theorem McReady.of_runs_nil {c : MCoreId} {i : Instr} {s : State} (hruns : s.ld.runs = [])
    (henabled : s.hallEnabled (c.val / 2) = true) (hissues : s.mcIssues c i = true) : McReady c i s :=
  ⟨henabled, through_of_runs_nil hruns hissues fun _ _ h => h⟩

/-! ### A Pantry that lists a byte past its end -/

/-- SETKEYS from address register 0, which stays. -/
def keysFromA0 : SetkeysArgs := ⟨0#3, false⟩

/-- Core 0 of a running job is about to issue `keysFromA0`, whose word is the byte 0x20 at address 7. Address register 0
holds the last granule of the Pantry, so that byte 32 of the key map is the Pantry's byte 0 (R88, R141), which reads 0.
The Pantry is in its canonical form, but lists a byte at address 2^20, where a Pantry of 1 MiB has none. -/
def listsPastEnd : State :=
  { State.reset with
    job := { State.reset.job with loadState := 5#8 }
    mc := [(0, { MCore.idle with running := true, ar := [(0, ⟨32767#24, 0#16⟩)] })]
    pantry := [(0, [(7, 0x20#8), (2 ^ 20, 1#8)])] }

theorem mcReady_listsPastEnd : McReady 0 (.mcSetkeys 0 keysFromA0) listsPastEnd :=
  McReady.of_runs_nil rfl (by decide +kernel) (by decide +kernel)

/-- Key `i` of the newest column-key map that core `c` holds `n` beats after a command. -/
def newestKey (c : MCoreId) (i n : Nat) : Res → Option (BitVec 32)
  | .next t =>
    (((t.toBeat (t.milestone + n)).mcore c).keysNext.map Prod.snd).getLast?.map fun keys => SMap.get 0#32 keys i
  | _ => none

/-- The window that the load reads takes the listed byte for byte 0 of the Pantry. -/
theorem newestKey_listsPastEnd : newestKey 0 8 2 (exec (.mcSetkeys 0 keysFromA0) listsPastEnd) = some 1#32 := by
  decide +kernel

/-- Refutes O17: the statement quantifies over every state, also those whose Pantry lists a byte at or past its size. A
load that runs over the end (`State.pantryWindow`) reads such a byte, where R141 wraps to address 0. In `listsPastEnd`
SETKEYS brings 1 as column key 8, and the Pantry spells 0 there. The refutation is about such states alone: it says
nothing of Pantries that list no byte past their size. -/
theorem not_matrixLoads : ¬ Obligations.MatrixLoads := by
  unfold Obligations.MatrixLoads
  intro h
  obtain ⟨-, -, -, -, -, -, hlands⟩ :=
    h 0 ⟨false, false, 0#4, 0#3, false, 0#3, false, 0#12, false, 0#8⟩ keysFromA0 listsPastEnd
  obtain ⟨t, hexec, -, -, -, -, -, -, -, -, -, keys, hkeys, hkey⟩ := hlands mcReady_listsPastEnd rfl
  have hone : newestKey 0 8 2 (.next t) = some 1#32 := hexec ▸ newestKey_listsPastEnd
  have hread : SMap.get 0#32 keys 8 = 1#32 := by
    rw [newestKey, hkeys, List.getLast?_concat] at hone
    exact Option.some.inj hone
  have hspelt : SMap.get 0#32 keys 8 = 0#32 := (hkey 8 (by decide)).trans (by decide +kernel)
  exact absurd (hread.symm.trans hspelt) (by decide)

end Sys2Proof.Machine

/-! Instructions of a vector core on its own registers: completion, and the frame of a write to a register (R111, R112, R118). -/

namespace Sys2Proof.Machine

open Sys2Proof.Claims

/-! ### Completion (R112) -/

/-- A register write of hall `h` leaves other cores alone, and of the accesses under way all but where they bring what they
read. -/
theorem onlyVector_overtake_setVcore (u : State) (h : HallId) (dsts : List Nat) (v : VCore) (f : VCore → VCore) (w : VCore) :
    onlyVector h u ((u.overtake h dsts v f).setVcore h w) := by
  refine ⟨rfl, fun k hk => ?_, ?_⟩
  · rw [State.vcore_setVcore, if_neg hk]
    rfl
  · show (u.ld.runs.map _).map unsunk = _
    rw [List.map_map]
    rfl

/-- What an instruction on registers makes of its core is what it leaves there, since it completes on its issue beat. -/
theorem vcDoesAt_of_vcReg {h : HallId} {i : Instr} {t : VTiming} {f : State → VCore → VCore}
    {Q : State → Nat → VCore → VCore → Prop} (hexec : ∀ s, exec i s = vcReg h i t s (f s))
    (hQ : ∀ s v b l, Q s b v ((f s v).retire t b l)) : vcDoesAt h i Q := by
  rintro s ⟨henabled, hissues⟩
  refine ⟨_, _, (hexec s).trans (vcReg_next h i t s (f s) henabled (hissues [_])),
    onlyVector_overtake_setVcore _ _ _ _ _ _, ?_⟩
  rw [State.vcore_setVcore, if_pos rfl]
  exact hQ _ _ _ _

/-- The same of a claim that needs no beat. -/
theorem vcDoes_of_vcReg {h : HallId} {i : Instr} {t : VTiming} {f : VCore → VCore} {Q : VCore → VCore → Prop}
    (hexec : ∀ s, exec i s = vcReg h i t s f) (hQ : ∀ v b l, Q v ((f v).retire t b l)) : vcDoes h i Q :=
  vcDoesAt_of_vcReg (f := fun _ => f) hexec fun _ => hQ

/-! ### Registers after a status bit and after moving on -/

@[simp] theorem VCore.vreg_flag (v : VCore) (f : BitVec 8) (k : BitVec 6) : (v.flag f).vreg k = v.vreg k :=
  VCore.vreg_congr (by simp) k

@[simp] theorem VCore.esElem_flag (v : VCore) (f : BitVec 8) (k : BitVec 3) (i : Nat) :
    (v.flag f).esElem k i = v.esElem k i :=
  VCore.esElem_congr (by simp) k i

@[simp] theorem VCore.vreg_retire (v : VCore) (t : VTiming) (b l : Nat) (k : BitVec 6) :
    (v.retire t b l).vreg k = v.vreg k :=
  VCore.vreg_congr (by simp) k

@[simp] theorem VCore.esElem_retire (v : VCore) (t : VTiming) (b l : Nat) (k : BitVec 3) (i : Nat) :
    (v.retire t b l).esElem k i = v.esElem k i :=
  VCore.esElem_congr (by simp) k i

section Frames
variable (v : VCore) (fl : BitVec 8) (t : VTiming) (b l : Nat)

/-! ### A vector register written (R118) -/

theorem vcGoesOn_setV (d : BitVec 6) (x : VReg) : vcGoesOn v (((v.setV d x).flag fl).retire t b l) fl := by
  simp [vcGoesOn, vcKeeps]

theorem onlyV_setV (d : BitVec 6) (x : VReg) : onlyV v (((v.setV d x).flag fl).retire t b l) d := by
  refine ⟨fun k hk => ?_, by simp⟩
  simp [hk]

theorem vcGoesOn_writeLanes (d : BitVec 6) (p : BitVec 3) (zero : Bool) (f : Nat → W32) :
    vcGoesOn v (((v.writeLanes d p zero f).flag fl).retire t b l) fl :=
  vcGoesOn_setV ..

theorem lanesTake_writeLanes (d : BitVec 6) (p : BitVec 3) (zero : Bool) (f : Nat → W32) :
    lanesTake v (((v.writeLanes d p zero f).flag fl).retire t b l) d p zero f := by
  refine ⟨onlyV_setV .., fun i hi => ?_⟩
  simp [VCore.writeLanes, lane_maskLanes _ _ _ _ _ hi]

/-! ### An exact-sum register written (R126 to R129) -/

theorem vcGoesOn_setEs (d : BitVec 3) (f : Nat → Acc) : vcGoesOn v (((v.setEs d f).flag fl).retire t b l) fl := by
  simp [vcGoesOn, vcKeeps]

theorem sumTakes_setEs (d : BitVec 3) (f : Nat → Acc) : sumTakes v (((v.setEs d f).flag fl).retire t b l) d f := by
  refine ⟨fun k i hi => ?_, by simp⟩
  simp [VCore.esElem_setEs _ _ _ _ _ hi]

end Frames

end Sys2Proof.Machine

/-! O3: the integer instructions on packed elements (R109, R113, R118, R119). -/

namespace Sys2Proof.Machine

open Sys2Proof.Claims

/-! ### Elements in lanes (R109) -/

/-- Element `e` of width `w` lies in lane `w e / 32`. -/
theorem elem_div_perLane {w : Nat} (hw : w ∣ 32) (e : Nat) : e / (32 / w) = e * w / 32 := by
  obtain ⟨m, hm⟩ := hw
  have hpos : 0 < w := Nat.pos_of_ne_zero (by rintro rfl; simp at hm)
  rw [hm, Nat.mul_div_cancel_left m hpos, Nat.mul_comm w m, Nat.mul_div_mul_right _ _ hpos]

/-- R118 element by element, of lanes of packed results. -/
theorem elemOf_of_lanesTake {v v' : VCore} {d : BitVec 6} {p : BitVec 3} {zero : Bool} {w : Nat} {op : Nat → Nat → Nat}
    {x y : VReg} (hw : w ∣ 32) (hlanes : lanesTake v v' d p zero fun k => packedLane w op (lane x k) (lane y k))
    {e : Nat} (he : e < 8192 / w) :
    elemOf w (v'.vreg d) e = if (v.preg p).getLsbD (e * w / 32) then op (elemOf w x e) (elemOf w y e) % 2 ^ w
      else if zero then 0 else elemOf w (v.vreg d) e := by
  have hperLane : 0 < 32 / w := Nat.div_pos (Nat.le_of_dvd (by decide) hw) (Nat.pos_of_dvd_of_pos hw (by decide))
  have hlane : e / (32 / w) < 256 := by
    rw [Nat.div_lt_iff_lt_mul hperLane, ← Nat.mul_div_assoc _ hw]
    exact he
  have htake := hlanes.2 _ hlane
  rw [elemOf_eq_lane w hw _ e, htake, ← elem_div_perLane hw]
  split
  · rw [packedLane_elem w hw op _ _ _ (Nat.mod_lt _ hperLane), ← elemOf_eq_lane w hw, ← elemOf_eq_lane w hw]
  · split
    · simp
    · rw [← elemOf_eq_lane w hw]

/-- The element widths of the FORMs (R113). -/
theorem elemWidth_dvd (form : BitVec 2) : elemWidth form ∣ 32 := by
  unfold elemWidth
  split
  · decide
  · split <;> decide

/-! ### Integers as elements (R119) -/

theorem signedOf_eq_toInt (w x : Nat) : signedOf w x = (BitVec.ofNat w x).toInt := by
  rw [BitVec.toInt_eq_toNat_cond, BitVec.toNat_ofNat, signedOf]
  cases w with
  | zero => simp [Nat.mod_one]
  | succ n =>
    have hhalf : (2 * (x % 2 ^ (n + 1)) < 2 ^ (n + 1)) ↔ x % 2 ^ (n + 1) < 2 ^ n := by rw [pow_succ]; omega
    simp [hhalf]

theorem signedElem_eq (w : Nat) (r : VReg) (e : Nat) : signedElem w r e = signedOf w (elemOf w r e) :=
  (signedOf_eq_toInt w _).symm

/-- The signed and the unsigned value of an element differ by a multiple of 2^w. -/
theorem signedOf_modEq (w x : Nat) : signedOf w x ≡ x [ZMOD 2 ^ w] := by
  have h := Int.bmod_emod (x := (x : Int)) (m := 2 ^ w)
  rw [signedOf_eq_toInt, BitVec.toInt_ofNat']
  exact_mod_cast h

theorem cast_mod_two_pow (w n : Nat) : ((n % 2 ^ w : Nat) : Int) = (n : Int) % 2 ^ w := by
  push_cast
  rfl

theorem cast_toElem_mod (w : Nat) (i : Int) : ((toElem w i % 2 ^ w : Nat) : Int) = i % 2 ^ w := by
  rw [cast_mod_two_pow, toElem, Int.toNat_of_nonneg (Int.emod_nonneg _ (by positivity)), Int.emod_emod]

theorem cast_satSigned_mod (w : Nat) (i : Int) :
    ((satSigned w i % 2 ^ w : Nat) : Int) = max (-2 ^ (w - 1)) (min (2 ^ (w - 1) - 1) i) % 2 ^ w := by
  have hpos : (0 : Int) < 2 ^ (w - 1) := by positivity
  rw [satSigned, cast_toElem_mod, clampInt_eq_max_min (by omega)]

theorem cast_satUnsigned_mod (w : Nat) (i : Int) :
    ((satUnsigned w i % 2 ^ w : Nat) : Int) = max 0 (min (2 ^ w - 1) i) % 2 ^ w := by
  have hpos : (0 : Int) < 2 ^ w := by positivity
  rw [satUnsigned, cast_toElem_mod, clampInt_eq_max_min (by omega)]

/-! ### What each instruction computes (R119) -/

/-- The function `op` on elements of width `w` is, modulo 2^w, the integer function `r` of their signed and unsigned
values. -/
def Computes (op : Nat → Nat → Nat → Nat) (r : Nat → Int → Int → Int → Int → Int) : Prop :=
  ∀ w x y : Nat, ((op w x y % 2 ^ w : Nat) : Int) = r w (signedOf w x) (signedOf w y) x y % 2 ^ w

theorem computes_opIadd : Computes opIadd fun _ sx sy _ _ => sx + sy := by
  intro w x y
  rw [opIadd, Nat.mod_mod, cast_mod_two_pow, Nat.cast_add]
  exact ((signedOf_modEq w x).add (signedOf_modEq w y)).symm

theorem computes_opIadds :
    Computes opIadds fun w sx sy _ _ => max (-2 ^ (w - 1)) (min (2 ^ (w - 1) - 1) (sx + sy)) :=
  fun w _ _ => cast_satSigned_mod w _

theorem computes_opIaddu : Computes opIaddu fun w _ _ ux uy => max 0 (min (2 ^ w - 1) (ux + uy)) :=
  fun w _ _ => cast_satUnsigned_mod w _

theorem computes_opIsub : Computes opIsub fun _ sx sy _ _ => sx - sy := by
  intro w x y
  rw [opIsub, cast_toElem_mod]
  exact ((signedOf_modEq w x).sub (signedOf_modEq w y)).symm

theorem computes_opIsubs :
    Computes opIsubs fun w sx sy _ _ => max (-2 ^ (w - 1)) (min (2 ^ (w - 1) - 1) (sx - sy)) :=
  fun w _ _ => cast_satSigned_mod w _

theorem computes_opIsubu : Computes opIsubu fun w _ _ ux uy => max 0 (min (2 ^ w - 1) (ux - uy)) :=
  fun w _ _ => cast_satUnsigned_mod w _

theorem computes_opImul : Computes opImul fun _ sx sy _ _ => sx * sy := by
  intro w x y
  rw [opImul, Nat.mod_mod, cast_mod_two_pow, Nat.cast_mul]
  exact ((signedOf_modEq w x).mul (signedOf_modEq w y)).symm

theorem computes_opImulh : Computes opImulh fun w sx sy _ _ => sx * sy / 2 ^ w :=
  fun w _ _ => cast_toElem_mod w _

/-- The key by which IMIN and IMAX compare an element is its signed or its unsigned value. -/
theorem elemKey_modEq (unsigned : Bool) (w x : Nat) : elemKey unsigned w x ≡ x [ZMOD 2 ^ w] := by
  cases unsigned with
  | false => exact signedOf_modEq w x
  | true => exact Int.ModEq.refl _

theorem computes_opImin (unsigned : Bool) :
    Computes (opImin unsigned) fun _ sx sy ux uy => if unsigned then min ux uy else min sx sy := by
  intro w x y
  have hkey : (if unsigned then min (x : Int) y else min (signedOf w x) (signedOf w y))
      = min (elemKey unsigned w x) (elemKey unsigned w y) := by cases unsigned <;> rfl
  dsimp only
  rw [hkey, cast_mod_two_pow, opImin]
  split
  · next h => rw [min_eq_left h]; exact (elemKey_modEq unsigned w x).symm
  · next h => rw [min_eq_right (not_le.1 h).le]; exact (elemKey_modEq unsigned w y).symm

theorem computes_opImax (unsigned : Bool) :
    Computes (opImax unsigned) fun _ sx sy ux uy => if unsigned then max ux uy else max sx sy := by
  intro w x y
  have hkey : (if unsigned then max (x : Int) y else max (signedOf w x) (signedOf w y))
      = max (elemKey unsigned w x) (elemKey unsigned w y) := by cases unsigned <;> rfl
  dsimp only
  rw [hkey, cast_mod_two_pow, opImax]
  split
  · next h => rw [max_eq_left h]; exact (elemKey_modEq unsigned w x).symm
  · next h => rw [max_eq_right (not_le.1 h).le]; exact (elemKey_modEq unsigned w y).symm

theorem computes_opIabs : Computes opIabs fun w sx _ _ _ => min |sx| (2 ^ (w - 1) - 1) := by
  intro w x y
  have hpos : (0 : Int) < 2 ^ (w - 1) := by positivity
  have habs : (0 : Int) ≤ |signedOf w x| := abs_nonneg _
  rw [opIabs, cast_satSigned_mod, Int.natCast_natAbs, max_eq_right (by omega), min_comm]

/-- A shift takes its amount modulo the width. -/
theorem toNat_emod_natCast (y w : Nat) : ((y : Int) % w).toNat = y % w := by
  rw [← Int.natCast_mod, Int.toNat_natCast]

theorem computes_opIshl : Computes opIshl fun w _ _ ux uy => ux * 2 ^ (uy % w).toNat := by
  intro w x y
  dsimp only
  rw [opIshl, Nat.mod_mod, cast_mod_two_pow, toNat_emod_natCast]
  push_cast
  rfl

theorem computes_opIshr : Computes opIshr fun w _ _ ux uy => ux / 2 ^ (uy % w).toNat := by
  intro w x y
  dsimp only
  rw [opIshr, cast_mod_two_pow, toNat_emod_natCast]
  push_cast
  rfl

theorem computes_opIsra : Computes opIsra fun w sx _ _ uy => sx / 2 ^ (uy % w).toNat := by
  intro w x y
  dsimp only
  rw [opIsra, cast_toElem_mod, toNat_emod_natCast]

/-! ### The instructions (R113, R118, R119) -/

/-- What an integer instruction on elements makes of its core, whichever function of the elements it computes. -/
def intEffect (a : RArgs) (op : Nat → Nat → Nat → Nat) (v : VCore) : VCore :=
  (v.writeLanes a.vd a.pred a.zero fun k =>
    packedLane (elemWidth a.form) (op (elemWidth a.form)) (lane (v.vreg a.va) k) (lane (v.vreg a.vb) k)).flag
    (formBits false a.form)

theorem formFlag_eq_formBits (fp : Bool) (form : BitVec 2) : formFlag fp form = formBits fp form := by
  simp [formFlag, formBits, bitInsReserved]

/-- The instruction `i` takes the integer function `r` of its elements, wrapped to the width, in active lanes. -/
def takesInt (h : HallId) (a : RArgs) (i : Instr) (r : Nat → Int → Int → Int → Int → Int) : Prop :=
  vcDoes h i fun v v' =>
    let w := elemWidth a.form
    onlyV v v' a.vd ∧ vcGoesOn v v' (formBits false a.form)
      ∧ ∀ e, e < 8192 / w → (elemOf w (v'.vreg a.vd) e : Int) =
        if (v.preg a.pred).getLsbD (e * w / 32) then
          r w (signedElem w (v.vreg a.va) e) (signedElem w (v.vreg a.vb) e) (elemOf w (v.vreg a.va) e)
            (elemOf w (v.vreg a.vb) e) % 2 ^ w
        else if a.zero then 0 else elemOf w (v.vreg a.vd) e

theorem takesInt_of_computes {h : HallId} {a : RArgs} {i : Instr} {t : VTiming} {op : Nat → Nat → Nat → Nat}
    {r : Nat → Int → Int → Int → Int → Int} (hexec : ∀ s, exec i s = vcReg h i t s (intEffect a op))
    (hop : Computes op r) : takesInt h a i r := by
  refine vcDoes_of_vcReg hexec fun v b l => ⟨onlyV_setV .., vcGoesOn_writeLanes .., fun e he => ?_⟩
  have hlanes : lanesTake v ((intEffect a op v).retire t b l) a.vd a.pred a.zero _ := lanesTake_writeLanes ..
  rw [elemOf_of_lanesTake (elemWidth_dvd a.form) hlanes he]
  split
  · rw [hop, signedElem_eq, signedElem_eq]
  · split <;> rfl

/-- `vcInt` is the shape of all these instructions but IABS, whose function of two elements is one of the first alone. -/
theorem vcInt_eq (h : HallId) (i : Instr) (a : RArgs) (lat : Nat) (op : Nat → Nat → Nat → Nat) (s : State) :
    vcInt h i a lat op s = vcReg h i (timeR unitA a [a.va, a.vb] lat 1) s (intEffect a op) := by
  unfold vcInt intEffect
  rw [← formFlag_eq_formBits]
  rfl

theorem takesInt_of_vcInt {h : HallId} {a : RArgs} {i : Instr} {lat : Nat} {op : Nat → Nat → Nat → Nat}
    {r : Nat → Int → Int → Int → Int → Int} (hexec : ∀ s, exec i s = vcInt h i a lat op s) (hop : Computes op r) :
    takesInt h a i r :=
  takesInt_of_computes (fun s => (hexec s).trans (vcInt_eq h i a lat op s)) hop

theorem execIabs_eq (h : HallId) (a : RArgs) (s : State) :
    execIabs h a s = vcReg h (.iabs h a) (timeR unitA a [a.va] 2 1) s (intEffect a opIabs) := by
  unfold execIabs vcLane1 intEffect
  rw [← formFlag_eq_formBits]
  rfl

/-- Settles O3: every instruction writes packed lanes under its predicate, and each function of two elements is the
integer one modulo 2^w. -/
theorem vectorIntegerElements : Obligations.VectorIntegerElements := by
  unfold Obligations.VectorIntegerElements
  intro h a
  have habs : takesInt h a (.iabs h a) _ := takesInt_of_computes (execIabs_eq h a) computes_opIabs
  simp only [intOps, List.forall_mem_cons, List.not_mem_nil, false_imp_iff, implies_true, and_true]
  exact ⟨takesInt_of_vcInt (fun _ => rfl) computes_opIadd, takesInt_of_vcInt (fun _ => rfl) computes_opIadds,
    takesInt_of_vcInt (fun _ => rfl) computes_opIaddu, takesInt_of_vcInt (fun _ => rfl) computes_opIsub,
    takesInt_of_vcInt (fun _ => rfl) computes_opIsubs, takesInt_of_vcInt (fun _ => rfl) computes_opIsubu,
    takesInt_of_vcInt (fun _ => rfl) computes_opImul, takesInt_of_vcInt (fun _ => rfl) computes_opImulh,
    takesInt_of_vcInt (fun _ => rfl) (computes_opImin _), takesInt_of_vcInt (fun _ => rfl) (computes_opImax _), habs,
    takesInt_of_vcInt (fun _ => rfl) computes_opIshl, takesInt_of_vcInt (fun _ => rfl) computes_opIshr,
    takesInt_of_vcInt (fun _ => rfl) computes_opIsra⟩

end Sys2Proof.Machine

/-! O10: the exact-sum instructions (R126 to R131). -/

namespace Sys2Proof.Machine

open Sys2Proof.Claims

@[simp] theorem VCore.flag_zero (v : VCore) : v.flag 0#8 = v := by simp [VCore.flag]

/-- The bits that the active lanes' conditions set. -/
theorem bitsOver_laneConds (p : BitVec 256) (f : Nat → BitVec 8) : bitsOver p f (laneConds p f) :=
  laneConds_getLsbD p f

/-! ### XCLR (R126) -/

theorem vcDoes_xclr (h : HallId) (a : XArgs) : vcDoes h (.xclr h a) fun v v' => vcGoesOn v v' 0#8
    ∧ sumTakes v v' a.esd fun _ => Acc.anchored (xclrAnchor a (v.preg a.pred) (v.vreg a.va) (v.vreg a.vb)) := by
  refine vcDoes_of_vcReg (fun _ => rfl) fun v b l => ?_
  have hflag := VCore.flag_zero (v.setEs a.esd fun _ =>
    Acc.anchored (xclrAnchor a (v.preg a.pred) (v.vreg a.va) (v.vreg a.vb)))
  rw [← hflag]
  exact ⟨vcGoesOn_setEs .., sumTakes_setEs ..⟩

/-- Without AUTO the anchor is the operand's. -/
theorem anchored_of_not_auto {a : XArgs} (hauto : a.auto = false) (p : BitVec 256) (x y : VReg) :
    Acc.anchored (xclrAnchor a p x y) = ⟨0#136, a.anchor, false, false⟩ := by
  simp [Acc.anchored, xclrAnchor, hauto]

/-! ### XADD and XMAC (R127) -/

/-- Element `i` of ESD after lane `i`'s product, and the conditions that the product sets. -/
def xAdded (v : VCore) (a : XArgs) (mac : Bool) (i : Nat) : Acc × BitVec 8 :=
  (v.esElem a.esd i).addProduct (mulElem (exact32 (lane (v.vreg a.va) i))
    (if mac then exact32 (lane (v.vreg a.vb) i) else some ⟨1, 0⟩))

theorem xProduct_eq (v : VCore) (a : XArgs) (mac : Bool) (i : Nat) :
    xProduct v a mac i = if (v.preg a.pred).getLsbD i then xAdded v a mac i else (v.esElem a.esd i, 0#8) := rfl

/-- The conditions of all the products are those of the active lanes. -/
theorem foldl_xProduct_eq_laneConds (v : VCore) (a : XArgs) (mac : Bool) :
    (List.range 256).foldl (fun c i => c ||| (xProduct v a mac i).2) 0#8
      = laneConds (v.preg a.pred) fun i => (xAdded v a mac i).2 := by
  unfold laneConds
  congr 1
  funext c i
  rw [xProduct_eq]
  split <;> simp

theorem xAccumulate_eq (v : VCore) (a : XArgs) (mac : Bool) :
    v.xAccumulate a mac = (v.setEs a.esd fun i =>
        if (v.preg a.pred).getLsbD i then (xAdded v a mac i).1 else v.esElem a.esd i).flag
      (laneConds (v.preg a.pred) fun i => (xAdded v a mac i).2) := by
  rw [VCore.xAccumulate, foldl_xProduct_eq_laneConds]
  simp only [xProduct_eq, apply_ite Prod.fst]

theorem vcDoes_xAccumulate {h : HallId} {i : Instr} {t : VTiming} (a : XArgs) (mac : Bool)
    (hexec : ∀ s, exec i s = vcReg h i t s fun v => v.xAccumulate a mac) : vcDoes h i fun v v' =>
      sumTakes v v' a.esd (fun i => if (v.preg a.pred).getLsbD i then (xAdded v a mac i).1 else v.esElem a.esd i)
        ∧ ∃ st, bitsOver (v.preg a.pred) (fun i => (xAdded v a mac i).2) st ∧ vcGoesOn v v' st := by
  refine vcDoes_of_vcReg hexec fun v b l => ?_
  rw [xAccumulate_eq]
  exact ⟨sumTakes_setEs .., _, bitsOver_laneConds _ _, vcGoesOn_setEs ..⟩

/-! ### XREC (R128) -/

theorem vcDoes_xrec (h : HallId) (a : XArgs) : vcDoes h (.xrec h a) fun v v' =>
    vcGoesOn v v' (if 7 < a.group.toNat then 0x20#8 else 0#8)
      ∧ sumTakes v v' a.esd fun i =>
        if i / 32 = a.group.toNat % 8 ∧ (v.preg a.pred).getLsbD (8 * (i % 32)) = true then
          (v.esElem a.esd i).add (Acc.ofRecord ((v.vreg a.va).extractLsb' (256 * (i % 32)) 256))
        else v.esElem a.esd i := by
  refine vcDoes_of_vcReg (fun _ => rfl) fun v b l => ⟨vcGoesOn_setEs .., ?_⟩
  convert sumTakes_setEs .. using 2 with i
  by_cases hgroup : i / 32 = a.group.toNat % 8
  · have hlane : i - 32 * (a.group.toNat % 8) = i % 32 := by omega
    simp only [hlane]
  · simp only [hgroup, false_and, if_false]

/-! ### XFOLD (R129) -/

/-- The sum of records in their order; of none, a cleared element. -/
def sumInOrder : List Acc → Acc
  | [] => Acc.zero
  | c :: cs => cs.foldl Acc.add c

/-- One more element of a group, the first of which starts the sum. -/
def addNext : Option Acc → Acc → Option Acc
  | none, x => some x
  | some c, x => some (c.add x)

theorem foldl_addNext (xs : List Acc) : (xs.foldl addNext none).getD Acc.zero = sumInOrder xs := by
  cases xs with
  | nil => rfl
  | cons c cs =>
    rw [List.foldl_cons, addNext, List.foldl_hom some (g₁ := Acc.add) fun _ _ => rfl]
    rfl

/-- Only the active elements are added. -/
theorem foldGroup_eq (v : VCore) (a : XArgs) (lanes : List Nat) :
    foldGroup v a lanes
      = sumInOrder ((lanes.filter fun j => (v.preg a.pred).getLsbD j).map (v.esElem a.esa)) := by
  rw [← foldl_addNext, List.foldl_map, List.foldl_filter, foldGroup]
  congr 2
  funext r j
  cases r <;> rfl

theorem vcDoes_xfold (h : HallId) (a : XArgs) : vcDoes h (.xfold h a) fun v v' =>
    vcGoesOn v v' (if 8 < a.group.toNat then 0x20#8 else 0#8)
      ∧ sumTakes v v' a.esd fun i => sumInOrder ((((List.range (2 ^ min 8 a.group.toNat)).map fun j =>
          i / 2 ^ min 8 a.group.toNat * 2 ^ min 8 a.group.toNat + j).filter fun j => (v.preg a.pred).getLsbD j).map
            (v.esElem a.esa)) := by
  refine vcDoes_of_vcReg (fun _ => rfl) fun v b l => ⟨vcGoesOn_setEs .., ?_⟩
  simp only [← foldGroup_eq]
  exact sumTakes_setEs ..

/-! ### XDRAIN and XOUT (R130, R131) -/

theorem xdrainRandom_eq (seed : W64) (v : VCore) (a : XArgs) (i : Nat) :
    xdrainRandom seed v a i = if a.rnd.toNat < 2 then 0 else
      drainRandom seed ((v.sreg a.sk).setWidth 32 + BitVec.ofNat 32 i) ((v.sreg a.sk).extractLsb' 32 32)
        ((v.sreg (a.sk + 1)).setWidth 32) (if a.rnd = 3#2 then 0x80000000#32 else 0#32) := by
  by_cases h : a.rnd.toNat < 2
  · rw [if_pos h, xdrainRandom, if_neg (by omega)]
  · rw [if_neg h, xdrainRandom, if_pos (by omega)]

theorem vcDoesAt_xdrain (h : HallId) (a : XArgs) : vcDoesAt h (.xdrain h a) fun s _ v v' =>
    lanesTake v v' a.va a.pred a.zero (fun i => BitVec.ofNat 32 (xdrainLane s.job.seed v a i).1)
      ∧ ∃ st, bitsOver (v.preg a.pred) (fun i => (xdrainLane s.job.seed v a i).2) st
        ∧ vcGoesOn v v' (st ||| (if 2 ≤ a.rnd.toNat ∧ a.sk = 31#5 then 0x20#8 else 0#8)) :=
  vcDoesAt_of_vcReg (fun _ => rfl) fun _ _ _ _ =>
    ⟨lanesTake_writeLanes .., _, bitsOver_laneConds _ _, vcGoesOn_writeLanes ..⟩

/-- An ACC record of a register built from its records (Table 2.3). -/
theorem extractLsb'_ofElems_record (f : Nat → BitVec 256) {k : Nat} (hk : k < 32) :
    (ofElems 256 fun k => (f k).toNat).extractLsb' (256 * k) 256 = f k := by
  apply BitVec.eq_of_toNat_eq
  rw [BitVec.extractLsb'_toNat, Nat.shiftRight_eq_div_pow]
  exact (elemOf_ofElems 256 _ k hk).trans (Nat.mod_eq_of_lt (f k).isLt)

theorem vcDoes_xout (h : HallId) (a : XArgs) : vcDoes h (.xout h a) fun v v' =>
    onlyV v v' a.va ∧ vcGoesOn v v' (if 7 < a.group.toNat then 0x20#8 else 0#8)
      ∧ ∀ k, k < 32 →
        (v'.vreg a.va).extractLsb' (256 * k) 256 = (v.esElem a.esa (32 * (a.group.toNat % 8) + k)).toRecord := by
  refine vcDoes_of_vcReg (fun _ => rfl) fun v b l => ⟨onlyV_setV .., vcGoesOn_setV .., fun k hk => ?_⟩
  rw [VCore.vreg_retire, VCore.vreg_flag, VCore.vreg_setV, if_pos rfl]
  exact extractLsb'_ofElems_record _ hk

/-- Settles O10: each exact-sum instruction by what it writes to ESD, or to lanes and records. -/
theorem vectorExactSums : Obligations.VectorExactSums := by
  unfold Obligations.VectorExactSums
  intro h a
  refine ⟨fun hauto => ?_, fun _ => vcDoes_xclr h a, fun mac => ?_, vcDoes_xrec h a, ?_, ?_, vcDoes_xout h a⟩
  · simpa only [anchored_of_not_auto hauto] using vcDoes_xclr h a
  · cases mac with
    | false => exact vcDoes_xAccumulate a false fun _ => rfl
    | true => exact vcDoes_xAccumulate a true fun _ => rfl
  · exact vcDoes_xfold h a
  · simpa only [xdrainLane, xdrainRandom_eq] using vcDoesAt_xdrain h a

end Sys2Proof.Machine

/-! O9: NaN, infinities and zeros in FP32 arithmetic and in the transcendental functions (R120, R121, R125). -/

namespace Sys2Proof.Machine

open Sys2Proof.Claims

/-! ### NaN in, canonical NaN out (R120, R121) -/

section Nan
variable {x y : W32} (h : (isNaN32 x || isNaN32 y) = true)
include h

theorem fadd32_of_nan : fadd32 x y = nan32 := by simp [fadd32, h]
theorem fmul32_of_nan : fmul32 x y = nan32 := by simp [fmul32, h]
theorem fmin32_of_nan : fmin32 x y = nan32 := by simp [fmin32, h]
theorem fmax32_of_nan : fmax32 x y = nan32 := by simp [fmax32, h]

theorem fma32_of_nan_factor (z : W32) : fma32 x y z = nan32 := by simp [fma32, h]
theorem fma32_of_nan_last (z : W32) : fma32 z x y = nan32 := by simp [fma32, Bool.or_assoc, h]

/-- The sign of a NaN is left alone, so that FNMS meets the NaN that its operand is. -/
theorem fnms32_of_nan (z : W32) : fnms32 x y z = nan32 := by
  unfold fnms32
  cases hx : isNaN32 x with
  | true => exact fma32_of_nan_factor (by simp [hx]) z
  | false =>
    have hy : isNaN32 y = true := by simpa [hx] using h
    exact fma32_of_nan_factor (by simp [hy]) z

theorem fsub32_of_nan : fsub32 x y = nan32 := by
  unfold fsub32
  split
  · rfl
  · next hy =>
    have hx : isNaN32 x = true := by simpa [hy] using h
    exact fadd32_of_nan (by simp [hx])

end Nan

/-! ### Comparison (R121) -/

/-- FCMP's relation by its number: with a NaN only NE and UN hold, and conditions past 5 never do. -/
theorem fcmp32_eq (m : Nat) (x y : W32) :
    fcmp32 m x y = if isNaN32 x ∨ isNaN32 y then decide (m = 1 ∨ m = 4)
      else if m = 0 then decide (ord32 x = ord32 y) else if m = 1 then decide (ord32 x ≠ ord32 y)
      else if m = 2 then decide (ord32 x < ord32 y) else if m = 3 then decide (ord32 x ≤ ord32 y) else decide (m = 5) := by
  by_cases hun : isNaN32 x ∨ isNaN32 y
  · have hor : (isNaN32 x || isNaN32 y) = true := by simpa using hun
    rw [if_pos hun]
    rcases m with _ | _ | _ | _ | _ | _ | m <;> simp [fcmp32, hor]
  · have hor : (isNaN32 x || isNaN32 y) = false := by simpa using hun
    rw [if_neg hun]
    rcases m with _ | _ | _ | _ | _ | _ | m <;> simp [fcmp32, hor]

/-! ### Infinities (R120) -/

/-- An infinity stays under the addition of a finite number. -/
theorem fadd32_inf_left {a y : W32} (ha : isNaN32 a = false) (hinf : isInf32 a = true) (hy : isNaN32 y = false)
    (hfin : isInf32 y = false) : fadd32 a y = a := by
  simp [fadd32, ha, hinf, hy, hfin]

theorem fadd32_inf_right {a y : W32} (ha : isNaN32 a = false) (hinf : isInf32 a = true) (hy : isNaN32 y = false)
    (hfin : isInf32 y = false) : fadd32 y a = a := by
  simp [fadd32, ha, hinf, hy, hfin]

theorem fsub32_inf {y : W32} (hy : isNaN32 y = false) (hfin : isInf32 y = false) :
    fsub32 y 0x7F800000#32 = 0xFF800000#32 := by
  have hnan : isNaN32 0x7F800000#32 = false := by decide
  have hneg : fneg32 0x7F800000#32 = 0xFF800000#32 := by decide
  rw [fsub32, hnan, hneg, if_neg Bool.false_ne_true]
  exact fadd32_inf_right (by decide) (by decide) hy hfin

theorem fmul32_inf {y : W32} (hy : isNaN32 y = false) (hzero : isZero32 y = false) :
    fmul32 0x7F800000#32 y = if y.msb then 0xFF800000#32 else 0x7F800000#32 := by
  have hnan : isNaN32 0x7F800000#32 = false := by decide
  have hinf : isInf32 0x7F800000#32 = true := by decide
  have hnonzero : isZero32 0x7F800000#32 = false := by decide
  have hpos : (0x7F800000#32).msb = false := by decide
  cases hmsb : y.msb <;> simp [fmul32, hnan, hinf, hnonzero, hy, hzero, neg32, hpos, hmsb, signed32, inf32]

theorem fp32_specials : fp32SpecialsHold := by
  intro x y z
  refine ⟨fun h => ?_, fun m => fcmp32_eq m x y, by decide, by decide, by decide, by decide, by decide, by decide, by decide,
    fun hy hfin => ⟨fadd32_inf_left (by decide) (by decide) hy hfin, fadd32_inf_right (by decide) (by decide) hy hfin,
      fsub32_inf hy hfin⟩, fmul32_inf⟩
  have hnan : (isNaN32 x || isNaN32 y) = true := by simpa using h
  exact ⟨fadd32_of_nan hnan, fsub32_of_nan hnan, fmul32_of_nan hnan, fmin32_of_nan hnan, fmax32_of_nan hnan,
    fma32_of_nan_factor hnan z, fnms32_of_nan hnan z, fma32_of_nan_last hnan z⟩

/-! ### Transcendental functions (R125) -/

/-- Only the two zeros have no bit beside the sign. -/
theorem zero32_cases {x : W32} (h : x.toNat % 2 ^ 31 = 0) : x = 0#32 ∨ x = 0x80000000#32 := by
  bv_omega

/-- An encoding with a bit beside the sign is not a zero. -/
theorem isZero32_eq_false {x : W32} (h : x.toNat % 2 ^ 31 ≠ 0) : isZero32 x = false := by
  refine decide_eq_false fun hzero => h ?_
  have hand : (x &&& 0x7FFFFFFF#32).toNat = 0 := congrArg BitVec.toNat hzero
  rwa [BitVec.toNat_and, show (0x7FFFFFFF#32).toNat = 2 ^ 31 - 1 from rfl, Nat.and_two_pow_sub_one_eq_mod] at hand

theorem transcendental_nan {x : W32} (h : isNaN32 x = true) :
    ∀ f ∈ [exp2of, log2of, rcpOf, rsqrtOf, tanhOf, sigmOf], f x = 0x7FC00000#32 := by
  simp [exp2of, log2of, rcpOf, rsqrtOf, tanhOf, sigmOf, h, nan32]

theorem transcendental_zero {x : W32} (h : x.toNat % 2 ^ 31 = 0) :
    exp2of x = 0x3F800000#32 ∧ log2of x = 0xFF800000#32 ∧ tanhOf x = x ∧ sigmOf x = 0x3F000000#32
      ∧ rcpOf x = (if x.msb then 0xFF800000#32 else 0x7F800000#32)
      ∧ rsqrtOf x = (if x.msb then 0xFF800000#32 else 0x7F800000#32) := by
  rcases zero32_cases h with rfl | rfl <;> decide +kernel

/-- LOG2 and RSQRT of a negative number. -/
theorem transcendental_negative {x : W32} (hneg : x.msb = true) (h : x.toNat % 2 ^ 31 ≠ 0) :
    log2of x = 0x7FC00000#32 ∧ rsqrtOf x = 0x7FC00000#32 := by
  simp [log2of, rsqrtOf, neg32, hneg, isZero32_eq_false h, nan32]

theorem transcendental_infinity :
    exp2of 0x7F800000#32 = 0x7F800000#32 ∧ exp2of 0xFF800000#32 = 0#32
      ∧ log2of 0x7F800000#32 = 0x7F800000#32 ∧ log2of 0xFF800000#32 = 0x7FC00000#32
      ∧ rcpOf 0x7F800000#32 = 0#32 ∧ rcpOf 0xFF800000#32 = 0x80000000#32
      ∧ rsqrtOf 0x7F800000#32 = 0#32 ∧ tanhOf 0x7F800000#32 = 0x3F800000#32 ∧ tanhOf 0xFF800000#32 = 0xBF800000#32
      ∧ sigmOf 0x7F800000#32 = 0x3F800000#32 ∧ sigmOf 0xFF800000#32 = 0#32 := by
  decide +kernel

theorem transcendental_specials : transcendentalSpecialsHold := by
  intro x
  obtain ⟨hexp, hexpNeg, hlog, hlogNeg, hrcp, hrcpNeg, hrsqrt, htanh, htanhNeg,
    hsigm, hsigmNeg⟩ := transcendental_infinity
  exact ⟨transcendental_nan, transcendental_zero, hexp, hexpNeg, hlog, hlogNeg, hrcp, hrcpNeg, hrsqrt, htanh,
    htanhNeg, hsigm, hsigmNeg, transcendental_negative⟩

/-- Settles O9: each function looks at NaN, infinity and zero before it computes. -/
theorem floatSpecials : Obligations.FloatSpecials := by
  unfold Obligations.FloatSpecials
  exact ⟨fp32_specials, transcendental_specials⟩

end Sys2Proof.Machine

/-! O13: a DESC that reads over the end of a Pantry whose list of bytes does not end there (R138, R141). -/

namespace Sys2Proof.Machine

open Sys2Proof.Claims

/-- Passing beats moves nothing that the core looks at. -/
theorem VcReady.of_runs_nil {h : HallId} {i : Instr} {s : State} (hruns : s.ld.runs = [])
    (henabled : s.hallEnabled h.val = true) (hissues : s.vcIssues h i = true) : VcReady h i s :=
  ⟨henabled, through_of_runs_nil hruns hissues fun _ _ h => h⟩

/-- DESC of the granule that s1 names, to the hall's own porter. -/
def descFromS1 : CArgs := ⟨0#5, 1#5, 0#13, 0#5, false, 0#24⟩

/-- The vector core of hall 0 of a running job is about to issue `descFromS1`, whose word has the bytes 0x40 and 0x08 at
addresses 5 and 7. s1 names the last granule of the Pantry, so that byte 32 of the descriptor is the Pantry's byte 0
(R138, R141), which reads 0. The Pantry is in its canonical form, but lists a byte at address 2^19, where a Pantry of
512 KiB has none. -/
def descPastEnd : State :=
  { State.reset with
    job := { State.reset.job with loadState := 5#8 }
    vc := [(0, { VCore.idle with running := true, s := [(1, 16383#64)] })]
    pantry := [(2, [(5, 0x40#8), (7, 0x08#8), (2 ^ 19, 1#8)])] }

theorem vcReady_descPastEnd : VcReady 0 (.desc 0 descFromS1) descPastEnd :=
  VcReady.of_runs_nil rfl (by decide +kernel) (by decide +kernel)

/-- Byte 32 of the 64 bytes that a number spells. -/
def byte32 (n : Nat) : Nat := n / 2 ^ 256 % 256

/-- Byte 32 of the descriptor that came last to porter `k`, `n` beats after a command. -/
def lastByte32 (k n : Nat) : Res → Option Nat
  | .next t => ((t.toBeat (t.milestone + n)).porter k).arriving.getLast?.map fun hd => byte32 hd.desc.toNat
  | _ => none

/-- The window that DESC reads takes the listed byte for byte 0 of the Pantry. -/
theorem lastByte32_descPastEnd : lastByte32 64 2 (exec (.desc 0 descFromS1) descPastEnd) = some 1 := by
  decide +kernel

/-- The Pantry itself spells 0 there. -/
theorem byte32_vBytes_descPastEnd :
    byte32 (vBytes descPastEnd 0 (32 * (((descPastEnd.vcore 0).sreg descFromS1.sa).toNat % 16384)) 64) = 0 := by
  decide +kernel

/-- Refutes O13: the statement quantifies over every state, also those whose Pantry lists a byte at or past its size. In
`descPastEnd` DESC hands its porter a descriptor whose byte 32 is such a byte (`State.pantryWindow`), where R141 wraps
to address 0, which reads 0. The refutation is about such states alone: it says nothing of Pantries that list no byte
past their size, nor of the other clauses. -/
theorem not_vectorQueuesAndSends : ¬ Obligations.VectorQueuesAndSends := by
  unfold Obligations.VectorQueuesAndSends
  rintro ⟨-, hsends⟩
  obtain ⟨-, -, hdesc, -⟩ := hsends 0 descFromS1 descPastEnd
  obtain ⟨t, hexec, -, -, -, -, -, pre, hd, harriving, hbytes⟩ := hdesc (by decide) vcReady_descPastEnd rfl
  have hread : lastByte32 64 2 (.next t) = some 1 := hexec ▸ lastByte32_descPastEnd
  have hone : byte32 hd.desc.toNat = 1 := by
    have hlast : ((t.toBeat (t.milestone + 2)).porter 64).arriving = pre ++ [hd] := harriving
    rw [lastByte32, hlast, List.getLast?_concat] at hread
    exact Option.some.inj hread
  have hzero : byte32 hd.desc.toNat = 0 := (congrArg byte32 hbytes).trans byte32_vBytes_descPastEnd
  exact absurd (hone.symm.trans hzero) (by decide)

end Sys2Proof.Machine
